-- ==== Sys2Proof/Word.lean ====
section
/-! DEFINITION. The word types of the spec (R3: bits, bytes, little-endian words) and their plainest names. -/

namespace Sys2Proof

/-- One byte of memory. -/
abbrev Byte := BitVec 8

/-- One register, one instruction word. -/
abbrev Word := BitVec 32

/-- One register pair, one address. -/
abbrev DWord := BitVec 64

/-- One bit per lane of a group (R20). -/
abbrev LaneMask := BitVec 32

end Sys2Proof
end

