-- ==== Sys2Proof/Syntax.lean ====
section
/-! DEFINITION. The instruction set: one constructor of Instr per row of the opcode table.
The 170 instructions of R62, R64 and R411 carry the fields of their words (R47 to R49), the seven test-port
instructions of R32 are bytes, and every other row is an event of the machine with the data that names it. -/

namespace Sys2Proof

/-- The fields of an instruction's words (R47 base word, R48 extension word, R49 immediate word).
A 1-word form has the last five fields zero; a 2-word form has imm zero. -/
structure Fields where
  ge : Bool
  gp : BitVec 4
  gs : Bool
  d : BitVec 7
  a : BitVec 7
  b : BitVec 7
  c : BitVec 7
  la : BitVec 4
  sc : BitVec 3
  mod : BitVec 8
  imm : Word
  deriving DecidableEq, Repr

/-- The functions that report by themselves in READY_A, READY_B, FAIL_A and FAIL_B (R34). -/
inductive Function where
  | sect (s : Nat)
  | hbm (n : Nat)
  | msc (die : Nat)
  | keyt (die : Nat)
  | clnk (port : Nat)
  | cfg
  | secb
  | hearth
  | hqt
  | coll
  | migr
  | peat
  | cxlm
  | cxlc
  | cxlio
  deriving DecidableEq, Repr

/-- What firmware retires in the field (R2, R36). -/
inductive RetiredUnit where
  | function (fn : Function)
  | core (c : Nat)
  | page (pa : DWord)
  deriving DecidableEq, Repr

/-- The structures an uncorrectable error is reported for (R339). -/
inductive ErrorPlace where
  | registerFile
  | scratchpad
  | viewCache
  | storeBuffer
  | accumulator
  | memorySideCache
  | hbm
  | peat
  deriving DecidableEq, Repr

/-- Where a page lives (R165, R190). -/
inductive Tier where
  | hbm
  | peat
  | host
  deriving DecidableEq, Repr

/-- What a debugger may halt (R364). -/
inductive DebugTarget where
  | group (gid : Nat)
  | team (tid : Nat)
  | role (tid : Nat) (role : BitVec 2)
  | context (ctx : Nat)
  deriving DecidableEq, Repr

/-- The part of a unit that arrives at a device (R172 Arrive): the i-th part sent and not yet arrived,
or a part of another device's unit, homed here, with the location and value of each of its bytes. -/
inductive ArrivalSource where
  | sent (i : Nat)
  | foreign (bytes : List (Nat × Byte))
  deriving DecidableEq, Repr

/-- A host access to device memory over CXL.mem, by host address (R179, R383). -/
inductive HostAccess where
  | read (hpa : Nat) (n : Nat)
  | write (hpa : Nat) (bytes : List Byte)
  deriving DecidableEq, Repr

/-- A member of a cluster that is to start: its rank, and the team and line number of each view line it inherits (R177, R241). -/
structure Member where
  rank : Nat
  inherited : List (Nat × Nat) := []
  deriving DecidableEq, Repr

/-- The instructions, the test-port instructions and the events of the opcode table. -/
inductive Instr where
  /-- R123: Short form: writes the wrapped signed sum of A and B to D on each guarded lane. -/
  | iadd (f : Fields)
  /-- R123: Long form of IADD, adding the .sat and .satu modifiers. -/
  | iaddLong (f : Fields)
  /-- R123: Short form: writes the wrapped signed difference A minus B to D. -/
  | isub (f : Fields)
  /-- R123: Long form of ISUB, with saturation modifiers. -/
  | isubLong (f : Fields)
  /-- R123: Short form: writes the low 32 bits of A times B to D. -/
  | imul (f : Fields)
  /-- R123: Long form of IMUL. -/
  | imulLong (f : Fields)
  /-- R123: Short form: writes the high 32 bits of the signed 64-bit product to D. -/
  | imulh (f : Fields)
  /-- R123: Long form of IMULH, adding .u. -/
  | imulhLong (f : Fields)
  /-- R123: Short form: writes A AND B to D. -/
  | and (f : Fields)
  /-- R123: Long form of AND, adding .inv. -/
  | andLong (f : Fields)
  /-- R123: Short form: writes A OR B to D. -/
  | or (f : Fields)
  /-- R123: Long form of OR, adding .inv. -/
  | orLong (f : Fields)
  /-- R123: Short form: writes A XOR B to D. -/
  | xor (f : Fields)
  /-- R123: Long form of XOR, adding .inv. -/
  | xorLong (f : Fields)
  /-- R123: Short form: writes A AND NOT B to D. -/
  | andn (f : Fields)
  /-- R123: Long form of ANDN, adding .inv. -/
  | andnLong (f : Fields)
  /-- R123: Short form: shifts A left by B with zero fill. -/
  | shl (f : Fields)
  /-- R123: Long form of SHL, adding .wrap. -/
  | shlLong (f : Fields)
  /-- R123: Short form: shifts A right by B with zero fill. -/
  | shr (f : Fields)
  /-- R123: Long form of SHR, adding .wrap. -/
  | shrLong (f : Fields)
  /-- R123: Short form: shifts A right by B, filling with its sign bit. -/
  | shra (f : Fields)
  /-- R123: Long form of SHRA, adding .wrap. -/
  | shraLong (f : Fields)
  /-- R123: Short form: writes the signed minimum of A and B. -/
  | imin (f : Fields)
  /-- R123: Long form of IMIN, adding .u. -/
  | iminLong (f : Fields)
  /-- R123: Short form: writes the signed maximum of A and B. -/
  | imax (f : Fields)
  /-- R123: Long form of IMAX, adding .u. -/
  | imaxLong (f : Fields)
  /-- R123: Short form: copies A to D. -/
  | mov (f : Fields)
  /-- R123: Long form of MOV. -/
  | movLong (f : Fields)
  /-- R38: Short form: writes A on guarded lanes and B on the other lanes of the convergence set; it requires a guard. -/
  | sel (f : Fields)
  /-- R38: Long form of SEL; it requires GE = 1. -/
  | selLong (f : Fields)
  /-- R123: Short form: writes the number of 1 bits in A to D. -/
  | popc (f : Fields)
  /-- R123: Long form of POPC. -/
  | popcLong (f : Fields)
  /-- R144: Short form: FP32 add, rounded under the FP mode. -/
  | fadd (f : Fields)
  /-- R144: Long form of FADD, with rounding override and operand negation. -/
  | faddLong (f : Fields)
  /-- R144: Short form: FP32 subtract. -/
  | fsub (f : Fields)
  /-- R144: Long form of FSUB, with modifiers. -/
  | fsubLong (f : Fields)
  /-- R144: Short form: FP32 multiply. -/
  | fmul (f : Fields)
  /-- R144: Long form of FMUL, with modifiers. -/
  | fmulLong (f : Fields)
  /-- R145: Short form: FP32 minimum, with −0 ordered below +0 and a NaN treated as missing. -/
  | fmin (f : Fields)
  /-- R145: Long form of FMIN, adding .nan. -/
  | fminLong (f : Fields)
  /-- R145: Short form: FP32 maximum. -/
  | fmax (f : Fields)
  /-- R145: Long form of FMAX, adding .nan. -/
  | fmaxLong (f : Fields)
  /-- R144: Short form: adds two packed F16 halves. -/
  | hadd2 (f : Fields)
  /-- R144: Long form of HADD2, with modifiers. -/
  | hadd2Long (f : Fields)
  /-- R144: Short form: multiplies two packed F16 halves. -/
  | hmul2 (f : Fields)
  /-- R144: Long form of HMUL2, with modifiers. -/
  | hmul2Long (f : Fields)
  /-- R115: Two-word NOP, which may carry a guard and does nothing on any lane. -/
  | nopLong (f : Fields)
  /-- R124: Adds a signed immediate to A, wrapped. -/
  | iaddi (f : Fields)
  /-- R124: Writes the immediate word to D. -/
  | movi (f : Fields)
  /-- R125: Writes the low 32 bits of A times B plus C. -/
  | imad (f : Fields)
  /-- R125: Writes the 64-bit multiply–add result to pair D. -/
  | imadw (f : Fields)
  /-- R127: Adds with carry in and carry out held in a predicate. -/
  | iaddc (f : Fields)
  /-- R127: Subtracts with borrow in and borrow out held in a predicate. -/
  | isubb (f : Fields)
  /-- R128: Negates A, wrapped or saturated. -/
  | ineg (f : Fields)
  /-- R128: Takes the absolute value of A, wrapped or saturated. -/
  | iabs (f : Fields)
  /-- R128: Rotates A left, or right with .r. -/
  | rot (f : Fields)
  /-- R128: Counts the leading zero bits of A. -/
  | clz (f : Fields)
  /-- R128: Reverses the bit order of A. -/
  | brev (f : Fields)
  /-- R129: Extracts a bit field, optionally sign-extended. -/
  | bfe (f : Fields)
  /-- R129: Inserts a bit field into a base word. -/
  | bfi (f : Fields)
  /-- R126: Forms a 64-bit address from a base pair plus a scaled index. -/
  | lea (f : Fields)
  /-- R130: Compares two registers and writes or combines a predicate. -/
  | icmp (f : Fields)
  /-- R130: Compares a register with an immediate and writes or combines a predicate. -/
  | icmpi (f : Fields)
  /-- R131: Computes any Boolean function of three predicates. -/
  | pfun (f : Fields)
  /-- R132: Moves all sixteen predicates to a register, or sets predicates under a mask. -/
  | pmov (f : Fields)
  /-- R134: Combines a predicate across the participants, or moves a mask register. -/
  | vote (f : Fields)
  /-- R135: Exchanges values between lanes within a segment. -/
  | lxch (f : Fields)
  /-- R136: Broadcasts the A value of one lane to all participants. -/
  | bcast (f : Fields)
  /-- R137: Reduces or scans integers over the participants. -/
  | redg (f : Fields)
  /-- R146: FP32 fused multiply–add. -/
  | ffma (f : Fields)
  /-- R147: FP32 compare into a predicate. -/
  | fcmp (f : Fields)
  /-- R148: Transcendental FP32 reciprocal. -/
  | frcp (f : Fields)
  /-- R148: Transcendental FP32 square root. -/
  | fsqrt (f : Fields)
  /-- R148: Transcendental FP32 reciprocal square root. -/
  | frsq (f : Fields)
  /-- R148: Transcendental FP32 power of two. -/
  | fex2 (f : Fields)
  /-- R148: Transcendental FP32 base-2 logarithm. -/
  | flg2 (f : Fields)
  /-- R148: Transcendental FP32 sin(πa). -/
  | fsinp (f : Fields)
  /-- R148: Transcendental FP32 cos(πa). -/
  | fcosp (f : Fields)
  /-- R146: Packed F16 fused multiply–add. -/
  | hfma2 (f : Fields)
  /-- R146: Packed BF16 fused multiply–add. -/
  | bfma2 (f : Fields)
  /-- R144: FP64 add. -/
  | dadd (f : Fields)
  /-- R144: FP64 multiply. -/
  | dmul (f : Fields)
  /-- R146: FP64 fused multiply–add. -/
  | dfma (f : Fields)
  /-- R147: FP64 compare into a predicate. -/
  | dcmp (f : Fields)
  /-- R150: Converts a float to a clamped 32-bit integer. -/
  | cvti (f : Fields)
  /-- R151: Converts to a float format. -/
  | cvtf (f : Fields)
  /-- R152: Packs or unpacks F16 or BF16 half pairs. -/
  | cvtw (f : Fields)
  /-- R161: Quantises to a format-slot element, or computes block scale codes. -/
  | qcvt (f : Fields)
  /-- R162: Dequantises an element code to FP32. -/
  | dqcvt (f : Fields)
  /-- R153: Reduces or scans FP32 values over the participants with a single rounding. -/
  | fredg (f : Fields)
  /-- R154: Reads or sets the FP mode register, or clears SAT and SATA. -/
  | fmode (f : Fields)
  /-- R149: Writes a one-hot class word for a float. -/
  | fclass (f : Fields)
  /-- R184: Global or generic load under the phase machine. -/
  | ld (f : Fields)
  /-- R184: Global or generic store into the team's store buffer. -/
  | st (f : Fields)
  /-- R185: Waits for a team-wide commit at a scope. -/
  | phase (f : Fields)
  /-- R186: Waits until earlier unbuffered accesses are performed, optionally dropping the view. -/
  | fence (f : Fields)
  /-- R187: Drops view lines of the teams the scope covers. -/
  | invv (f : Fields)
  /-- R188: Prefetches a line into the view or its home slice. -/
  | pref (f : Fields)
  /-- R189: Classifies, converts or probes a generic address. -/
  | cvta (f : Fields)
  /-- R214: Load from the team's own scratchpad buffer. -/
  | lds (f : Fields)
  /-- R214: Store to the team's own scratchpad buffer. -/
  | sts (f : Fields)
  /-- R214: Load from a cluster member's scratchpad buffer. -/
  | ldsr (f : Fields)
  /-- R214: Store to a cluster member's scratchpad buffer. -/
  | stsr (f : Fields)
  /-- R215: Declares, redeclares or drops a buffer table entry. -/
  | bdecl (f : Fields)
  /-- R216: Sets a buffer's state and write pointer. -/
  | bset (f : Fields)
  /-- R217: Reads a field of a buffer table entry. -/
  | bqry (f : Fields)
  /-- R218: Looks up a tag in a tagged buffer. -/
  | tlook (f : Fields)
  /-- R219: Installs a tag into a slot. -/
  | tinst (f : Fields)
  /-- R220: Invalidates a slot, or the slot holding a tag. -/
  | tdrop (f : Fields)
  /-- R221: Atomic read-modify-write returning the old value. -/
  | atom (f : Fields)
  /-- R221: Atomic compare-and-swap. -/
  | atcas (f : Fields)
  /-- R221: Atomic reduction without result, optionally ranked. -/
  | red (f : Fields)
  /-- R106: Relative branch of the guarded lanes. -/
  | bra (f : Fields)
  /-- R106: Indirect branch to a per-lane target. -/
  | brx (f : Fields)
  /-- R107: Relative call that opens an overlapping frame and saves a link entry. -/
  | call (f : Fields)
  /-- R107: Indirect call. -/
  | callx (f : Fields)
  /-- R108: Returns from the current frame, waiting for its refill. -/
  | ret (f : Fields)
  /-- R109: Declares and allocates the current frame, waiting for any required spill. -/
  | enter (f : Fields)
  /-- R110: Slides the window of local names. -/
  | win (f : Fields)
  /-- R111: Ends the guarded threads and clears their mask bits. -/
  | exit (f : Fields)
  /-- R113: Sets the lane's own bit in a mask register. -/
  | join (f : Fields)
  /-- R113: Clears the lane's own bit in a mask register. -/
  | leave (f : Fields)
  /-- R114: Waits on a mask register until its release condition is met. -/
  | wait (f : Fields)
  /-- R116: Reads one value of the lane's frame state. -/
  | fdepth (f : Fields)
  /-- R117: Asks the spill engine to spill frames down to q resident. -/
  | fspill (f : Fields)
  /-- R118: Waits until up to q frames below the current one are resident. -/
  | ffill (f : Fields)
  /-- R248: Initialises a barrier word. -/
  | binit (f : Fields)
  /-- R249: Arrives on a barrier word. -/
  | barv (f : Fields)
  /-- R250: Waits for a phase of a barrier word, optionally with a time limit. -/
  | bwait (f : Fields)
  /-- R250: Tests whether a phase of a barrier word has completed. -/
  | btest (f : Fields)
  /-- R251: Arrives on a cluster barrier, optionally with release. -/
  | cbarv (f : Fields)
  /-- R251: Waits on a cluster barrier, optionally with acquire. -/
  | cbwait (f : Fields)
  /-- R252: Enqueues the ember held in o0–o15, or reports a back-pressure refusal. -/
  | enq (f : Fields)
  /-- R253: Writes a payload as one unit, then enqueues an ember. -/
  | putq (f : Fields)
  /-- R254: Raises a signal word to a maximum and wakes its waiters. -/
  | signal (f : Fields)
  /-- R255: Reads the group's role, possibly reassigning a computer group to loader. -/
  | role (f : Fields)
  /-- R256: Commits at team scope and saves the group, giving up its slot. -/
  | yield (f : Fields)
  /-- R257: Takes further indices from the central counter. -/
  | claim (f : Fields)
  /-- R258: Decrements a join counter. -/
  | jdec (f : Fields)
  /-- R280: Submits a copy command to a copy queue. -/
  | xcopy (f : Fields)
  /-- R280: Submits a gather command to a copy queue. -/
  | xgath (f : Fields)
  /-- R281: Submits a prebuilt command chain. -/
  | xchain (f : Fields)
  /-- R282: Reads a queue's SEQC or its status word. -/
  | xseq (f : Fields)
  /-- R282: Waits until a queue's SEQC reaches a number. -/
  | xwait (f : Fields)
  /-- R283: Publishes a queue's shadow lines as one unit. -/
  | xpub (f : Fields)
  /-- R280: Submits a collective command. -/
  | xcoll (f : Fields)
  /-- R284: Stops a copy queue. -/
  | xstop (f : Fields)
  /-- R285: Reads or sets a queue's running CRC, in queue order. -/
  | xcrc (f : Fields)
  /-- R315: Submits a matrix multiply–accumulate. -/
  | mma (f : Fields)
  /-- R316: Queues the clearing of a tile. -/
  | mzero (f : Fields)
  /-- R316: Queues the loading of a tile from memory or scratchpad. -/
  | mloada (f : Fields)
  /-- R317: Submits a drain of a tile. -/
  | mdrain (f : Fields)
  /-- R318: Waits for the matrix queue to reach a number. -/
  | mwait (f : Fields)
  /-- R318: Reads the matrix queue's SEQC or its status word. -/
  | mseq (f : Fields)
  /-- R319: Requests an accord slice for the core's accord cache. -/
  | apref (f : Fields)
  /-- R320: Drops accord slices across the device. -/
  | ainv (f : Fields)
  /-- R321: Reads accord cache counters or residency. -/
  | aqry (f : Fields)
  /-- R367: Enters the handler with kind Trap. -/
  | trap (f : Fields)
  /-- R367: Enters the handler with kind Breakpoint, or halts the group for a debugger. -/
  | brk (f : Fields)
  /-- R352: Posts a service request to the ring and parks the lanes. -/
  | svc (f : Fields)
  /-- R331: Returns from a trap handler. -/
  | rett (f : Fields)
  /-- R370: Reads a thread or context register. -/
  | mfc (f : Fields)
  /-- R370: Writes a thread or context register. -/
  | mtc (f : Fields)
  /-- R371: Writes an ErrorRaised record, optionally fatal. -/
  | eraise (f : Fields)
  /-- R372: Controls audit sampling for the team. -/
  | audit (f : Fields)
  /-- R373: Requests or queries an in-field self-test of a sector. -/
  | stest (f : Fields)
  /-- R374: Raises an address space's generation. -/
  | tlbgen (f : Fields)
  /-- R375: Removes one page from every last-page register and TLB. -/
  | lsweep (f : Fields)
  /-- R376: Waits until a signal word reaches a target. -/
  | waitsig (f : Fields)
  /-- R32: Test-port bypass instruction; every unlisted code acts as it. -/
  | bypass (code : BitVec 8)
  /-- R22: A request that has waited 2048 cycles without a grant moves up one class. -/
  | arbitrationPromotion (resource request : Nat)
  /-- R21: A shared resource grants its next free slot to the highest-class, oldest request. -/
  | resourceGrant (resource : Nat)
  /-- R81: A group that has issued 256 consecutive times loses its quarter to the oldest other ready group. -/
  | issueRunCap (core quarter : Nat)
  /-- R34: A function completes its training or self-test and its ready bit reads 1. -/
  | functionReady (fn : Function)
  /-- R34: A function fails its self-test and its fail bit reads 1. -/
  | functionFail (fn : Function)
  /-- R36: Firmware retires a function, core or page; its ready bit drops and its fail bit is set. -/
  | functionRetired (unit : RetiredUnit)
  /-- R95: The spill engine writes the lowest resident frame of a lane to the arena and raises lo. -/
  | frameSpill (gid lane : Nat)
  /-- R97: The spill engine brings a frame back from the arena, on demand or in the background. -/
  | frameRefill (gid lane : Nat)
  /-- R101: System software resolves a spill's translation, or reports the arena page bad, which raises ArenaFault. -/
  | spillTranslationReply (gid lane : Nat) (bad : Bool)
  /-- R103: A group whose unexited threads are all parked or waiting is saved to its arena and save area, and its slot is freed. -/
  | groupSave (gid : Nat)
  /-- R103: A resume ember is dispatched and the group's state and current frames are restored. -/
  | groupResume (gid core : Nat)
  /-- R172: A team's view line is filled from M. -/
  | fill (team line : Nat)
  /-- R172: A team's view line is dropped. -/
  | drop (team line : Nat)
  /-- R174: An issued store enters the team's store buffer, or an overflow shadow line. -/
  | storeEnter (op : Nat)
  /-- R172: The team's store buffer becomes one unit sent to the publish queues, and its view is dropped. -/
  | commit (team : Nat)
  /-- R172: A unit part sent from another device is appended to this device's publish queue. -/
  | partArrive (source : ArrivalSource)
  /-- R172: The head part of a publish queue is written to M in one step. -/
  | apply (device : Nat)
  /-- R172: A .live load, atomic or RED reads or updates M at its home. -/
  | perform (op : Nat)
  /-- R172: An engine's shadow lines become one unit appended to the publish queues. -/
  | publish (team queue : Nat)
  /-- R172: A key becomes free once its holder's final commit is applied everywhere. -/
  | keyRelease (ctx : Nat) (key : Word)
  /-- R181: A store waiting at a full slice takes a freed shadow line. -/
  | shadowLineGrant (op : Nat)
  /-- R194: A bank performs a scratchpad request and the completion counter falls. -/
  | scratchpadRequestPerform (op : Nat)
  /-- R223: An arrival is performed on a barrier word, possibly completing a phase or overrunning. -/
  | barrierArrival (op : Nat)
  /-- R226: The limit of a timed wait expires and the wait reports 1. -/
  | timedWaitExpiry (gid lane : Nat)
  /-- R211: A ranked contribution reaches its pending tile; the tile is applied in rank order once it is full. -/
  | rankedContribution (op : Nat)
  /-- R212: A tile pending for 100 ms writes a RankStall record. -/
  | rankStallTimeout (tile : Nat)
  /-- R235: The team commits, releases its keys and decrements its join counter. -/
  | teamExit (team : Nat)
  /-- R234: A join counter is decremented at its home and may enqueue its continuation. -/
  | joinDecrement (team : Nat)
  /-- R236: A sector controller or local slot reserves an ember's keys and places its team, or requeues it. -/
  | emberDispatch (ember core : Nat) (inherited : List (Nat × Nat))
  /-- R236: An ember moves from a context's memory ring to a freed on-chip place. -/
  | emberRingMove (ember : Nat)
  /-- R239: An ember left in the local dispatch slot for 2250 cycles passes to the sector queue. -/
  | localSlotTimeout (core : Nat)
  /-- R244: An ember waiting 20 µs becomes aged and may mark its keys. -/
  | emberAged (ember : Nat)
  /-- R240: A core with room claims consecutive indices at the central counter. -/
  | gridClaim (grid core : Nat) (inherited : List (List (Nat × Nat)))
  /-- R241: A cluster member starts on its core of the rectangle as room appears. -/
  | clusterMemberStart (cluster : Nat) (member : Member)
  /-- R201: A queued engine command starts, with its buffer states judged again. -/
  | engineCommandStart (team queue : Nat)
  /-- R266: A copy channel moves one 4 KiB chunk of a command. -/
  | engineChunk (team queue : Nat)
  /-- R281: A channel reads and checks the next command of a chain. -/
  | chainCommandRead (team queue : Nat)
  /-- R272: A command ends: stream states, CRC compare, auto-publish, arrival and SEQC. -/
  | engineCommandEnd (team queue : Nat)
  /-- R277: The collective engine performs one step of up to 64 KiB. -/
  | collectiveStep (team : Nat)
  /-- R278: A collective without progress for 100 ms writes a CollStall record. -/
  | collStallTimeout (team : Nat)
  /-- R299: A matrix operation starts, with its buffer states judged again. -/
  | matrixOpStart (team : Nat)
  /-- R300: An MMA, MZERO or MLOADA ends and SEQC takes its number. -/
  | matrixOpEnd (team : Nat)
  /-- R305: A missing accord slice arrives and the masked rows are replayed. -/
  | accordSliceArrive (team : Nat)
  /-- R310: A drain ends: writes, CLR, publish, arrival and SEQC. -/
  | matrixDrainEnd (team : Nat)
  /-- R356: Another core replays a sampled MMA and compares its signatures. -/
  | auditReplay (sample core : Nat)
  /-- R343: Poison is consumed; the team is rolled back or killed. -/
  | uncorrectableConsumed (gid lane : Nat) (place : ErrorPlace) (skid : Nat)
  /-- R342: A record reaches the context's queue writer and lands, overwrites an older record, or halts the context. -/
  | errorRecordLand (ctx index : Nat)
  /-- R353: A write to SVCDONE completes a done service slot and readies its lanes. -/
  | serviceCompletion (ctx slot : Nat)
  /-- R357: The in-field test interval expires and a sector is evacuated for test. -/
  | selfTestInterval (sector : Nat)
  /-- R359: An in-field test ends; a failure fences the sector and writes SuspectOutput records. -/
  | selfTestEnd (sector : Nat) (pass : Bool)
  /-- R360: The full self-test ends and its signed report is written. -/
  | fullSelfTestEnd (failed : List Function)
  /-- R364: A debugger halts a group, team, role or context. -/
  | debugHalt (target : DebugTarget)
  /-- R365: A debugger advances one instruction of a halted sub-group, or it reports blocked; focus is a lane of the focus sub-group. -/
  | singleStep (gid : Nat) (focus : Option Nat)
  /-- R169: A page-move request reaches the migration arbiter. -/
  | migrationRequest (ctx : Nat) (va : DWord) (tier : Tier) (byHost : Bool)
  /-- R179: A host CXL.mem read or write is performed at the home. -/
  | hostMemoryAccess (access : HostAccess)
  /-- R386: A 64-bit write to KICK keeps the maximum; a narrower write sets NARROW. -/
  | kick (queue : Nat) (wide : Bool) (value : DWord)
  /-- R385: A write to QCTL enables or stops acceptance of a host queue. -/
  | qctlWrite (queue : Nat) (value : Word)
  /-- R388: The Hearth reads and journals a host queue command and raises PROG. -/
  | hostCommandAccept (queue : Nat)
  /-- R387: A host command completes and raises CSIG when CSE is set. -/
  | hostCommandComplete (entry : Nat)
  /-- R402: A message is received on a Hearth–controller command link and its permit returned. -/
  | commandLinkMessage (sector : Nat) (toHearth : Bool) (number : Word)
  /-- R401: A write of a PA starts a query of whether the frame is free of pending stores. -/
  | frmqry (pa : DWord)
  /-- R4: A write to a register with no behaviour of its own stores or ignores the value by its access code. -/
  | registerWrite (offset : Nat) (bytes : Nat) (value : DWord)
  /-- R405: A Cordlink port loses its link and retrains. -/
  | linkLoss (port : Nat)
  /-- R405: A Cordlink port completes training or retraining. -/
  | linkTrained (port : Nat)
  /-- R405: A port retraining for 100 ms is failed and its traffic moves elsewhere. -/
  | portFailTimeout (port : Nat)
  /-- R405: A request to a device with no usable port completes after 1 s with an error. -/
  | unreachableTimeout (op : Nat)
  /-- R57: The result of a long-latency instruction, or of a short-latency one after its latency, arrives in its registers, predicates or masks, and stalled threads become ready. -/
  | resultArrival (gid lane : Nat)
  /-- R65: A word with major 0x17 or an unassigned minor reaches issue and raises an illegal-instruction fault on the guarded lanes. -/
  | unassignedCode (f : Fields) (major : BitVec 5) (minor : BitVec 10)
  /-- R32: A test-port data-register scan captures and shifts the selected register, for example the STATUS bits or the SCANRD length, chain and CRC. -/
  | dataRegisterShift (bits : Nat)
  /-- R364: A debugger releases a halted group, team, role or context, which then issues again and resumes its timed waits. -/
  | debugResume (target : DebugTarget)
  /-- R408: A debugger attaches to or detaches from a context, setting or clearing CTXSTAT.DEBUG and DBGCTL.ATT. -/
  | debuggerAttach (ctx : Nat) (attached : Bool)
  /-- R364: A debugger writes registers of a halted group. -/
  | debuggerRegisterWrite (gid lane : Nat) (name : BitVec 7) (value : Word)
  /-- R63: Short NOP word: changes no state and advances the program counter by one slot. -/
  | nop
  /-- R32: Test-port instruction that selects the 32-bit identification word. -/
  | tapIdcode
  /-- R32: Test-port instruction that sets the freeze latch. -/
  | tapFreeze
  /-- R29: Test-port instruction that clears the freeze latch; it takes effect only when FREEZE_N is high. -/
  | tapRelease
  /-- R32: Test-port instruction that captures the 8-bit freeze and debug status. -/
  | tapStatus
  /-- R32: Test-port instruction that selects the chain to be read. -/
  | scansel
  /-- R33: Test-port instruction that shifts out the length, the bits and the CRC of the selected chain. -/
  | scanrd
  /-- R29: The FREEZE_N input falls, requesting a debug freeze. -/
  | freezeNLow
  /-- R29: The FREEZE_N input rises, allowing release when the freeze latch is clear. -/
  | freezeNHigh
  /-- R31: A write of 1 to FRZCTL.FREEZE requests a freeze and sets the latch. -/
  | frzctlFreeze
  /-- R28: Once the memory bursts in flight have completed and self-refresh is entered, every clock stops at one common edge. -/
  | freezeEdge
  /-- R29: After release, the memories leave self-refresh and all clocks restart at one common edge. -/
  | clockRestart
  /-- R360: Power is applied; the records are verified, and a full self-test runs when the transport flag is set. -/
  | powerOn
  /-- R361: TRANSPORT_N held low while power is applied sets FLAG and PIN. -/
  | transportNLow
  /-- R362: Each engine class stops at its unit and the collectors report to the Hearth. -/
  | preemption
  /-- R362: Every collector has reported. -/
  | preemptionComplete
  /-- R363: A partition context swap out and in completes. -/
  | contextSwapDone
  /-- R169: A move starts once no buffered store holds the page, and clears P. -/
  | migrationStart
  /-- R169: A move completes, writes FRAME, sets P and wakes the parked lanes. -/
  | migrationComplete
  /-- R169: The 50 µs hold-down after a contested move ends. -/
  | holddownExpiry
  /-- R387: Host queue command that does nothing. -/
  | hqNop
  /-- R394: Host queue command that starts a grid launch. -/
  | hqLaunch
  /-- R387: Host queue command that enqueues a host-submitted ember. -/
  | hqEmber
  /-- R387: Host queue command that raises a signal word. -/
  | hqSignal
  /-- R387: Host queue command that holds later commands until a signal word reaches a value. -/
  | hqWait
  /-- R390: The Hearth restarts and HEARTH drops to 0. -/
  | hearthRestart
  /-- R390: The Hearth resumes from its journal, completing unfinished actions once. -/
  | hearthRestartEnd
  /-- R395: Mailbox command that sets a partition's sectors. -/
  | partset
  /-- R397: Mailbox command that creates a context. -/
  | ctxnew
  /-- R395: Mailbox command that frees a context. -/
  | ctxfree
  /-- R363: Mailbox command that swaps one context out and another in. -/
  | ctxswap
  /-- R396: Mailbox command that moves a page to a tier. -/
  | migrate
  /-- R404: Mailbox command that sets the device number once per power-on. -/
  | devnum
  /-- R404: Mailbox command that writes route table entries. -/
  | route
  /-- R407: Mailbox command that returns a signed attestation report. -/
  | attest
  /-- R408: Mailbox command that enables debug access for a valid token. -/
  | debugen
  /-- R406: Mailbox command that verifies and stages a firmware image. -/
  | fwload
  /-- R396: Mailbox command that names the destination of the self-test report. -/
  | streport
  /-- R361: Mailbox command that sets or clears the transport flag. -/
  | transport
  /-- R409: A supply droop starts clock stretching. -/
  | supplyDroop
  /-- R409: The droop ends and the clock returns to full rate. -/
  | droopEnd
  /-- R410: BROWN_N falls; the device pre-empts, swaps contexts to HBM and quiesces. -/
  | brownNFall
  /-- R410: Memories are in self-refresh and QUIESCED reads 1. -/
  | quiesceComplete
  /-- R410: BROWN_N rises with power intact; contexts swap in and acceptance resumes. -/
  | brownNRise
  /-- R410: Power fails, ending all activity, and only memory state at the last applied commit and the flash records survive. -/
  | powerLoss
  deriving DecidableEq, Repr

end Sys2Proof
end

