-- ==== Sys2Proof/Machine/Forms.lean ====
section
/-! DEFINITION. The forms of the instruction set: codes, lengths and issue kinds (R56, R62 to R64), what each field of a
form names (R51 to R55), which MOD bits and scopes it defines (R60, R61), and the static checks of R50, R52, R53 and R55. -/

namespace Sys2Proof.Machine

/-- The four issue kinds (R56): short-latency, long-latency, no result, drain. -/
inductive Kind where
  | s
  | l
  | n
  | d
  deriving DecidableEq, Repr

/-- An entry of the opcode map: a 1-word form has minor 0 (R62, R64). -/
structure Code where
  major : BitVec 5
  minor : BitVec 10
  len : Nat
  kind : Kind
  deriving DecidableEq, Repr

/-- What a 7-bit field of a form holds (R51, R53, R55). -/
inductive FieldUse where
  | unused
  | src
  | dst
  | srcPair
  | dstPair
  | predSrc
  | predDst
  | predBoth
  | num (lo hi : Nat)
  deriving DecidableEq, Repr

/-- The use a form makes of its fields. scopes empty means the form takes no scope; outs means the form also reads
o0 to o15 of each lane. -/
structure Use where
  d : FieldUse := .unused
  a : FieldUse := .unused
  b : FieldUse := .unused
  c : FieldUse := .unused
  modOk : Bool
  scopes : List Nat := []
  outs : Bool := false
  deriving DecidableEq, Repr

/-- MOD[lo + n - 1 : lo] as a number (R61). -/
def modBits (f : Fields) (lo n : Nat) : Nat := f.mod.toNat / 2 ^ lo % 2 ^ n

/-- MOD[n] of a form (R61). -/
def modBit (f : Fields) (n : Nat) : Bool := f.mod.getLsbD n

/-- A rounding override of MOD[2:0] is 0 to 4 (R140). -/
def roundOk (f : Fields) : Bool := decide (modBits f 0 3 ≤ 4)

/-- The sign modifier in MOD[2] goes with the 8-bit and 16-bit widths only (R183, R213). -/
def signOk (f : Fields) : Bool := decide (modBits f 2 1 = 0 ∨ modBits f 0 2 < 2)

/-- The 64-bit width of an atomic, MOD[4] (R213). -/
def wide (f : Fields) : Bool := decide (modBits f 4 1 = 1)

/-- The MOD rules of ATOM and RED (R213): no 64-bit form of codes 9, 10, 14 and 15, float control only from code 11 on. -/
def atomModOk (f : Fields) : Bool :=
  let op := modBits f 0 4
  decide ((modBits f 5 3 = 0 ∨ 11 ≤ op) ∧ (wide f = false ∨ (op ≠ 9 ∧ op ≠ 10 ∧ op ≠ 14 ∧ op ≠ 15)))

def srcOrPair (p : Bool) : FieldUse := if p then .srcPair else .src

def dstOrPair (p : Bool) : FieldUse := if p then .dstPair else .dst

/-- The combiner MOD[5:4] reads the predicate named in C; without one C is unused (R130). -/
def combinerUse (f : Fields) : FieldUse := if modBits f 4 2 = 0 then .unused else .predSrc

def useNone (m : Bool) : Use := { modOk := m }

def useDa (m : Bool) : Use := { d := .dst, a := .src, modOk := m }

def useDab (m : Bool) : Use := { d := .dst, a := .src, b := .src, modOk := m }

def useDabc (m : Bool) : Use := { d := .dst, a := .src, b := .src, c := .src, modOk := m }

/-- PMOV (R132): get writes D, set reads A and the mask B. -/
def usePmov (f : Fields) : Use :=
  if f.mod = 0 then { d := .dst, modOk := true } else { a := .src, b := .src, modOk := f.mod = 1 }

/-- VOTE by mode (R134). -/
def useVote (f : Fields) : Use :=
  match f.mod.toNat with
  | 0 => { d := .dst, a := .predSrc, modOk := true }
  | 1 => { d := .predDst, a := .predSrc, modOk := true }
  | 2 => { d := .predDst, a := .predSrc, modOk := true }
  | 3 => { d := .predDst, a := .predSrc, modOk := true }
  | 4 => { d := .num 0 11, a := .predSrc, modOk := true }
  | 5 => { d := .dst, a := .num 0 11, modOk := true }
  | _ => { modOk := false }

/-- CVTW (R152): pack reads A and B, unpack reads A only and takes no rounding and no saturation. -/
def useCvtw (f : Fields) : Use :=
  if modBits f 1 1 = 0 then
    { d := .dst, a := .src, b := .src, modOk := decide (modBits f 2 3 ≤ 4) && decide (modBits f 6 2 = 0) }
  else { d := .dst, a := .src, modOk := decide (f.mod.toNat < 4) }

/-- FMODE by action (R154). -/
def useFmode (f : Fields) : Use :=
  match f.mod.toNat with
  | 0 => { d := .dst, modOk := true }
  | 1 => { a := .src, modOk := true }
  | 2 => { modOk := true }
  | _ => { modOk := false }

/-- CVTA by mode (R183, R189). -/
def useCvta (f : Fields) : Use :=
  match f.mod.toNat with
  | 0 => { d := .dst, a := .srcPair, modOk := true }
  | 1 => { d := .dstPair, a := .srcPair, b := .src, modOk := true }
  | 2 => { d := .dst, a := .srcPair, modOk := true }
  | _ => { modOk := false }

/-- The timed forms (R247, R279, R314, R366): with .t D is a predicate and MOD[5:1] the limit's exponent; without it both
are zero. -/
def useTimed (f : Fields) : Use :=
  if modBits f 0 1 = 1 then { d := .predDst, modOk := f.mod.toNat < 64 } else { modOk := f.mod = 0 }

/-- The registers MFC and MTC reach (R335). -/
def cregKnown (n : Nat) : Bool :=
  decide (n ≤ 0x005 ∨ (0x100 ≤ n ∧ n ≤ 0x10E) ∨ (0x110 ≤ n ∧ n ≤ 0x117) ∨ n = 0x200 ∨ n = 0x201)

/-- The 64-bit ones among them (R329, R335). -/
def cregWide (n : Nat) : Bool :=
  [0x002, 0x003, 0x004, 0x005, 0x100, 0x105, 0x106, 0x107, 0x10C, 0x10E, 0x110, 0x111, 0x112, 0x113, 0x114, 0x115,
    0x116, 0x117].contains n

/-- The ones MTC may write: TPC, TNPC and the context registers with access RW (R329, R335). -/
def cregWritable (n : Nat) : Bool :=
  [0x003, 0x004, 0x100, 0x101, 0x102, 0x103, 0x104, 0x105, 0x107, 0x108, 0x109, 0x10C, 0x10D, 0x10E].contains n

/-- The static check of one field against its use (R50, R52, R53, R55). -/
def fieldOk (u : FieldUse) (v : BitVec 7) : Bool :=
  match u with
  | .unused => v = 0
  | .src => true
  | .dst => decide (v.toNat < 0x70)
  | .srcPair => decide (v.toNat % 2 = 0 ∧ (v.toNat ≤ 0x70 ∨ v.toNat = 0x7A))
  | .dstPair => decide (v.toNat % 2 = 0 ∧ v.toNat < 0x70)
  | .predSrc => decide (v.toNat < 16)
  | .predDst => decide (v.toNat < 16)
  | .predBoth => decide (v.toNat < 16)
  | .num lo hi => decide (lo ≤ v.toNat ∧ v.toNat ≤ hi)

/-- Every field against the form's use, MOD, LA against the kind, SC against the accepted scopes (R50, R56, R60). -/
def fieldsOk (k : Kind) (u : Use) (f : Fields) : Bool :=
  fieldOk u.d f.d && fieldOk u.a f.a && fieldOk u.b f.b && fieldOk u.c f.c && u.modOk &&
    (k = .l || f.la = 0) &&
    (if u.scopes.isEmpty then f.sc = 0 else u.scopes.contains f.sc.toNat)

/-- The fields that stand in no word of a form of this length are zero (R49). -/
def lenOk (len : Nat) (f : Fields) : Bool :=
  (2 ≤ len || (f.c = 0 && f.la = 0 && f.sc = 0 && f.mod = 0)) && (3 ≤ len || f.imm = 0)

/-- GP and GS are zero when GE = 0 (R50, R65). -/
def guardOk (f : Fields) : Bool := f.ge || (f.gp = 0 && !f.gs)


/-- The opcode map (R62 to R64): major, minor, length in words and issue kind of each instruction. -/
def codeOf (i : Instr) : Option Code :=
  match i with
  | .iadd _ => some ⟨0x00, 0x000, 1, .s⟩
  | .iaddLong _ => some ⟨0x18, 0x000, 2, .s⟩
  | .isub _ => some ⟨0x01, 0x000, 1, .s⟩
  | .isubLong _ => some ⟨0x18, 0x001, 2, .s⟩
  | .imul _ => some ⟨0x02, 0x000, 1, .s⟩
  | .imulLong _ => some ⟨0x18, 0x002, 2, .s⟩
  | .imulh _ => some ⟨0x03, 0x000, 1, .s⟩
  | .imulhLong _ => some ⟨0x18, 0x003, 2, .s⟩
  | .and _ => some ⟨0x04, 0x000, 1, .s⟩
  | .andLong _ => some ⟨0x18, 0x004, 2, .s⟩
  | .or _ => some ⟨0x05, 0x000, 1, .s⟩
  | .orLong _ => some ⟨0x18, 0x005, 2, .s⟩
  | .xor _ => some ⟨0x06, 0x000, 1, .s⟩
  | .xorLong _ => some ⟨0x18, 0x006, 2, .s⟩
  | .andn _ => some ⟨0x07, 0x000, 1, .s⟩
  | .andnLong _ => some ⟨0x18, 0x007, 2, .s⟩
  | .shl _ => some ⟨0x08, 0x000, 1, .s⟩
  | .shlLong _ => some ⟨0x18, 0x008, 2, .s⟩
  | .shr _ => some ⟨0x09, 0x000, 1, .s⟩
  | .shrLong _ => some ⟨0x18, 0x009, 2, .s⟩
  | .shra _ => some ⟨0x0A, 0x000, 1, .s⟩
  | .shraLong _ => some ⟨0x18, 0x00A, 2, .s⟩
  | .imin _ => some ⟨0x0B, 0x000, 1, .s⟩
  | .iminLong _ => some ⟨0x18, 0x00B, 2, .s⟩
  | .imax _ => some ⟨0x0C, 0x000, 1, .s⟩
  | .imaxLong _ => some ⟨0x18, 0x00C, 2, .s⟩
  | .mov _ => some ⟨0x0D, 0x000, 1, .s⟩
  | .movLong _ => some ⟨0x18, 0x00D, 2, .s⟩
  | .sel _ => some ⟨0x0E, 0x000, 1, .s⟩
  | .selLong _ => some ⟨0x18, 0x00E, 2, .s⟩
  | .popc _ => some ⟨0x0F, 0x000, 1, .s⟩
  | .popcLong _ => some ⟨0x18, 0x00F, 2, .s⟩
  | .fadd _ => some ⟨0x10, 0x000, 1, .s⟩
  | .faddLong _ => some ⟨0x19, 0x000, 2, .s⟩
  | .fsub _ => some ⟨0x11, 0x000, 1, .s⟩
  | .fsubLong _ => some ⟨0x19, 0x001, 2, .s⟩
  | .fmul _ => some ⟨0x12, 0x000, 1, .s⟩
  | .fmulLong _ => some ⟨0x19, 0x002, 2, .s⟩
  | .fmin _ => some ⟨0x13, 0x000, 1, .s⟩
  | .fminLong _ => some ⟨0x19, 0x003, 2, .s⟩
  | .fmax _ => some ⟨0x14, 0x000, 1, .s⟩
  | .fmaxLong _ => some ⟨0x19, 0x004, 2, .s⟩
  | .hadd2 _ => some ⟨0x15, 0x000, 1, .s⟩
  | .hadd2Long _ => some ⟨0x19, 0x005, 2, .s⟩
  | .hmul2 _ => some ⟨0x16, 0x000, 1, .s⟩
  | .hmul2Long _ => some ⟨0x19, 0x006, 2, .s⟩
  | .nop => some ⟨0x0D, 0x000, 1, .s⟩
  | .nopLong _ => some ⟨0x1C, 0x00B, 2, .s⟩
  | .iaddi _ => some ⟨0x18, 0x010, 3, .s⟩
  | .movi _ => some ⟨0x18, 0x011, 3, .s⟩
  | .imad _ => some ⟨0x18, 0x012, 2, .s⟩
  | .imadw _ => some ⟨0x18, 0x013, 2, .s⟩
  | .iaddc _ => some ⟨0x18, 0x014, 2, .s⟩
  | .isubb _ => some ⟨0x18, 0x015, 2, .s⟩
  | .ineg _ => some ⟨0x18, 0x016, 2, .s⟩
  | .iabs _ => some ⟨0x18, 0x017, 2, .s⟩
  | .rot _ => some ⟨0x18, 0x018, 2, .s⟩
  | .clz _ => some ⟨0x18, 0x019, 2, .s⟩
  | .brev _ => some ⟨0x18, 0x01A, 2, .s⟩
  | .bfe _ => some ⟨0x18, 0x01B, 2, .s⟩
  | .bfi _ => some ⟨0x18, 0x01C, 2, .s⟩
  | .lea _ => some ⟨0x18, 0x01D, 2, .s⟩
  | .icmp _ => some ⟨0x18, 0x01E, 2, .s⟩
  | .icmpi _ => some ⟨0x18, 0x01F, 3, .s⟩
  | .pfun _ => some ⟨0x18, 0x020, 2, .s⟩
  | .pmov _ => some ⟨0x18, 0x021, 2, .s⟩
  | .vote _ => some ⟨0x18, 0x022, 2, .s⟩
  | .lxch _ => some ⟨0x18, 0x023, 2, .s⟩
  | .bcast _ => some ⟨0x18, 0x024, 2, .s⟩
  | .redg _ => some ⟨0x18, 0x025, 2, .s⟩
  | .ffma _ => some ⟨0x19, 0x010, 2, .s⟩
  | .fcmp _ => some ⟨0x19, 0x011, 2, .s⟩
  | .frcp _ => some ⟨0x19, 0x012, 2, .l⟩
  | .fsqrt _ => some ⟨0x19, 0x013, 2, .l⟩
  | .frsq _ => some ⟨0x19, 0x014, 2, .l⟩
  | .fex2 _ => some ⟨0x19, 0x015, 2, .l⟩
  | .flg2 _ => some ⟨0x19, 0x016, 2, .l⟩
  | .fsinp _ => some ⟨0x19, 0x017, 2, .l⟩
  | .fcosp _ => some ⟨0x19, 0x018, 2, .l⟩
  | .hfma2 _ => some ⟨0x19, 0x019, 2, .s⟩
  | .bfma2 _ => some ⟨0x19, 0x01A, 2, .s⟩
  | .dadd _ => some ⟨0x19, 0x01B, 2, .s⟩
  | .dmul _ => some ⟨0x19, 0x01C, 2, .s⟩
  | .dfma _ => some ⟨0x19, 0x01D, 2, .s⟩
  | .dcmp _ => some ⟨0x19, 0x01E, 2, .s⟩
  | .cvti _ => some ⟨0x19, 0x01F, 2, .s⟩
  | .cvtf _ => some ⟨0x19, 0x020, 2, .s⟩
  | .cvtw _ => some ⟨0x19, 0x021, 2, .s⟩
  | .qcvt _ => some ⟨0x19, 0x022, 2, .l⟩
  | .dqcvt _ => some ⟨0x19, 0x023, 2, .l⟩
  | .fredg _ => some ⟨0x19, 0x024, 2, .s⟩
  | .fmode _ => some ⟨0x19, 0x025, 2, .s⟩
  | .fclass _ => some ⟨0x19, 0x026, 2, .s⟩
  | .ld _ => some ⟨0x1A, 0x000, 3, .l⟩
  | .st _ => some ⟨0x1A, 0x001, 3, .n⟩
  | .phase _ => some ⟨0x1A, 0x002, 2, .d⟩
  | .fence _ => some ⟨0x1A, 0x003, 2, .d⟩
  | .invv _ => some ⟨0x1A, 0x004, 2, .n⟩
  | .pref _ => some ⟨0x1A, 0x005, 3, .n⟩
  | .cvta _ => some ⟨0x1A, 0x006, 2, .l⟩
  | .lds _ => some ⟨0x1B, 0x000, 3, .l⟩
  | .sts _ => some ⟨0x1B, 0x001, 3, .n⟩
  | .ldsr _ => some ⟨0x1B, 0x002, 3, .l⟩
  | .stsr _ => some ⟨0x1B, 0x003, 3, .n⟩
  | .bdecl _ => some ⟨0x1B, 0x004, 2, .n⟩
  | .bset _ => some ⟨0x1B, 0x005, 2, .n⟩
  | .bqry _ => some ⟨0x1B, 0x006, 2, .l⟩
  | .tlook _ => some ⟨0x1B, 0x007, 2, .l⟩
  | .tinst _ => some ⟨0x1B, 0x008, 2, .n⟩
  | .tdrop _ => some ⟨0x1B, 0x009, 2, .n⟩
  | .atom _ => some ⟨0x1B, 0x00A, 3, .l⟩
  | .atcas _ => some ⟨0x1B, 0x00B, 3, .l⟩
  | .red _ => some ⟨0x1B, 0x00C, 3, .n⟩
  | .bra _ => some ⟨0x1C, 0x000, 3, .n⟩
  | .brx _ => some ⟨0x1C, 0x001, 2, .n⟩
  | .call _ => some ⟨0x1C, 0x002, 3, .d⟩
  | .callx _ => some ⟨0x1C, 0x003, 2, .d⟩
  | .ret _ => some ⟨0x1C, 0x004, 2, .d⟩
  | .enter _ => some ⟨0x1C, 0x005, 2, .d⟩
  | .win _ => some ⟨0x1C, 0x006, 2, .d⟩
  | .exit _ => some ⟨0x1C, 0x007, 2, .d⟩
  | .join _ => some ⟨0x1C, 0x008, 2, .n⟩
  | .leave _ => some ⟨0x1C, 0x009, 2, .n⟩
  | .wait _ => some ⟨0x1C, 0x00A, 2, .d⟩
  | .fdepth _ => some ⟨0x1C, 0x00C, 2, .l⟩
  | .fspill _ => some ⟨0x1C, 0x00D, 2, .n⟩
  | .ffill _ => some ⟨0x1C, 0x00E, 2, .d⟩
  | .binit _ => some ⟨0x1D, 0x000, 3, .n⟩
  | .barv _ => some ⟨0x1D, 0x001, 3, .n⟩
  | .bwait _ => some ⟨0x1D, 0x002, 3, .d⟩
  | .btest _ => some ⟨0x1D, 0x003, 3, .l⟩
  | .cbarv _ => some ⟨0x1D, 0x004, 2, .n⟩
  | .cbwait _ => some ⟨0x1D, 0x005, 2, .d⟩
  | .enq _ => some ⟨0x1D, 0x006, 2, .l⟩
  | .putq _ => some ⟨0x1D, 0x007, 3, .l⟩
  | .signal _ => some ⟨0x1D, 0x008, 2, .n⟩
  | .role _ => some ⟨0x1D, 0x009, 2, .d⟩
  | .yield _ => some ⟨0x1D, 0x00A, 2, .d⟩
  | .claim _ => some ⟨0x1D, 0x00B, 2, .l⟩
  | .jdec _ => some ⟨0x1D, 0x00C, 3, .l⟩
  | .xcopy _ => some ⟨0x1E, 0x000, 3, .l⟩
  | .xgath _ => some ⟨0x1E, 0x001, 3, .l⟩
  | .xchain _ => some ⟨0x1E, 0x002, 3, .l⟩
  | .xseq _ => some ⟨0x1E, 0x003, 2, .l⟩
  | .xwait _ => some ⟨0x1E, 0x004, 2, .d⟩
  | .xpub _ => some ⟨0x1E, 0x005, 2, .n⟩
  | .xcoll _ => some ⟨0x1E, 0x006, 3, .l⟩
  | .xstop _ => some ⟨0x1E, 0x007, 2, .n⟩
  | .xcrc _ => some ⟨0x1E, 0x008, 2, .l⟩
  | .mma _ => some ⟨0x1E, 0x100, 3, .l⟩
  | .mzero _ => some ⟨0x1E, 0x101, 2, .n⟩
  | .mloada _ => some ⟨0x1E, 0x102, 3, .l⟩
  | .mdrain _ => some ⟨0x1E, 0x103, 3, .l⟩
  | .mwait _ => some ⟨0x1E, 0x104, 2, .d⟩
  | .mseq _ => some ⟨0x1E, 0x105, 2, .l⟩
  | .apref _ => some ⟨0x1E, 0x106, 3, .n⟩
  | .ainv _ => some ⟨0x1E, 0x107, 2, .n⟩
  | .aqry _ => some ⟨0x1E, 0x108, 2, .l⟩
  | .trap _ => some ⟨0x1F, 0x000, 2, .d⟩
  | .brk _ => some ⟨0x1F, 0x006, 2, .d⟩
  | .svc _ => some ⟨0x1F, 0x001, 2, .d⟩
  | .rett _ => some ⟨0x1F, 0x002, 2, .d⟩
  | .mfc _ => some ⟨0x1F, 0x003, 3, .l⟩
  | .mtc _ => some ⟨0x1F, 0x004, 3, .d⟩
  | .eraise _ => some ⟨0x1F, 0x005, 2, .d⟩
  | .audit _ => some ⟨0x1F, 0x007, 2, .n⟩
  | .stest _ => some ⟨0x1F, 0x008, 2, .l⟩
  | .tlbgen _ => some ⟨0x1F, 0x009, 2, .l⟩
  | .lsweep _ => some ⟨0x1F, 0x00A, 3, .n⟩
  | .waitsig _ => some ⟨0x1F, 0x00B, 2, .d⟩
  | .tapIdcode => none
  | .tapFreeze => none
  | .tapRelease => none
  | .tapStatus => none
  | .scansel => none
  | .scanrd => none
  | .bypass _ => none
  | .freezeNLow => none
  | .freezeNHigh => none
  | .frzctlFreeze => none
  | .freezeEdge => none
  | .clockRestart => none
  | .arbitrationPromotion _ _ => none
  | .resourceGrant _ => none
  | .issueRunCap _ _ => none
  | .functionReady _ => none
  | .functionFail _ => none
  | .functionRetired _ => none
  | .frameSpill _ _ => none
  | .frameRefill _ _ => none
  | .spillTranslationReply _ _ _ => none
  | .groupSave _ => none
  | .groupResume _ _ => none
  | .fill _ _ => none
  | .drop _ _ => none
  | .storeEnter _ => none
  | .commit _ => none
  | .partArrive _ => none
  | .apply _ => none
  | .perform _ => none
  | .publish _ _ => none
  | .keyRelease _ _ => none
  | .shadowLineGrant _ => none
  | .scratchpadRequestPerform _ => none
  | .barrierArrival _ => none
  | .timedWaitExpiry _ _ => none
  | .rankedContribution _ => none
  | .rankStallTimeout _ => none
  | .teamExit _ => none
  | .joinDecrement _ => none
  | .emberDispatch _ _ _ => none
  | .emberRingMove _ => none
  | .localSlotTimeout _ => none
  | .emberAged _ => none
  | .gridClaim _ _ _ => none
  | .clusterMemberStart _ _ => none
  | .engineCommandStart _ _ => none
  | .engineChunk _ _ => none
  | .chainCommandRead _ _ => none
  | .engineCommandEnd _ _ => none
  | .collectiveStep _ => none
  | .collStallTimeout _ => none
  | .matrixOpStart _ => none
  | .matrixOpEnd _ => none
  | .accordSliceArrive _ => none
  | .matrixDrainEnd _ => none
  | .auditReplay _ _ => none
  | .uncorrectableConsumed _ _ _ _ => none
  | .errorRecordLand _ _ => none
  | .serviceCompletion _ _ => none
  | .selfTestInterval _ => none
  | .selfTestEnd _ _ => none
  | .powerOn => none
  | .transportNLow => none
  | .fullSelfTestEnd _ => none
  | .preemption => none
  | .preemptionComplete => none
  | .contextSwapDone => none
  | .debugHalt _ => none
  | .singleStep _ _ => none
  | .migrationRequest _ _ _ _ => none
  | .migrationStart => none
  | .migrationComplete => none
  | .holddownExpiry => none
  | .hostMemoryAccess _ => none
  | .kick _ _ _ => none
  | .qctlWrite _ _ => none
  | .hostCommandAccept _ => none
  | .hqNop => none
  | .hqLaunch => none
  | .hqEmber => none
  | .hqSignal => none
  | .hqWait => none
  | .hostCommandComplete _ => none
  | .hearthRestart => none
  | .hearthRestartEnd => none
  | .commandLinkMessage _ _ _ => none
  | .partset => none
  | .ctxnew => none
  | .ctxfree => none
  | .ctxswap => none
  | .migrate => none
  | .devnum => none
  | .route => none
  | .attest => none
  | .debugen => none
  | .fwload => none
  | .streport => none
  | .transport => none
  | .frmqry _ => none
  | .registerWrite _ _ _ => none
  | .linkLoss _ => none
  | .linkTrained _ => none
  | .portFailTimeout _ => none
  | .unreachableTimeout _ => none
  | .supplyDroop => none
  | .droopEnd => none
  | .brownNFall => none
  | .quiesceComplete => none
  | .brownNRise => none
  | .resultArrival _ _ => none
  | .unassignedCode _ _ _ => none
  | .dataRegisterShift _ => none
  | .powerLoss => none
  | .debugResume _ => none
  | .debuggerAttach _ _ => none
  | .debuggerRegisterWrite _ _ _ _ => none

/-- The fields an instruction carries; an event carries none. -/
def fieldsOf (i : Instr) : Option Fields :=
  match i with
  | .iadd f => some f
  | .iaddLong f => some f
  | .isub f => some f
  | .isubLong f => some f
  | .imul f => some f
  | .imulLong f => some f
  | .imulh f => some f
  | .imulhLong f => some f
  | .and f => some f
  | .andLong f => some f
  | .or f => some f
  | .orLong f => some f
  | .xor f => some f
  | .xorLong f => some f
  | .andn f => some f
  | .andnLong f => some f
  | .shl f => some f
  | .shlLong f => some f
  | .shr f => some f
  | .shrLong f => some f
  | .shra f => some f
  | .shraLong f => some f
  | .imin f => some f
  | .iminLong f => some f
  | .imax f => some f
  | .imaxLong f => some f
  | .mov f => some f
  | .movLong f => some f
  | .sel f => some f
  | .selLong f => some f
  | .popc f => some f
  | .popcLong f => some f
  | .fadd f => some f
  | .faddLong f => some f
  | .fsub f => some f
  | .fsubLong f => some f
  | .fmul f => some f
  | .fmulLong f => some f
  | .fmin f => some f
  | .fminLong f => some f
  | .fmax f => some f
  | .fmaxLong f => some f
  | .hadd2 f => some f
  | .hadd2Long f => some f
  | .hmul2 f => some f
  | .hmul2Long f => some f
  | .nop => some ⟨false, 0, false, 0, 0, 0, 0, 0, 0, 0, 0⟩
  | .nopLong f => some f
  | .iaddi f => some f
  | .movi f => some f
  | .imad f => some f
  | .imadw f => some f
  | .iaddc f => some f
  | .isubb f => some f
  | .ineg f => some f
  | .iabs f => some f
  | .rot f => some f
  | .clz f => some f
  | .brev f => some f
  | .bfe f => some f
  | .bfi f => some f
  | .lea f => some f
  | .icmp f => some f
  | .icmpi f => some f
  | .pfun f => some f
  | .pmov f => some f
  | .vote f => some f
  | .lxch f => some f
  | .bcast f => some f
  | .redg f => some f
  | .ffma f => some f
  | .fcmp f => some f
  | .frcp f => some f
  | .fsqrt f => some f
  | .frsq f => some f
  | .fex2 f => some f
  | .flg2 f => some f
  | .fsinp f => some f
  | .fcosp f => some f
  | .hfma2 f => some f
  | .bfma2 f => some f
  | .dadd f => some f
  | .dmul f => some f
  | .dfma f => some f
  | .dcmp f => some f
  | .cvti f => some f
  | .cvtf f => some f
  | .cvtw f => some f
  | .qcvt f => some f
  | .dqcvt f => some f
  | .fredg f => some f
  | .fmode f => some f
  | .fclass f => some f
  | .ld f => some f
  | .st f => some f
  | .phase f => some f
  | .fence f => some f
  | .invv f => some f
  | .pref f => some f
  | .cvta f => some f
  | .lds f => some f
  | .sts f => some f
  | .ldsr f => some f
  | .stsr f => some f
  | .bdecl f => some f
  | .bset f => some f
  | .bqry f => some f
  | .tlook f => some f
  | .tinst f => some f
  | .tdrop f => some f
  | .atom f => some f
  | .atcas f => some f
  | .red f => some f
  | .bra f => some f
  | .brx f => some f
  | .call f => some f
  | .callx f => some f
  | .ret f => some f
  | .enter f => some f
  | .win f => some f
  | .exit f => some f
  | .join f => some f
  | .leave f => some f
  | .wait f => some f
  | .fdepth f => some f
  | .fspill f => some f
  | .ffill f => some f
  | .binit f => some f
  | .barv f => some f
  | .bwait f => some f
  | .btest f => some f
  | .cbarv f => some f
  | .cbwait f => some f
  | .enq f => some f
  | .putq f => some f
  | .signal f => some f
  | .role f => some f
  | .yield f => some f
  | .claim f => some f
  | .jdec f => some f
  | .xcopy f => some f
  | .xgath f => some f
  | .xchain f => some f
  | .xseq f => some f
  | .xwait f => some f
  | .xpub f => some f
  | .xcoll f => some f
  | .xstop f => some f
  | .xcrc f => some f
  | .mma f => some f
  | .mzero f => some f
  | .mloada f => some f
  | .mdrain f => some f
  | .mwait f => some f
  | .mseq f => some f
  | .apref f => some f
  | .ainv f => some f
  | .aqry f => some f
  | .trap f => some f
  | .brk f => some f
  | .svc f => some f
  | .rett f => some f
  | .mfc f => some f
  | .mtc f => some f
  | .eraise f => some f
  | .audit f => some f
  | .stest f => some f
  | .tlbgen f => some f
  | .lsweep f => some f
  | .waitsig f => some f
  | .tapIdcode => none
  | .tapFreeze => none
  | .tapRelease => none
  | .tapStatus => none
  | .scansel => none
  | .scanrd => none
  | .bypass _ => none
  | .freezeNLow => none
  | .freezeNHigh => none
  | .frzctlFreeze => none
  | .freezeEdge => none
  | .clockRestart => none
  | .arbitrationPromotion _ _ => none
  | .resourceGrant _ => none
  | .issueRunCap _ _ => none
  | .functionReady _ => none
  | .functionFail _ => none
  | .functionRetired _ => none
  | .frameSpill _ _ => none
  | .frameRefill _ _ => none
  | .spillTranslationReply _ _ _ => none
  | .groupSave _ => none
  | .groupResume _ _ => none
  | .fill _ _ => none
  | .drop _ _ => none
  | .storeEnter _ => none
  | .commit _ => none
  | .partArrive _ => none
  | .apply _ => none
  | .perform _ => none
  | .publish _ _ => none
  | .keyRelease _ _ => none
  | .shadowLineGrant _ => none
  | .scratchpadRequestPerform _ => none
  | .barrierArrival _ => none
  | .timedWaitExpiry _ _ => none
  | .rankedContribution _ => none
  | .rankStallTimeout _ => none
  | .teamExit _ => none
  | .joinDecrement _ => none
  | .emberDispatch _ _ _ => none
  | .emberRingMove _ => none
  | .localSlotTimeout _ => none
  | .emberAged _ => none
  | .gridClaim _ _ _ => none
  | .clusterMemberStart _ _ => none
  | .engineCommandStart _ _ => none
  | .engineChunk _ _ => none
  | .chainCommandRead _ _ => none
  | .engineCommandEnd _ _ => none
  | .collectiveStep _ => none
  | .collStallTimeout _ => none
  | .matrixOpStart _ => none
  | .matrixOpEnd _ => none
  | .accordSliceArrive _ => none
  | .matrixDrainEnd _ => none
  | .auditReplay _ _ => none
  | .uncorrectableConsumed _ _ _ _ => none
  | .errorRecordLand _ _ => none
  | .serviceCompletion _ _ => none
  | .selfTestInterval _ => none
  | .selfTestEnd _ _ => none
  | .powerOn => none
  | .transportNLow => none
  | .fullSelfTestEnd _ => none
  | .preemption => none
  | .preemptionComplete => none
  | .contextSwapDone => none
  | .debugHalt _ => none
  | .singleStep _ _ => none
  | .migrationRequest _ _ _ _ => none
  | .migrationStart => none
  | .migrationComplete => none
  | .holddownExpiry => none
  | .hostMemoryAccess _ => none
  | .kick _ _ _ => none
  | .qctlWrite _ _ => none
  | .hostCommandAccept _ => none
  | .hqNop => none
  | .hqLaunch => none
  | .hqEmber => none
  | .hqSignal => none
  | .hqWait => none
  | .hostCommandComplete _ => none
  | .hearthRestart => none
  | .hearthRestartEnd => none
  | .commandLinkMessage _ _ _ => none
  | .partset => none
  | .ctxnew => none
  | .ctxfree => none
  | .ctxswap => none
  | .migrate => none
  | .devnum => none
  | .route => none
  | .attest => none
  | .debugen => none
  | .fwload => none
  | .streport => none
  | .transport => none
  | .frmqry _ => none
  | .registerWrite _ _ _ => none
  | .linkLoss _ => none
  | .linkTrained _ => none
  | .portFailTimeout _ => none
  | .unreachableTimeout _ => none
  | .supplyDroop => none
  | .droopEnd => none
  | .brownNFall => none
  | .quiesceComplete => none
  | .brownNRise => none
  | .resultArrival _ _ => none
  | .unassignedCode _ _ _ => none
  | .dataRegisterShift _ => none
  | .powerLoss => none
  | .debugResume _ => none
  | .debuggerAttach _ _ => none
  | .debuggerRegisterWrite _ _ _ _ => none

/-- How each instruction uses its fields, from the encoding tables of R105, R122, R143, R183, R213, R247, R279, R314
and R366. -/
def useOf (i : Instr) : Use :=
  match i with
  | .iadd _ => useDab true
  | .iaddLong f => useDab (f.mod.toNat < 3)
  | .isub _ => useDab true
  | .isubLong f => useDab (f.mod.toNat < 3)
  | .imul _ => useDab true
  | .imulLong f => useDab (f.mod = 0)
  | .imulh _ => useDab true
  | .imulhLong f => useDab (f.mod.toNat < 2)
  | .and _ => useDab true
  | .andLong f => useDab (f.mod.toNat < 2)
  | .or _ => useDab true
  | .orLong f => useDab (f.mod.toNat < 2)
  | .xor _ => useDab true
  | .xorLong f => useDab (f.mod.toNat < 2)
  | .andn _ => useDab true
  | .andnLong f => useDab (f.mod.toNat < 2)
  | .shl _ => useDab true
  | .shlLong f => useDab (f.mod.toNat < 2)
  | .shr _ => useDab true
  | .shrLong f => useDab (f.mod.toNat < 2)
  | .shra _ => useDab true
  | .shraLong f => useDab (f.mod.toNat < 2)
  | .imin _ => useDab true
  | .iminLong f => useDab (f.mod.toNat < 2)
  | .imax _ => useDab true
  | .imaxLong f => useDab (f.mod.toNat < 2)
  | .mov _ => useDa true
  | .movLong f => useDa (f.mod = 0)
  | .sel _ => useDab true
  | .selLong f => useDab (f.mod = 0)
  | .popc _ => useDa true
  | .popcLong f => useDa (f.mod = 0)
  | .fadd _ => useDab true
  | .faddLong f => useDab (roundOk f && f.mod.toNat < 32)
  | .fsub _ => useDab true
  | .fsubLong f => useDab (roundOk f && f.mod.toNat < 32)
  | .fmul _ => useDab true
  | .fmulLong f => useDab (roundOk f && f.mod.toNat < 32)
  | .fmin _ => useDab true
  | .fminLong f => useDab (f.mod.toNat < 2)
  | .fmax _ => useDab true
  | .fmaxLong f => useDab (f.mod.toNat < 2)
  | .hadd2 _ => useDab true
  | .hadd2Long f => useDab (roundOk f && f.mod.toNat < 32)
  | .hmul2 _ => useDab true
  | .hmul2Long f => useDab (roundOk f && f.mod.toNat < 32)
  | .nop => useNone true
  | .nopLong f => useNone (f.mod = 0)
  | .iaddi f => useDa (f.mod = 0)
  | .movi f => { useNone (f.mod = 0) with d := .dst }
  | .imad f => useDabc (f.mod = 0)
  | .imadw f => { d := .dstPair, a := .src, b := .src, c := .srcPair, modOk := f.mod.toNat < 2 }
  | .iaddc f => { useDab (f.mod.toNat < 2) with c := .predBoth }
  | .isubb f => { useDab (f.mod.toNat < 2) with c := .predBoth }
  | .ineg f => useDa (f.mod.toNat < 2)
  | .iabs f => useDa (f.mod.toNat < 2)
  | .rot f => useDab (f.mod.toNat < 2)
  | .clz f => useDa (f.mod = 0)
  | .brev f => useDa (f.mod = 0)
  | .bfe f => useDab (f.mod.toNat < 2)
  | .bfi f => useDabc (f.mod = 0)
  | .lea f => { d := .dstPair, a := .srcPair, b := .src, modOk := f.mod.toNat < 16 }
  | .icmp f => { d := .predDst, a := .src, b := .src, c := combinerUse f, modOk := f.mod.toNat < 64 }
  | .icmpi f => { d := .predDst, a := .src, c := combinerUse f, modOk := f.mod.toNat < 64 }
  | .pfun _ => { d := .predDst, a := .predSrc, b := .predSrc, c := .predSrc, modOk := true }
  | .pmov f => usePmov f
  | .vote f => useVote f
  | .lxch f => useDab ((modBits f 2 3) ≤ 4 && f.mod.toNat < 32)
  | .bcast f => { useDa (f.mod.toNat < 2) with b := if f.mod = 0 then .src else .unused }
  | .redg f => useDa (modBits f 3 2 ≠ 3 && f.mod.toNat < 32)
  | .ffma f => useDabc (roundOk f && f.mod.toNat < 32)
  | .fcmp f => { d := .predDst, a := .src, b := .src, c := combinerUse f, modOk := f.mod.toNat < 64 }
  | .frcp f => useDa (f.mod = 0)
  | .fsqrt f => useDa (f.mod = 0)
  | .frsq f => useDa (f.mod = 0)
  | .fex2 f => useDa (f.mod = 0)
  | .flg2 f => useDa (f.mod = 0)
  | .fsinp f => useDa (f.mod = 0)
  | .fcosp f => useDa (f.mod = 0)
  | .hfma2 f => useDabc (roundOk f && f.mod.toNat < 32)
  | .bfma2 f => useDabc (roundOk f && f.mod.toNat < 32)
  | .dadd f => { d := .dstPair, a := .srcPair, b := .srcPair, modOk := roundOk f && f.mod.toNat < 32 }
  | .dmul f => { d := .dstPair, a := .srcPair, b := .srcPair, modOk := roundOk f && f.mod.toNat < 32 }
  | .dfma f => { d := .dstPair, a := .srcPair, b := .srcPair, c := .srcPair, modOk := roundOk f && f.mod.toNat < 32 }
  | .dcmp f => { d := .predDst, a := .srcPair, b := .srcPair, c := combinerUse f, modOk := f.mod.toNat < 64 }
  | .cvti f => { d := .dst, a := srcOrPair (modBits f 3 2 = 1), modOk := roundOk f && f.mod.toNat < 64 }
  | .cvtf f => { d := dstOrPair (modBits f 6 2 = 1), a := srcOrPair (modBits f 3 3 = 1), modOk := roundOk f && modBits f 3 3 ≤ 5 }
  | .cvtw f => useCvtw f
  | .qcvt f => { useDa (modBits f 3 2 ≤ 1 && f.mod.toNat < 32) with b := if modBits f 3 2 = 0 then .src else .unused }
  | .dqcvt f => useDab (f.mod.toNat < 8)
  | .fredg f => useDa (roundOk f && modBits f 3 2 ≠ 3 && modBits f 5 2 ≠ 3 && f.mod.toNat < 128)
  | .fmode f => useFmode f
  | .fclass f => { d := .dst, a := srcOrPair (f.mod = 1), modOk := f.mod.toNat < 4 }
  | .ld f => { d := dstOrPair (modBits f 0 2 = 3), a := .srcPair, modOk := f.mod.toNat < 16 && signOk f }
  | .st f => { a := .srcPair, b := srcOrPair (modBits f 0 2 = 3), modOk := f.mod.toNat < 4 }
  | .phase f => { useNone (f.mod = 0) with scopes := [2, 5, 6] }
  | .fence f => { useNone (f.mod.toNat < 2) with scopes := [2, 3, 4, 5, 6] }
  | .invv f => { a := if f.mod = 1 then .srcPair else .unused, b := if f.mod = 1 then .src else .unused, modOk := f.mod.toNat < 2, scopes := [2, 3, 4, 5] }
  | .pref f => { a := .srcPair, modOk := f.mod.toNat < 2 }
  | .cvta f => useCvta f
  | .lds f => { d := dstOrPair (modBits f 0 2 = 3), b := .src, c := .num 0 31, modOk := f.mod.toNat < 8 && signOk f }
  | .sts f => { a := srcOrPair (modBits f 0 2 = 3), b := .src, c := .num 0 31, modOk := f.mod.toNat < 4 }
  | .ldsr f => { d := dstOrPair (modBits f 0 2 = 3), b := .src, c := .num 0 31, modOk := f.mod.toNat < 8 && signOk f }
  | .stsr f => { a := srcOrPair (modBits f 0 2 = 3), b := .src, c := .num 0 31, modOk := f.mod.toNat < 4 }
  | .bdecl f => { a := if f.mod = 0 then .srcPair else .unused, c := .num 0 31, modOk := f.mod.toNat < 2 }
  | .bset f => { b := .src, c := .num 0 31, modOk := f.mod.toNat < 4 }
  | .bqry f => { d := dstOrPair (f.mod = 2), c := .num 0 31, modOk := f.mod.toNat < 4 }
  | .tlook f => { d := .dst, a := .src, c := .num 0 31, modOk := f.mod = 0 }
  | .tinst f => { a := .src, b := .src, c := .num 0 31, modOk := f.mod = 0 }
  | .tdrop f => { a := .src, c := .num 0 31, modOk := f.mod.toNat < 2 }
  | .atom f => { d := dstOrPair (wide f), a := .srcPair, b := srcOrPair (wide f), modOk := atomModOk f, scopes := [2, 3, 4, 5, 6] }
  | .atcas f => { d := dstOrPair (wide f), a := .srcPair, b := srcOrPair (wide f), c := srcOrPair (wide f),
                  modOk := f.mod = 0 || f.mod = 0x10, scopes := [2, 3, 4, 5, 6] }
  | .red f => { d := .num 0 1, a := .srcPair, b := srcOrPair (wide f), c := if f.d = 1 then .src else .unused,
                modOk := atomModOk f && !(8 ≤ modBits f 0 4 && modBits f 0 4 ≤ 10), scopes := [2, 3, 4, 5, 6] }
  | .bra f => useNone (f.mod = 0)
  | .brx f => { a := .srcPair, modOk := f.mod = 0 }
  | .call f => useNone (f.mod = 0)
  | .callx f => { a := .srcPair, modOk := f.mod = 0 }
  | .ret f => useNone (f.mod = 0)
  | .enter f => { b := .num 1 12, modOk := f.mod = 0 }
  | .win f => { b := .num 0 8, modOk := f.mod = 0 }
  | .exit f => useNone (f.mod = 0)
  | .join f => { b := .num 0 11, modOk := f.mod = 0 }
  | .leave f => { b := .num 0 11, modOk := f.mod = 0 }
  | .wait f => { b := .num 0 11, modOk := f.mod = 0 }
  | .fdepth f => { d := .dst, b := .num 0 7, modOk := f.mod = 0 }
  | .fspill f => { b := .num 0 15, modOk := f.mod = 0 }
  | .ffill f => { b := .num 0 15, modOk := f.mod = 0 }
  | .binit f => { a := .src, b := .src, c := .num 0 31, modOk := f.mod = 0 }
  | .barv f => { a := if f.mod = 1 then .src else .unused, b := .src, c := .num 0 31, modOk := f.mod.toNat < 2 }
  | .bwait f => { useTimed f with a := .src, b := .src, c := .num 0 31 }
  | .btest f => { d := .predDst, a := .src, b := .src, c := .num 0 31, modOk := f.mod = 0 }
  | .cbarv f => { b := .num 0 3, modOk := f.mod.toNat < 2, scopes := [3] }
  | .cbwait f => { b := .num 0 3, modOk := f.mod.toNat < 2, scopes := [3] }
  | .enq f => { d := .predDst, b := if f.mod = 1 then .src else .unused, modOk := f.mod.toNat < 3, outs := true }
  | .putq f => { d := .predDst, a := .srcPair, b := .src, c := .num 0 31, modOk := f.mod.toNat < 128, outs := true }
  | .signal f => { a := .srcPair, b := .srcPair, modOk := f.mod = 0, scopes := [4, 5, 6] }
  | .role f => { d := .dst, modOk := f.mod = 0 }
  | .yield f => useNone (f.mod.toNat < 2)
  | .claim f => { d := .dstPair, a := .src, modOk := f.mod = 0 }
  | .jdec f => { d := .dst, a := .srcPair, b := .src, modOk := f.mod = 0, scopes := [4, 5, 6] }
  | .xcopy f => { d := .dstPair, a := .num 0 3, b := .src, c := .num 0 31, modOk := f.mod = 0 }
  | .xgath f => { d := .dstPair, a := .num 0 3, b := .src, c := .num 0 31, modOk := f.mod = 0 }
  | .xchain f => { d := .dstPair, a := .srcPair, b := .num 0 3, modOk := f.mod = 0 }
  | .xseq f => { d := dstOrPair (f.mod = 0), a := .num 0 4, modOk := f.mod.toNat < 2 }
  | .xwait f => { useTimed f with a := .num 0 4, b := .srcPair }
  | .xpub f => { a := .num 0 4, modOk := f.mod = 0, scopes := [5, 6] }
  | .xcoll f => { d := .dstPair, b := .src, c := .num 0 31, modOk := f.mod = 0 }
  | .xstop f => { a := .num 0 3, modOk := f.mod = 0 }
  | .xcrc f => { d := .dst, a := .num 0 3, b := if modBits f 0 1 = 1 then .src else .unused, modOk := f.mod.toNat < 4 }
  | .mma f => { d := .dst, b := .src, c := .num 0 31, modOk := f.mod = 0 }
  | .mzero f => { b := .num 0 3, modOk := f.mod = 0 }
  | .mloada f => { d := .dst, a := .srcPair, b := .num 0 3, modOk := f.mod = 0 }
  | .mdrain f => { d := .dst, a := .num 0 3, b := .src, c := .num 0 31, modOk := f.mod = 0 }
  | .mwait f => { useTimed f with b := .src }
  | .mseq f => { d := dstOrPair (f.mod = 0), modOk := f.mod.toNat < 2 }
  | .apref f => { a := .srcPair, b := .src, modOk := f.mod = 0 }
  | .ainv f => { a := if f.mod = 0 then .unused else .srcPair, b := if f.mod = 2 then .src else .unused, modOk := f.mod.toNat < 3 }
  | .aqry f => { d := .dst, a := if f.mod = 2 then .srcPair else .unused, b := if f.mod = 2 then .src else .unused, modOk := f.mod.toNat < 3 }
  | .trap f => { b := .num 0 127, modOk := f.mod = 0 }
  | .brk f => { b := .num 0 127, modOk := f.mod = 0 }
  | .svc f => { a := .src, modOk := f.mod = 0 }
  | .rett f => useNone (f.mod.toNat < 2)
  | .mfc f => { d := dstOrPair (cregWide f.imm.toNat), modOk := f.mod = 0 && decide (f.imm.toNat < 4096) }
  | .mtc f => { a := srcOrPair (cregWide f.imm.toNat), modOk := f.mod = 0 && decide (f.imm.toNat < 4096) }
  | .eraise f => { a := .src, b := .srcPair, modOk := f.mod.toNat < 2 }
  | .audit f => useNone (f.mod.toNat < 3)
  | .stest f => useDa (f.mod.toNat < 2)
  | .tlbgen f => useDa (f.mod = 0)
  | .lsweep f => { a := .srcPair, modOk := f.mod = 0 }
  | .waitsig f => { useTimed f with a := .srcPair, b := .srcPair }
  | .tapIdcode => useNone true
  | .tapFreeze => useNone true
  | .tapRelease => useNone true
  | .tapStatus => useNone true
  | .scansel => useNone true
  | .scanrd => useNone true
  | .bypass _ => useNone true
  | .freezeNLow => useNone true
  | .freezeNHigh => useNone true
  | .frzctlFreeze => useNone true
  | .freezeEdge => useNone true
  | .clockRestart => useNone true
  | .arbitrationPromotion _ _ => useNone true
  | .resourceGrant _ => useNone true
  | .issueRunCap _ _ => useNone true
  | .functionReady _ => useNone true
  | .functionFail _ => useNone true
  | .functionRetired _ => useNone true
  | .frameSpill _ _ => useNone true
  | .frameRefill _ _ => useNone true
  | .spillTranslationReply _ _ _ => useNone true
  | .groupSave _ => useNone true
  | .groupResume _ _ => useNone true
  | .fill _ _ => useNone true
  | .drop _ _ => useNone true
  | .storeEnter _ => useNone true
  | .commit _ => useNone true
  | .partArrive _ => useNone true
  | .apply _ => useNone true
  | .perform _ => useNone true
  | .publish _ _ => useNone true
  | .keyRelease _ _ => useNone true
  | .shadowLineGrant _ => useNone true
  | .scratchpadRequestPerform _ => useNone true
  | .barrierArrival _ => useNone true
  | .timedWaitExpiry _ _ => useNone true
  | .rankedContribution _ => useNone true
  | .rankStallTimeout _ => useNone true
  | .teamExit _ => useNone true
  | .joinDecrement _ => useNone true
  | .emberDispatch _ _ _ => useNone true
  | .emberRingMove _ => useNone true
  | .localSlotTimeout _ => useNone true
  | .emberAged _ => useNone true
  | .gridClaim _ _ _ => useNone true
  | .clusterMemberStart _ _ => useNone true
  | .engineCommandStart _ _ => useNone true
  | .engineChunk _ _ => useNone true
  | .chainCommandRead _ _ => useNone true
  | .engineCommandEnd _ _ => useNone true
  | .collectiveStep _ => useNone true
  | .collStallTimeout _ => useNone true
  | .matrixOpStart _ => useNone true
  | .matrixOpEnd _ => useNone true
  | .accordSliceArrive _ => useNone true
  | .matrixDrainEnd _ => useNone true
  | .auditReplay _ _ => useNone true
  | .uncorrectableConsumed _ _ _ _ => useNone true
  | .errorRecordLand _ _ => useNone true
  | .serviceCompletion _ _ => useNone true
  | .selfTestInterval _ => useNone true
  | .selfTestEnd _ _ => useNone true
  | .powerOn => useNone true
  | .transportNLow => useNone true
  | .fullSelfTestEnd _ => useNone true
  | .preemption => useNone true
  | .preemptionComplete => useNone true
  | .contextSwapDone => useNone true
  | .debugHalt _ => useNone true
  | .singleStep _ _ => useNone true
  | .migrationRequest _ _ _ _ => useNone true
  | .migrationStart => useNone true
  | .migrationComplete => useNone true
  | .holddownExpiry => useNone true
  | .hostMemoryAccess _ => useNone true
  | .kick _ _ _ => useNone true
  | .qctlWrite _ _ => useNone true
  | .hostCommandAccept _ => useNone true
  | .hqNop => useNone true
  | .hqLaunch => useNone true
  | .hqEmber => useNone true
  | .hqSignal => useNone true
  | .hqWait => useNone true
  | .hostCommandComplete _ => useNone true
  | .hearthRestart => useNone true
  | .hearthRestartEnd => useNone true
  | .commandLinkMessage _ _ _ => useNone true
  | .partset => useNone true
  | .ctxnew => useNone true
  | .ctxfree => useNone true
  | .ctxswap => useNone true
  | .migrate => useNone true
  | .devnum => useNone true
  | .route => useNone true
  | .attest => useNone true
  | .debugen => useNone true
  | .fwload => useNone true
  | .streport => useNone true
  | .transport => useNone true
  | .frmqry _ => useNone true
  | .registerWrite _ _ _ => useNone true
  | .linkLoss _ => useNone true
  | .linkTrained _ => useNone true
  | .portFailTimeout _ => useNone true
  | .unreachableTimeout _ => useNone true
  | .supplyDroop => useNone true
  | .droopEnd => useNone true
  | .brownNFall => useNone true
  | .quiesceComplete => useNone true
  | .brownNRise => useNone true
  | .resultArrival _ _ => useNone true
  | .unassignedCode _ _ _ => useNone true
  | .dataRegisterShift _ => useNone true
  | .powerLoss => useNone true
  | .debugResume _ => useNone true
  | .debuggerAttach _ _ => useNone true
  | .debuggerRegisterWrite _ _ _ _ => useNone true

/-- SEL, short or long, requires GE = 1 (R38, R65). -/
def isSel (i : Instr) : Bool :=
  codeOf i = some ⟨0x0E, 0, 1, .s⟩ || codeOf i = some ⟨0x18, 0x00E, 2, .s⟩

/-- The code of a long word is unassigned when the opcode map has no row for it; the map's rows of one major are the
minors listed here (R62, R64). -/
def assigned (major : BitVec 5) (minor : BitVec 10) : Bool :=
  let n := minor.toNat
  match major.toNat with
  | 0x17 => false
  | 0x18 => n < 0x026
  | 0x19 => n < 0x007 || (0x010 ≤ n && n < 0x027)
  | 0x1A => n < 0x007
  | 0x1B => n < 0x00D
  | 0x1C => n < 0x00F
  | 0x1D => n < 0x00D
  | 0x1E => n < 0x009 || (0x100 ≤ n && n < 0x109)
  | 0x1F => n < 0x00C
  | _ => true

/-- The numbers an event names lie in the ranges the device has: lanes 0 to 31, cores 0 to 191, sectors 0 to 15, host
queues and contexts 0 to 1023, ports 0 to 23 and engine queues 0 to 4. -/
def eventOk (i : Instr) : Bool :=
  match i with
  | .bypass code => !([0x01, 0x10, 0x11, 0x12, 0x20, 0x21].contains code.toNat)
  | .unassignedCode f major minor =>
    guardOk f && lenOk 1 f && !assigned major minor && decide (0x17 ≤ major.toNat) && (major != 0x17#5 || minor == 0#10)
  | .frameSpill _ lane => lane < 32
  | .frameRefill _ lane => lane < 32
  | .spillTranslationReply _ lane _ => lane < 32
  | .timedWaitExpiry _ lane => lane < 32
  | .resultArrival _ lane => lane < 32
  | .uncorrectableConsumed _ lane _ skid => lane < 32 && skid < 256
  | .debuggerRegisterWrite _ lane name _ => lane < 32 && name.toNat < 0x70
  | .issueRunCap core quarter => core < 192 && quarter < 4
  | .groupResume _ core => core < 192
  | .emberDispatch _ core _ => core < 192
  | .localSlotTimeout core => core < 192
  | .gridClaim _ core inherited => core < 192 && inherited.length ≤ 64
  | .auditReplay _ core => core < 192
  | .publish _ queue => queue < 6
  | .engineCommandStart _ queue => queue < 5
  | .engineChunk _ queue => queue < 4
  | .chainCommandRead _ queue => queue < 4
  | .engineCommandEnd _ queue => queue < 5
  | .selfTestInterval sector => sector < 16
  | .selfTestEnd sector _ => sector < 16
  | .commandLinkMessage sector _ _ => sector < 16
  | .kick queue _ _ => queue < 1024
  | .qctlWrite queue _ => queue < 1024
  | .hostCommandAccept queue => queue < 1024
  | .registerWrite offset bytes _ => (bytes == 4 || bytes == 8) && offset % bytes == 0 && offset < 0x800000
  | .linkLoss port => port < 24
  | .linkTrained port => port < 24
  | .portFailTimeout port => port < 24
  | .dataRegisterShift bits => bits ≤ 0x10000
  | _ => true

/-- The static check of an instruction: fields against the form for the 170 instructions, ranges for the rest. -/
def formOk (i : Instr) : Bool :=
  match codeOf i, fieldsOf i with
  | some c, some f => guardOk f && lenOk c.len f && fieldsOk c.kind (useOf i) f && (!isSel i || f.ge)
  | _, _ => eventOk i


end Sys2Proof.Machine
end

