-- ==== Sys2Proof/WellFormed.lean ====
section
/-! DEFINITION. Well-formed instructions: the static checks of R50, R52, R53, R55, R60 and R65 on the fields of an
instruction, and the ranges of the numbers an event names. The checks themselves stand in Machine/Forms.lean. -/

namespace Sys2Proof

/-- An instruction that the static issue checks pass. -/
abbrev Instr.WellFormed (i : Instr) : Prop := Machine.formOk i = true

end Sys2Proof
end

