-- ==== Sys2Proof/Decode.lean ====
section
/-! DEFINITION. The decoder, total on any words and bytes, and the encoder, from R47 to R49, R62 to R64 and R32. -/

namespace Sys2Proof

open Machine

/-- Why bytes are no instruction: fewer bytes than the words of the form. -/
inductive DecodeError where
  | truncated
  deriving DecidableEq, Repr

/-- The fields of a base word (R47); the other fields are zero. -/
def baseFields (w : Word) : Fields :=
  { ge := w.getLsbD 26, gp := w.extractLsb' 22 4, gs := w.getLsbD 21, d := w.extractLsb' 14 7, a := w.extractLsb' 7 7,
    b := w.extractLsb' 0 7, c := 0, la := 0, sc := 0, mod := 0, imm := 0 }

/-- The fields of a base word and an extension word (R47, R48), with the immediate word given (R49). -/
def longFields (w x imm : Word) : Fields :=
  { baseFields w with c := x.extractLsb' 15 7, la := x.extractLsb' 11 4, sc := x.extractLsb' 8 3,
                      mod := x.extractLsb' 0 8, imm := imm }

/-- The major opcode, bits [31:27] of the base word (R47). -/
def majorOf (w : Word) : BitVec 5 := w.extractLsb' 27 5

/-- The minor opcode, bits [31:22] of the extension word (R48). -/
def minorOf (x : Word) : BitVec 10 := x.extractLsb' 22 10

/-- The short NOP word (R63). -/
def nopWord : Word := 0x681C3800#32


/-- The 1-word forms by major (R62). -/
def makeShort (major : Nat) (f : Fields) : Option Instr :=
  match major with
  | 0x00 => some (.iadd f)
  | 0x01 => some (.isub f)
  | 0x02 => some (.imul f)
  | 0x03 => some (.imulh f)
  | 0x04 => some (.and f)
  | 0x05 => some (.or f)
  | 0x06 => some (.xor f)
  | 0x07 => some (.andn f)
  | 0x08 => some (.shl f)
  | 0x09 => some (.shr f)
  | 0x0A => some (.shra f)
  | 0x0B => some (.imin f)
  | 0x0C => some (.imax f)
  | 0x0D => some (.mov f)
  | 0x0E => some (.sel f)
  | 0x0F => some (.popc f)
  | 0x10 => some (.fadd f)
  | 0x11 => some (.fsub f)
  | 0x12 => some (.fmul f)
  | 0x13 => some (.fmin f)
  | 0x14 => some (.fmax f)
  | 0x15 => some (.hadd2 f)
  | 0x16 => some (.hmul2 f)
  | _ => none

/-- The long forms of major 0x18 by minor (R64). -/
def make18 (minor : Nat) (f : Fields) : Option Instr :=
  match minor with
  | 0x000 => some (.iaddLong f)
  | 0x001 => some (.isubLong f)
  | 0x002 => some (.imulLong f)
  | 0x003 => some (.imulhLong f)
  | 0x004 => some (.andLong f)
  | 0x005 => some (.orLong f)
  | 0x006 => some (.xorLong f)
  | 0x007 => some (.andnLong f)
  | 0x008 => some (.shlLong f)
  | 0x009 => some (.shrLong f)
  | 0x00A => some (.shraLong f)
  | 0x00B => some (.iminLong f)
  | 0x00C => some (.imaxLong f)
  | 0x00D => some (.movLong f)
  | 0x00E => some (.selLong f)
  | 0x00F => some (.popcLong f)
  | 0x010 => some (.iaddi f)
  | 0x011 => some (.movi f)
  | 0x012 => some (.imad f)
  | 0x013 => some (.imadw f)
  | 0x014 => some (.iaddc f)
  | 0x015 => some (.isubb f)
  | 0x016 => some (.ineg f)
  | 0x017 => some (.iabs f)
  | 0x018 => some (.rot f)
  | 0x019 => some (.clz f)
  | 0x01A => some (.brev f)
  | 0x01B => some (.bfe f)
  | 0x01C => some (.bfi f)
  | 0x01D => some (.lea f)
  | 0x01E => some (.icmp f)
  | 0x01F => some (.icmpi f)
  | 0x020 => some (.pfun f)
  | 0x021 => some (.pmov f)
  | 0x022 => some (.vote f)
  | 0x023 => some (.lxch f)
  | 0x024 => some (.bcast f)
  | 0x025 => some (.redg f)
  | _ => none

/-- The long forms of major 0x19 by minor (R64). -/
def make19 (minor : Nat) (f : Fields) : Option Instr :=
  match minor with
  | 0x000 => some (.faddLong f)
  | 0x001 => some (.fsubLong f)
  | 0x002 => some (.fmulLong f)
  | 0x003 => some (.fminLong f)
  | 0x004 => some (.fmaxLong f)
  | 0x005 => some (.hadd2Long f)
  | 0x006 => some (.hmul2Long f)
  | 0x010 => some (.ffma f)
  | 0x011 => some (.fcmp f)
  | 0x012 => some (.frcp f)
  | 0x013 => some (.fsqrt f)
  | 0x014 => some (.frsq f)
  | 0x015 => some (.fex2 f)
  | 0x016 => some (.flg2 f)
  | 0x017 => some (.fsinp f)
  | 0x018 => some (.fcosp f)
  | 0x019 => some (.hfma2 f)
  | 0x01A => some (.bfma2 f)
  | 0x01B => some (.dadd f)
  | 0x01C => some (.dmul f)
  | 0x01D => some (.dfma f)
  | 0x01E => some (.dcmp f)
  | 0x01F => some (.cvti f)
  | 0x020 => some (.cvtf f)
  | 0x021 => some (.cvtw f)
  | 0x022 => some (.qcvt f)
  | 0x023 => some (.dqcvt f)
  | 0x024 => some (.fredg f)
  | 0x025 => some (.fmode f)
  | 0x026 => some (.fclass f)
  | _ => none

/-- The long forms of major 0x1A by minor (R64). -/
def make1A (minor : Nat) (f : Fields) : Option Instr :=
  match minor with
  | 0x000 => some (.ld f)
  | 0x001 => some (.st f)
  | 0x002 => some (.phase f)
  | 0x003 => some (.fence f)
  | 0x004 => some (.invv f)
  | 0x005 => some (.pref f)
  | 0x006 => some (.cvta f)
  | _ => none

/-- The long forms of major 0x1B by minor (R64). -/
def make1B (minor : Nat) (f : Fields) : Option Instr :=
  match minor with
  | 0x000 => some (.lds f)
  | 0x001 => some (.sts f)
  | 0x002 => some (.ldsr f)
  | 0x003 => some (.stsr f)
  | 0x004 => some (.bdecl f)
  | 0x005 => some (.bset f)
  | 0x006 => some (.bqry f)
  | 0x007 => some (.tlook f)
  | 0x008 => some (.tinst f)
  | 0x009 => some (.tdrop f)
  | 0x00A => some (.atom f)
  | 0x00B => some (.atcas f)
  | 0x00C => some (.red f)
  | _ => none

/-- The long forms of major 0x1C by minor (R64). -/
def make1C (minor : Nat) (f : Fields) : Option Instr :=
  match minor with
  | 0x000 => some (.bra f)
  | 0x001 => some (.brx f)
  | 0x002 => some (.call f)
  | 0x003 => some (.callx f)
  | 0x004 => some (.ret f)
  | 0x005 => some (.enter f)
  | 0x006 => some (.win f)
  | 0x007 => some (.exit f)
  | 0x008 => some (.join f)
  | 0x009 => some (.leave f)
  | 0x00A => some (.wait f)
  | 0x00B => some (.nopLong f)
  | 0x00C => some (.fdepth f)
  | 0x00D => some (.fspill f)
  | 0x00E => some (.ffill f)
  | _ => none

/-- The long forms of major 0x1D by minor (R64). -/
def make1D (minor : Nat) (f : Fields) : Option Instr :=
  match minor with
  | 0x000 => some (.binit f)
  | 0x001 => some (.barv f)
  | 0x002 => some (.bwait f)
  | 0x003 => some (.btest f)
  | 0x004 => some (.cbarv f)
  | 0x005 => some (.cbwait f)
  | 0x006 => some (.enq f)
  | 0x007 => some (.putq f)
  | 0x008 => some (.signal f)
  | 0x009 => some (.role f)
  | 0x00A => some (.yield f)
  | 0x00B => some (.claim f)
  | 0x00C => some (.jdec f)
  | _ => none

/-- The long forms of major 0x1E by minor (R64). -/
def make1E (minor : Nat) (f : Fields) : Option Instr :=
  match minor with
  | 0x000 => some (.xcopy f)
  | 0x001 => some (.xgath f)
  | 0x002 => some (.xchain f)
  | 0x003 => some (.xseq f)
  | 0x004 => some (.xwait f)
  | 0x005 => some (.xpub f)
  | 0x006 => some (.xcoll f)
  | 0x007 => some (.xstop f)
  | 0x008 => some (.xcrc f)
  | 0x100 => some (.mma f)
  | 0x101 => some (.mzero f)
  | 0x102 => some (.mloada f)
  | 0x103 => some (.mdrain f)
  | 0x104 => some (.mwait f)
  | 0x105 => some (.mseq f)
  | 0x106 => some (.apref f)
  | 0x107 => some (.ainv f)
  | 0x108 => some (.aqry f)
  | _ => none

/-- The long forms of major 0x1F by minor (R64). -/
def make1F (minor : Nat) (f : Fields) : Option Instr :=
  match minor with
  | 0x000 => some (.trap f)
  | 0x001 => some (.svc f)
  | 0x002 => some (.rett f)
  | 0x003 => some (.mfc f)
  | 0x004 => some (.mtc f)
  | 0x005 => some (.eraise f)
  | 0x006 => some (.brk f)
  | 0x007 => some (.audit f)
  | 0x008 => some (.stest f)
  | 0x009 => some (.tlbgen f)
  | 0x00A => some (.lsweep f)
  | 0x00B => some (.waitsig f)
  | _ => none

/-- The long forms by major and minor (R64). -/
def makeLong (major minor : Nat) (f : Fields) : Option Instr :=
  match major with
  | 0x18 => make18 minor f
  | 0x19 => make19 minor f
  | 0x1A => make1A minor f
  | 0x1B => make1B minor f
  | 0x1C => make1C minor f
  | 0x1D => make1D minor f
  | 0x1E => make1E minor f
  | 0x1F => make1F minor f
  | _ => none

/-- The length in words of a form that the opcode map gives 3 words (R64); every other long form has 2. -/
def hasImmediate (major minor : Nat) : Bool :=
  match major with
  | 0x18 => [0x010, 0x011, 0x01F].contains minor
  | 0x1A => [0x000, 0x001, 0x005].contains minor
  | 0x1B => [0x000, 0x001, 0x002, 0x003, 0x00A, 0x00B, 0x00C].contains minor
  | 0x1C => [0x000, 0x002].contains minor
  | 0x1D => [0x000, 0x001, 0x002, 0x003, 0x007, 0x00C].contains minor
  | 0x1E => [0x000, 0x001, 0x002, 0x006, 0x100, 0x102, 0x103, 0x106].contains minor
  | 0x1F => [0x003, 0x004, 0x00A].contains minor
  | _ => false

/-- The words of the form that starts with these two words. -/
def formLength (w x : Word) : Nat :=
  if (majorOf w).toNat ≤ 0x17 then 1
  else if hasImmediate (majorOf w).toNat (minorOf x).toNat then 3 else 2

/-- The instruction of a base word, an extension word and an immediate word; words beyond the form are not read.
Every word has an outcome: what the opcode map does not assign is UNASSIGNED_CODE (R5, R62, R64, R411). -/
def decodeWords (w x imm : Word) : Instr :=
  let major := majorOf w
  if w = nopWord then .nop
  else if major.toNat ≤ 0x16 then (makeShort major.toNat (baseFields w)).getD (.unassignedCode (baseFields w) major 0)
  else if major = 0x17#5 then .unassignedCode (baseFields w) major 0
  else
    let imm' := if hasImmediate major.toNat (minorOf x).toNat then imm else 0
    (makeLong major.toNat (minorOf x).toNat (longFields w x imm')).getD
      (.unassignedCode (baseFields w) major (minorOf x))

/-- A little-endian word of four bytes (R3). -/
def wordOfBytes (b0 b1 b2 b3 : Byte) : Word := b3 ++ b2 ++ b1 ++ b0

/-- The bytes of a word, lowest address first (R3). -/
def bytesOfWord (w : Word) : List Byte :=
  [w.extractLsb' 0 8, w.extractLsb' 8 8, w.extractLsb' 16 8, w.extractLsb' 24 8]

/-- The first word of a byte list, with the rest. -/
def takeWord (bs : List Byte) : Option (Word × List Byte) :=
  match bs with
  | b0 :: b1 :: b2 :: b3 :: rest => some (wordOfBytes b0 b1 b2 b3, rest)
  | _ => none

/-- The decoder on bytes: the instruction at the head of the list and the bytes after it, or the reason there is none. -/
def decodeBytes (bs : List Byte) : Except DecodeError (Instr × List Byte) :=
  match takeWord bs with
  | none => .error .truncated
  | some (w, rest) =>
    if (majorOf w).toNat ≤ 0x17 then .ok (decodeWords w 0 0, rest)
    else
      match takeWord rest with
      | none => .error .truncated
      | some (x, rest') =>
        if hasImmediate (majorOf w).toNat (minorOf x).toNat then
          match takeWord rest' with
          | none => .error .truncated
          | some (imm, rest'') => .ok (decodeWords w x imm, rest'')
        else .ok (decodeWords w x 0, rest')

/-- The test-port instruction of a byte (R32): every code not listed acts as BYPASS. -/
def decodeTap (code : BitVec 8) : Instr :=
  match code.toNat with
  | 0x01 => .tapIdcode
  | 0x10 => .tapFreeze
  | 0x11 => .tapRelease
  | 0x12 => .tapStatus
  | 0x20 => .scansel
  | 0x21 => .scanrd
  | _ => .bypass code

/-- A base word from its major opcode and fields (R47). -/
def baseWord (major : BitVec 5) (f : Fields) : Word :=
  major ++ BitVec.ofBool f.ge ++ f.gp ++ BitVec.ofBool f.gs ++ f.d ++ f.a ++ f.b

/-- An extension word from its minor opcode and fields (R48). -/
def extensionWord (minor : BitVec 10) (f : Fields) : Word := minor ++ f.c ++ f.la ++ f.sc ++ f.mod

/-- The words of an instruction; an event and a test-port instruction have none (log 47). -/
def encode (i : Instr) : List Word :=
  match i with
  | .nop => [nopWord]
  | .unassignedCode f major minor =>
    if major = 0x17#5 then [baseWord major f] else [baseWord major f, minor ++ 0#22]
  | i =>
    match codeOf i, fieldsOf i with
    | some c, some f =>
      if c.len = 1 then [baseWord c.major f]
      else if c.len = 2 then [baseWord c.major f, extensionWord c.minor f]
      else [baseWord c.major f, extensionWord c.minor f, f.imm]
    | _, _ => []

/-- The byte of a test-port instruction (R32). -/
def encodeTap (i : Instr) : Option (BitVec 8) :=
  match i with
  | .tapIdcode => some 0x01
  | .tapFreeze => some 0x10
  | .tapRelease => some 0x11
  | .tapStatus => some 0x12
  | .scansel => some 0x20
  | .scanrd => some 0x21
  | .bypass code => some code
  | _ => none

/-- The words of a number: bits 31 to 0 are the first word. -/
def tableWords (w : Nat) : List Word :=
  [BitVec.ofNat 32 w, BitVec.ofNat 32 (w / 2 ^ 32), BitVec.ofNat 32 (w / 2 ^ 64)]

/-- The instruction the decoder reads from a row's bits: a byte is a test-port instruction, 32 bits or more are the words
of an instruction laid out as the device stores them (log 47). -/
def decodeTableWord (nbits w : Nat) : Option Instr :=
  if nbits = 8 then some (decodeTap (BitVec.ofNat 8 w))
  else if nbits < 32 then none
  else
    match decodeBytes ((tableWords (w % 2 ^ nbits)).flatMap bytesOfWord) with
    | .ok (i, _) => some i
    | .error _ => none

end Sys2Proof
end

