-- ==== Sys2Proof/Machine/Sparse.lean ====
section
/-! DEFINITION. Data held by number: pairs of a key and a value in one canonical form, keys strictly rising, no entry equal
to what an unlisted key reads as. -/

namespace Sys2Proof.Machine

/-- A map from numbers to values, with a default for what is not listed. -/
abbrev Sparse (α : Type) := List (Nat × α)

/-- The value at a key; dflt where the key is not listed. -/
def sget {α : Type} (dflt : α) (m : Sparse α) (k : Nat) : α :=
  match m with
  | [] => dflt
  | (k', v) :: r => if k' = k then v else sget dflt r k

/-- Insertion of an entry in front of the first larger key. -/
def sinsert {α : Type} (m : Sparse α) (k : Nat) (v : α) : Sparse α :=
  match m with
  | [] => [(k, v)]
  | (k', v') :: r => if k < k' then (k, v) :: (k', v') :: r else (k', v') :: sinsert r k v

/-- Removal of a key. -/
def sdrop {α : Type} (m : Sparse α) (k : Nat) : Sparse α := m.filter fun e => !(e.1 == k)

/-- Writing a value at a key; writing the default removes the entry. -/
def sput {α : Type} [DecidableEq α] (dflt : α) (m : Sparse α) (k : Nat) (v : α) : Sparse α :=
  if v = dflt then sdrop m k else sinsert (sdrop m k) k v

/-- The first key of a map lies above k. -/
def above {α : Type} (k : Nat) (m : Sparse α) : Bool :=
  match m with
  | [] => true
  | (k', _) :: _ => decide (k < k')

/-- The canonical form: keys strictly rising, no entry equal to the default. -/
def swf {α : Type} [DecidableEq α] (dflt : α) (m : Sparse α) : Bool :=
  match m with
  | [] => true
  | (k, v) :: r => !decide (v = dflt) && above k r && swf dflt r

/-- Writing a list of entries, in order. -/
def sputAll {α : Type} [DecidableEq α] (dflt : α) (m : Sparse α) (es : List (Nat × α)) : Sparse α :=
  es.foldl (fun m e => sput dflt m e.1 e.2) m

end Sys2Proof.Machine
end

