-- ==== Sys2Proof/Machine/State.lean ====
section
/-! DEFINITION. The state of the machine, plain data: every piece of state the spec names, and the model's own fields
(agenda, turn, step count and the like, log 3). State.reset is the machine right after power-on reset. -/

namespace Sys2Proof.Machine

/-- Why the machine stops. Every error of an instruction is an error record, a status or a trap, and the step answers a next
state. -/
inductive Fault where
  /-- Raised by HOST_MEMORY_ACCESS to an address that the address map (R383) gives to no memory of the device: the spec says
  that nothing stands there. Safe. -/
  | noSuchAddress
  deriving DecidableEq, Repr

/-- Why the machine gives an instruction no meaning. -/
inductive Refusal where
  /-- Raised by exec for an instruction that has no meaning yet. Safe: nothing can be proved of it. -/
  | notModelled (mnemonic : String)
  deriving DecidableEq, Repr

/-! ## Threads -/

/-- A fetch line as a thread holds it (R66, R70): the address of its first byte and its 32 words. -/
structure Line where
  base : DWord
  words : List Word
  deriving DecidableEq, Repr

/-- How a thread stands to the line of its program counter (R67). -/
inductive Fetch where
  /-- The line was entered and passed its checks. -/
  | held (line : Line)
  /-- The line is yet to be entered, by fall-through from the instruction at this address. -/
  | fallThrough (source : DWord)
  /-- The line is yet to be entered, by an ember's first instruction or by a trap entry. -/
  | entry
  /-- The line is yet to be entered, by a resumption from a save area. -/
  | resume
  deriving DecidableEq, Repr

/-- A destination of an instruction, after name resolution (R51): an absolute register of the lane, a scalar register of
the group, a predicate of the lane. -/
inductive Place where
  | ring (x : Nat)
  | scalar (i : Nat)
  | pred (k : Nat)
  deriving DecidableEq, Repr

/-- One 32-bit result (a predicate takes bit 0) and where it goes. -/
structure Write where
  place : Place
  value : Word
  deriving DecidableEq, Repr

/-- The outstanding results of one long-latency instruction of a thread (R57): its destinations, the results known so far,
the accesses it still waits for, how many more instructions the thread may issue before they arrive, the lane of the
issue whose scalar result this thread waits for as well, whether one counter holds the requests of all its lanes (R193), and,
where a conversion has saturated, whether its slot is armed (R160). -/
structure Pending where
  id : Nat
  places : List Place
  results : List Write
  waits : Nat
  left : Nat
  lead : Option Nat := none
  joint : Bool := false
  sat : Option Bool := none
  deriving DecidableEq, Repr

/-- A fault as an instruction raises it (R10, R330, R337): the kind code of R339 and the fields of its record. -/
structure FaultInfo where
  kind : Nat
  addr : DWord := 0
  info : Word := 0
  aux : DWord := 0
  aux2 : DWord := 0
  deriving DecidableEq, Repr

/-- What an entry of the matrix queue does (R292). -/
inductive MatrixWork where
  | multiply (block : List Byte)
  | zero (tile : Nat)
  | load (tile : Nat) (address : DWord)
  | drain (tile : Nat) (block : List Byte)
  deriving DecidableEq, Repr

/-- What a submission enters into a queue: a command of an engine queue, or an operation of the matrix queue with the buffers it
holds, whether its operands were full streams (R313), and the destination and least scope of FENCE of an add drain (R309); joined
stands for the further lanes of an issue that submits once. -/
inductive Submit where
  | command (queue : Nat) (chain : Bool) (bytes : List Byte) (next : DWord)
  | matrix (work : MatrixWork) (numbered : Bool) (holds : List (Nat × Nat)) (full : Bool) (adds : Option (DWord × Nat))
  | joined
  deriving DecidableEq, Repr

/-- A checked submission that waits for room (R280, R315): the step and the outstanding result of its instruction, the length of
that instruction in words, the destinations of the number, the lane that supplies them where they are s registers. -/
structure Submission where
  issued : Nat
  pid : Nat
  len : Nat
  dests : List Place
  lead : Option Nat := none
  work : Submit
  deriving DecidableEq, Repr

/-- What a waiting thread waits for (R79). The names that end a wait by themselves move the program counter past the
instruction; spill, refill, scalar, slot, port, stores, home and member make the thread ready to execute its instruction again. -/
inductive Wait where
  /-- WAIT on mask register k (R114). -/
  | mask (k : Nat)
  /-- ENTER waits for the required spill: the new top (R96). -/
  | spill (top : Nat)
  /-- A trap entry waits for room for the handler's frame: the fault, the resume point, the length of its instruction (R95,
  R330). -/
  | handler (fault : FaultInfo) (resume : DWord) (words : Nat)
  /-- RET or RETT waits for a refill: the lowest register and the lowest link entry it needs (R97, R331). -/
  | refill (base link : Nat)
  /-- FFILL waits for its refills: q frames below the current one are to be resident (R118). -/
  | fill (q : Nat)
  /-- An instruction waits for the latest write of s register i, a result still on its way to another sub-group (R120). -/
  | scalar (i : Nat)
  /-- SVC waits for a free service slot (R352). -/
  | slot
  /-- A submission, checked, waits for a full engine queue, 0 to 4, or for the matrix queue, 5 (R280, R315). -/
  | room (queue : Nat) (submission : Submission)
  /-- A scratchpad instruction waits for the scratchpad port of its issue quarter (R192). -/
  | port
  /-- An access waits for the thread's earlier stores to enter (R174, R181). -/
  | stores
  /-- An access waits for its home to be ready (R37). -/
  | home (place : Nat)
  /-- A load waits for a memory-side slice port, to fill the line of a place (R21, R24). -/
  | turn (place : Nat)
  /-- An access waits for a cluster member to start (R206). -/
  | member (cluster rank : Nat)
  /-- BWAIT on a barrier word of the team's slice, with the parity (R250). -/
  | barrier (offset : Nat) (parity : Bool)
  /-- CBWAIT on cluster barrier c, with .acq or not (R228, R251). -/
  | cluster (c : Nat) (acquire : Bool)
  /-- PHASE or YIELD, waiting for the commit, with its scope code (R185, R256). -/
  | commit (scope : Nat) (yields cond : Bool)
  /-- The commit took place; waiting until the units are applied, on this device or everywhere (R185). -/
  | applied (units : List Nat) (everywhere : Bool)
  /-- XWAIT on an engine queue (R282). -/
  | engine (queue : Nat) (target : Nat)
  /-- MWAIT (R318). -/
  | matrix (target : Nat)
  /-- WAITSIG on the signal word at a virtual address (R376). -/
  | signal (va : DWord) (target : Nat) (seen : Option Nat)
  /-- FENCE waits for accesses (R186), with .acq or not. -/
  | fence (ops : List Nat) (acquire : Bool)
  deriving DecidableEq, Repr

/-- Why a thread is parked (R79). -/
inductive Park where
  /-- As fatal (R332, R333); never resumed. -/
  | fatal
  /-- On a page that is not present, with the virtual page number of 4 KiB it waits for (R168). -/
  | page (va : DWord)
  /-- On a service call, in the slot (R352). -/
  | service (slot : Nat)
  deriving DecidableEq, Repr

/-- The state of a thread (R79). A stalled thread waits for a lookahead window or, with drain, for every outstanding
result. -/
inductive Status where
  | ready
  | stalled (drain : Bool)
  | waiting (w : Wait)
  | parked (p : Park)
  | exited
  deriving DecidableEq, Repr

/-- The limit of a timed wait (R226): the predicate it sets, the cycle count at which it expires, and whether the phase it waits for
completed in time while the thread's own accesses still kept it. -/
structure Timer where
  pred : Nat
  deadline : Nat
  met : Bool := false
  deriving DecidableEq, Repr

/-- A translation as a last-page register or a TLB holds it (R166). -/
structure PageEntry where
  asid : Nat
  generation : Nat
  page : Nat
  size : Nat
  entry : DWord
  deriving DecidableEq, Repr

/-- The arrival of a thread on one cluster barrier (R227, R228): flag, parity, whether it has arrived since its last CBWAIT, and
the step in which it arrived. -/
structure Arrival where
  flag : Bool := false
  parity : Bool := false
  since : Bool := false
  step : Nat := 0
  deriving DecidableEq, Repr

/-- One lane of a group: a thread (R20, R79, R87, R329). ring holds the rows of the lane's register ring, by row number; tpcSet
and tnpcSet say that MTC has written the resume address since the trap (R331); arenaFault marks a spill that met a bad page
(R101); spillTo is the request of FSPILL: the register below which the frames are to be spilled (R117); released the frame whose
registers a RET had released when the handler was entered (R263), background a background refill under way (R97), filling the
frame that a waiting RET or RETT has had refilled and is about to use (R108), faulting a fault that waits for the outstanding
results (R59), with the length of its instruction and the lanes that fault with it (R338); linkLo is the lowest depth whose link
entry is resident; stale is the step from which on any value of a scratchpad word may still be loaded, after a CBWAIT without
.acq (R228). -/
structure Lane where
  status : Status := .exited
  stamp : Nat := 0
  pc : DWord := 0
  fetch : Fetch := .entry
  fp : Nat := 0
  n : Nat := 0
  k : Nat := 0
  depth : Nat := 0
  lo : Nat := 0
  hi : Nat := 16
  links : Sparse DWord := []
  linkLo : Nat := 0
  ring : Sparse Word := []
  preds : BitVec 16 := 0
  cnan : Bool := false
  foz : Bool := false
  fiz : Bool := false
  rm : BitVec 2 := 0
  tl : Bool := false
  kind : BitVec 8 := 0
  tinfo : Word := 0
  taddr : DWord := 0
  tpc : DWord := 0
  tnpc : DWord := 0
  tframe : DWord := 0
  tpcSet : Bool := false
  tnpcSet : Bool := false
  lastPage : Option PageEntry := none
  arrivals : Sparse Arrival := []
  stale : Option Nat := none
  pend : List Pending := []
  timer : Option Timer := none
  spillTo : Option Nat := none
  released : Option Nat := none
  spillBlocked : Bool := false
  arenaFault : Option DWord := none
  background : Bool := false
  filling : Bool := false
  faulting : Option (FaultInfo × Nat × LaneMask) := none
  deriving DecidableEq, Repr

/-- A group (R20, R84, R92, R93, R345, R350). current and frozen are the bits of the arena lines, by line number;
yielding marks a group that YIELD gives up (R256), saveFailed the addresses at which saves have failed (R103), freed one whose pool
areas have gone back to the pool (R398). -/
structure Group where
  id : Nat
  team : Nat
  grp : Nat
  role : Nat
  budget : Nat
  kmax : Nat
  core : Nat
  quarter : Nat
  slot : Nat
  resident : Bool := true
  ended : Bool := false
  age : Nat := 0
  arena : DWord := 0
  phaseArena : DWord := 0
  saveArea : DWord := 0
  current : Sparse Bool := []
  frozen : Sparse Bool := []
  spwm : Nat := 3
  rfwm : Nat := 2
  masks : Sparse Word := []
  scalars : Sparse Word := []
  sat : Bool := false
  sata : Bool := false
  yielding : Bool := false
  saveFailed : List DWord := []
  freed : Bool := false
  halted : Bool := false
  lanes : List Lane := []
  deriving DecidableEq, Repr

/-! ## Accesses, engines and matrix operations -/

/-- Where a scratchpad access goes: a team and a byte offset of its slice (R191, R205), and whether it goes there as to a member
of the cluster, the own team among them (R205, R206). -/
structure Spot where
  team : Nat
  offset : Nat
  remote : Bool := false
  deriving DecidableEq, Repr

/-- What one lane takes from a scratchpad request (R192): the lane, the bytes of the word it reads, where they go, and the step
since which any value of them may be returned (R228). -/
structure Reading where
  lane : Nat
  inner : Nat
  bytes : Nat
  signed : Bool
  dests : List Place
  stale : Option Nat := none
  deriving DecidableEq, Repr

/-- An access that has issued and is yet to be performed (R172 Enter and Perform, R194, R224, R228). place is a location of
memory, see Ops. -/
inductive Access where
  /-- A plain store to enter the store buffer: locations and bytes, the virtual address for records. -/
  | enter (bytes : List (Nat × Byte))
  /-- A .live load into the destinations, sign-extended or not: for each byte a free value (R98), or none where R173 gives it. -/
  | live (place : Nat) (known : List (Option Byte)) (signed : Bool) (dests : List Place)
  /-- A global ATOM, RED or ATCAS: operation code (16 for compare and swap), control bits, width, operands. -/
  | atomic (place op control : Nat) (wide : Bool) (operand swap : DWord) (dests : List Place)
  /-- A ranked contribution to a pending tile: rank, count, and the bytes it covers with their values. -/
  | ranked (ctx place op control width rank count : Nat) (bytes : List (Nat × Byte))
  /-- SIGNAL (R254). -/
  | signal (place : Nat) (value : DWord)
  /-- JDEC (R258): place of the counter, its virtual address, the amount. -/
  | joinDec (place : Nat) (va : DWord) (amount : Word) (dests : List Place)
  /-- A read request for one 4-byte word of a slice, with what the lanes of its instruction take from it (R192). -/
  | read (spot : Spot) (readings : List Reading)
  /-- A write request for one 4-byte word of a slice: bytes by slice offset, those of higher lanes after those of lower ones
  (R192, R194). -/
  | write (spot : Spot) (bytes : List (Nat × Byte))
  /-- The atomic of one lane on a word or a pair of words of a slice (R207). -/
  | localAtomic (spot : Spot) (op control : Nat) (wide : Bool) (operand swap : DWord) (dests : List Place)
  /-- BINIT writes a barrier word. -/
  | barrierInit (spot : Spot) (count : Nat)
  /-- BARV arrives on a barrier word with a weight; buffer and offset within it for the record. -/
  | barrierArrive (spot : Spot) (weight buffer inner : Nat)
  /-- BTEST reads the phase bit into a predicate. -/
  | barrierTest (spot : Spot) (parity : Bool) (dests : List Place)
  /-- CBARV arrives on cluster barrier c; release waits for every scratchpad access of the thread. -/
  | clusterArrive (c : Nat) (release : Bool)
  /-- TLBGEN answers once older translations are done with (R374): the accesses it waits for. -/
  | generation (ops : List Nat) (value : Word) (dests : List Place)
  /-- XCRC behind the commands of a copy queue (R285). -/
  | crcRead (queue after : Nat) (setTo : Option Word) (final : Bool) (dests : List Place)
  /-- A request to a device without a usable port; the thread waits at its instruction (R405). -/
  | blocked (place : Nat)
  /-- The unit of an XPUB, for FENCE, and whether its scope asks for every device (R283). -/
  | published (unit : Nat) (everywhere : Bool)
  /-- A drain in an add mode, for FENCE (R309): the operation, and the least scope of FENCE that waits for it. -/
  | drainAdd (uid scope : Nat)
  /-- AINV (R320): 0 every slice, 1 those of a table, 2 those of an accord, dropped once these operations have ended. -/
  | accordDrop (mode : Nat) (tbase : DWord) (accord : Nat) (uids : List Nat)
  /-- PUTQ's ember, enqueued once its unit is applied (R253): unit, sector, instance, and the payload's view lines. -/
  | putEmber (unit sector inst : Nat) (payload : List Nat)
  deriving DecidableEq, Repr

/-- A pending access: the thread that issued it and the further lanes of its instruction that it serves (R192), the outstanding
result it feeds, the step and the real time of its issue, since which step it waits for a shadow line (R181), its class on
arrival in the arbitration of R21 to R27, how often it has moved up, and the cycle since which it waits (R22). -/
structure Op where
  id : Nat
  gid : Nat
  lane : Nat
  team : Nat
  others : List Nat := []
  pend : Option Nat
  va : DWord
  pc : DWord
  issued : Nat
  since : Nat := 0
  waiting : Option Nat := none
  cls : Nat := 2
  promoted : Nat := 0
  waited : Nat := 0
  access : Access
  deriving DecidableEq, Repr

/-- One 128-byte line of a view (R171): its 128 bytes and its fill time. -/
structure ViewLine where
  bytes : List Byte
  time : Nat
  deriving DecidableEq, Repr

/-- A unit part (R172): unit number, the team for which it was formed, the device it goes to (0 for this one, else number + 1),
its bytes, and the shadow lines that its Apply frees (R181). -/
structure Part where
  unit : Nat
  team : Nat
  bytes : List (Nat × Byte)
  device : Nat
  lines : List Nat := []
  away : Option Nat := none
  queued : Nat := 0
  deriving DecidableEq, Repr

/-- A command of an engine queue (R265, R267, R277). A chain command is read from memory at its turn (R281); next is the address
of the command to be read next; done is the number of bytes moved, and count the commands of the chain so far. holds are the
buffers it holds, by team and number; publishing is 0 once its results are to be published, then their unit; kept are the
unpublished shadow lines of the chain's earlier commands, which are the chain's too (R265); away is the place of another device
that it cannot reach, and the real time since when (R405). -/
structure Command where
  number : Nat
  chain : Bool
  collective : Bool
  gid : Nat
  lane : Nat
  bytes : List Byte
  next : DWord
  started : Bool := false
  done : Nat := 0
  count : Nat := 0
  moved : Bool := false
  holds : List (Nat × Nat) := []
  publishing : Option Nat := none
  shadow : List (Nat × Byte) := []
  kept : List Nat := []
  lastProgress : Nat := 0
  away : Option (Nat × Nat) := none
  deriving DecidableEq, Repr

/-- One engine queue of a team, or its matrix queue as far as it counts as one (R265, R292, R294). shadow holds the unpublished
bytes of the commands that have ended, lines the 256-byte shadow lines that hold them, one for each command (R270), touched the
128-byte lines of units published (R276). -/
structure Engine where
  seqa : Nat := 0
  seqc : Nat := 0
  stat : BitVec 4 := 0
  crcr : Word := 0xFFFFFFFF#32
  queue : List Command := []
  shadow : List (Nat × Byte) := []
  lines : List Nat := []
  touched : List (Nat × Nat) := []
  deriving DecidableEq, Repr

/-- A slice of an accord cache (R304): its tag, its 16 KiB, its last use, and whether AINV has dropped it while an operation was
using it (R320). -/
structure Slice where
  ctx : Nat
  tbase : DWord
  accord : Nat
  origin : Nat
  bytes : Sparse Byte
  used : Nat
  dropped : Bool := false
  deriving DecidableEq, Repr

/-- One entry of the matrix queue: an identity, its number (0 for MZERO), the issuing thread, the accesses of that thread it
waits for (R297), its progress, the step in which it started (R297), the cycle of its last progress (R22), whether its accord
state is at hand (R302), the rows of the replay mask (R305), the slices it waits for, as accord and origin, and those it has
(R304), whether its A and B buffers were full streams at issue (R313), the audit mark (R372), the audit slot it writes (R355),
and the place of another device that it cannot reach, with the real time since when (R405). -/
structure MatrixEntry where
  uid : Nat
  number : Nat
  work : MatrixWork
  gid : Nat
  lane : Nat
  after : List Nat
  started : Bool := false
  begun : Nat := 0
  progress : Nat := 0
  opened : Bool := false
  got : List Slice := []
  full : Bool := false
  replay : BitVec 128 := 0
  missing : List (Nat × Nat) := []
  marked : Bool := false
  sampled : Option Nat := none
  done : Nat := 0
  holds : List (Nat × Nat) := []
  publishing : Option Nat := none
  shadow : List (Nat × Byte) := []
  away : Option (Nat × Nat) := none
  /-- Whether the last piece of a drain has been written or sent off. -/
  sent : Bool := false
  deriving DecidableEq, Repr

/-- An open accord state of a tile (R302): what is latched, and the adapter accumulators by row * 64 + column. -/
structure Accord where
  m : Nat
  n : Nat
  ids : List Nat
  tbase : DWord
  nids : Nat
  astride : Nat
  qoff : Nat
  kd : Nat
  nd : Nat
  norg : Nat
  rank : Nat
  alpha : Word
  u : Sparse Word := []
  deriving DecidableEq, Repr

/-- The matrix queue of a team (R292), the tiles by tile * 32768 + row * 256 + column (R291), the accord states. -/
structure Matrix where
  seqa : Nat := 0
  seqc : Nat := 0
  stat : BitVec 4 := 0
  repl : Word := 0
  miss : Word := 0
  queue : List MatrixEntry := []
  shadow : List (Nat × Byte) := []
  lines : List Nat := []
  touched : List (Nat × Nat) := []
  tiles : Sparse Word := []
  accords : Sparse (Option Accord) := []
  deriving DecidableEq, Repr

/-! ## Launches, embers, teams, clusters and contexts -/

/-- A role entry of a launch record (R393). -/
structure Role where
  entry : DWord
  budget : Nat
  groups : Nat
  kmax : Nat
  tiles : Nat
  kind : Nat
  deriving DecidableEq, Repr

/-- A launch record (R392). -/
structure Record where
  gx : Nat := 1
  gy : Nat := 1
  gz : Nat := 1
  cx : Nat := 1
  cy : Nat := 1
  pri : Nat := 0
  rst : Bool := false
  aud : Bool := false
  priv : Bool := false
  pipe : Bool := false
  slice : Nat := 1
  sba : Nat := 4
  ringCtl : Word := 0
  ringOff : Word := 0
  ringTh : Word := 0
  roles : List Role := []
  slots : List DWord := []
  buffers : List DWord := []
  deriving DecidableEq, Repr

/-- A grid or an ember with its central counter (R240): the record, whether the teams come from a grid launch, the
argument, the next index and the total, the sector and the host queue entry it belongs to. An ember has its 64 bytes. -/
structure Instance where
  id : Nat
  ctx : Nat
  record : Record
  grid : Bool
  ember : List Byte
  partition : Nat
  next : Nat := 0
  total : Nat
  journal : Option Nat := none
  deriving DecidableEq, Repr

/-- What an ember in a queue is for: new teams of an instance, the resumption of a saved group, or the relaunch of a
rolled-back team (R230, R346). -/
inductive EmberKind where
  | fresh (inst : Nat)
  | resume (gid : Nat)
  | relaunch (team : Nat)
  deriving DecidableEq, Repr

/-- Where a queued ember stands (R236, R237, R239). -/
inductive EmberPlace where
  | chip
  | ring
  | held
  | slot (core : Nat)
  deriving DecidableEq, Repr

/-- A queued ember: context, sector, priority, its order of arrival in its queue, the cycle (first) and the real time (born)
at which it was first enqueued, when it aged, and the payload that the dispatch drops from the new team's view (R253). -/
structure Ember where
  id : Nat
  ctx : Nat
  sector : Nat
  pri : Nat
  kind : EmberKind
  place : EmberPlace
  arrival : Nat
  first : Nat
  born : Nat
  aged : Option Nat := none
  keys : List Word
  payload : List Nat := []
  /-- Its entry of the context's memory ring, while it stands there. -/
  entry : Nat := 0
  deriving DecidableEq, Repr

/-- A held or marked key of the key tables (R242 to R244). -/
structure Key where
  ctx : Nat
  key : Word
  holder : Option Nat
  mark : Option Nat
  deriving DecidableEq, Repr

/-- The stages of a team's exit (R112, R235, R275, R349). -/
inductive ExitStage where
  | running
  /-- The last thread exited; the exit commit is yet to take place. -/
  | ending
  /-- The exit commit took place, in these units. -/
  | committed (units : List Nat)
  /-- The keys are released; the join decrement is left. -/
  | released
  | gone
  deriving DecidableEq, Repr

/-- A byte of a slice that a write replaced (R228): the step, the offset, the byte, and the threads that wrote: group and lanes. -/
structure PastByte where
  step : Nat
  offset : Nat
  byte : Byte
  gid : Nat
  lanes : List Nat
  deriving DecidableEq, Repr

/-- A phase record of one group (R344, R350) and the team part of group 0. -/
structure PhaseRecord where
  groups : List Group
  buffers : Sparse DWord
  seqas : List Nat
  commits : Nat
  deriving DecidableEq, Repr

/-- A team (R20, R171, R191, R196, R265, R291). buffers holds the 64-bit descriptors by number, tags the tag store by
buffer * 4096 + slot, slice the bytes of the scratchpad slice, store the entries of B[T], newest last, overflow the
256-byte lines it holds at home slices, view V[T] by line number; past are the bytes that writes to the slice have replaced while a
CBARV may let an older value be loaded (R228), newest last, phases the cluster barriers of a team that is a cluster of one (R251),
unwritten the groups whose phase records wait for their save-area pages (R344), joinAway the real time since which the home of its
join counter cannot be reached (R405). -/
structure Team where
  id : Nat
  ctx : Nat
  inst : Nat
  index : Nat
  teamx : Nat
  teamy : Nat
  teamz : Nat
  rank : Nat
  cluster : Option Nat
  core : Nat
  sector : Nat
  teamSlot : Nat
  entry : DWord
  arg : DWord
  join : DWord
  keys : List Word
  pri : Nat
  rst : Bool
  aud : Bool
  priv : Bool
  pipe : Bool
  journal : Option Nat := none
  sliceSize : Nat
  allotment : Nat
  tiles : Nat
  slice : Sparse Byte := []
  past : List PastByte := []
  phases : Sparse Bool := []
  buffers : Sparse DWord := []
  tags : Sparse (Option Word) := []
  store : List (Nat × Byte) := []
  overflow : List Nat := []
  view : Sparse (Option ViewLine) := []
  engines : Sparse Engine := []
  matrix : Matrix := {}
  commits : Nat := 0
  phase : Option PhaseRecord := none
  unwritten : List Nat := []
  joinAway : Option Nat := none
  audit : Nat := 2
  markNext : Bool := false
  ringFull : Nat := 0
  ringEmpty : Nat := 0
  ringLow : Nat := 0
  lastChange : Option Nat := none
  stopped : Bool := false
  relaunch : Bool := false
  exit : ExitStage := .running
  deriving DecidableEq, Repr

/-- A cluster (R227, R241): its instance, rectangle, the rank of the member that started first, the members by rank, phase bits
of the four barriers, the ranks that have arrived, and the payload dropped from the views its members start with (R253). -/
structure Cluster where
  id : Nat
  inst : Nat
  base : Nat
  cx : Nat
  cy : Nat
  die : Nat
  x0 : Nat
  y0 : Nat
  first : Nat := 0
  members : Sparse Nat := []
  phases : Sparse Bool := []
  arrived : Sparse (List Nat) := []
  keys : List Word := []
  payload : List Nat := []
  deriving DecidableEq, Repr

/-- A context (R335, R397, R400). svcDone are the service slots reported done whose completion waits for a page (R353). -/
structure Context where
  live : Bool := false
  halted : Bool := false
  swapped : Bool := false
  debug : Bool := false
  partition : Nat := 0
  asid : Nat := 0
  root : DWord := 0
  quota : Nat := 0
  job : Nat := 0
  pool : DWord := 0
  poolSize : Nat := 0
  poolUsed : List (Nat × Nat) := []
  emberRings : List DWord := []
  emberLog : Nat := 8
  frameRings : List (DWord × Nat) := []
  frameNext : Sparse Nat := []
  trapbase : DWord := 0
  trapctl : Word := 0x4#32
  framectl : Word := 0x23#32
  embqctl : Word := 0
  audctl : Word := 0x1F#32
  audbase : DWord := 0
  audstat : DWord := 0
  eqbase : DWord := 0
  eqctl : Word := 6
  eqhead : Word := 0
  eqtail : Word := 0
  eqovf : Word := 0
  svcbase : DWord := 0
  svcctl : Word := 0
  svcsig : DWord := 0
  fatal : Sparse DWord := []
  seq : Word := 1
  queued : List (Word × Word × Bool) := []
  svcNext : Nat := 0
  svcDone : List Nat := []
  rseq : DWord := 1
  eqnote : Word := 1
  svcnote : Word := 0
  mmaCount : Sparse Nat := []
  deriving DecidableEq, Repr

/-- An error record on its way to its context's queue (R337, R342); SEQ aside, the fields of R337, with the identities of the
team and of the group whose event it records, for the order of R338. -/
structure ErrorRecord where
  ctx : Nat
  tid : Nat := 0
  gid : Option Nat := none
  kind : Word
  pc : DWord := 0
  addr : DWord := 0
  lanes : LaneMask := 0
  info : Word := 0
  whereWord : Word := 0
  team : Word := 0
  time : DWord := 0
  aux : DWord := 0
  aux2 : DWord := 0
  deriving DecidableEq, Repr

/-! ## Cores, sectors, memory side and hub -/

/-- A core (R15, R70, R81, R166, R266, R292, R304). lastGroup and run are by quarter; icache by address space, line and place;
matrixTurn and, by copy channel, channelTurn (R266) are the team slots from which they look for the next queue. -/
structure Core where
  retired : Bool := false
  icache : List (Nat × Line) := []
  tlb : List PageEntry := []
  accords : List Slice := []
  lastGroup : Sparse (Option Nat) := []
  run : Sparse Nat := []
  matrixTurn : Nat := 0
  channelTurn : Sparse Nat := []
  deriving DecidableEq, Repr

/-- One entry of a sector's commit log (R358). -/
structure LogEntry where
  lseq : Nat
  ctx : Nat
  team : Nat
  time : DWord
  low : DWord
  high : DWord
  devices : List Nat
  deriving DecidableEq, Repr

/-- A sector (R34, R357 to R359, R362, R373, R402). result is 0 none, 1 pass, 2 fail, 3 running; lastPass is the cycle counter at
the last pass, passSeq the number its next log entry had then, visitors the contexts that have had a team in the sector since,
tested the real time of the last test; of its command link the numbers handled at the Hearth (up) and at the controller (down),
the messages that wait for the Hearth, and the permits. -/
structure Sector where
  fenced : Bool := false
  testing : Bool := false
  visitors : List Nat := []
  passSeq : Nat := 1
  result : Nat := 0
  request : Bool := false
  lastPass : DWord := 0
  tested : Nat := 0
  log : List LogEntry := []
  lseq : Nat := 1
  handledUp : List Word := []
  handledDown : List Word := []
  waitingUp : List Word := []
  permitsUp : Nat := 16
  permitsDown : Nat := 16
  deriving DecidableEq, Repr

/-- A pending tile of the ordered reduction (R211, R212): key (context, place, width), the first contribution's count,
operation and control, the contributions by rank, and when it began. -/
structure RankTile where
  ctx : Nat
  place : Nat
  width : Nat
  count : Nat
  op : Nat
  control : Nat
  since : Nat
  parts : List (Nat × List (Nat × Byte))
  /-- The accesses whose contributions it has accepted. -/
  ops : List Nat := []
  deriving DecidableEq, Repr

/-- A page-move request (R169): context, virtual address, target, party, whether MIGRATE asked for it; once its move has begun the
PA of the page's first entry, its size code, the new and the old PA of the page; whether the other party asks for it too. -/
structure Move where
  id : Nat
  ctx : Nat
  va : DWord
  tier : Tier
  byHost : Bool
  mailbox : Bool := false
  started : Bool := false
  entryPlace : Nat := 0
  size : Nat := 0
  frame : Nat := 0
  source : Nat := 0
  contested : Bool := false
  deriving DecidableEq, Repr

/-- A hold-down (R169): the page, the losing party, and the real time since which it runs. -/
structure Hold where
  ctx : Nat
  va : DWord
  size : Nat
  host : Bool
  since : Nat
  deriving DecidableEq, Repr

/-- An entry of the Hearth's journal (R388): queue, index, context, the command, whether it is bad (R387), whether its actions are
done, the grid it has started, and the real time since which a device that its operands name cannot be reached (R405). -/
structure JournalEntry where
  id : Nat
  queue : Nat
  index : Nat
  ctx : Nat
  bytes : List Byte
  bad : Bool
  acted : Bool := false
  grid : Option Nat := none
  away : Option Nat := none
  deriving DecidableEq, Repr

/-- A host queue (R385). -/
structure HostQueue where
  qbase : DWord := 0
  en : Bool := false
  swo : Bool := false
  log2n : BitVec 5 := 0
  ctx : BitVec 10 := 0
  kick : DWord := 0
  prog : DWord := 0
  narrow : Bool := false
  overrun : Bool := false
  badcmd : Bool := false
  badIndex : Word := 0
  deriving DecidableEq, Repr

/-- A Cordlink port (R405); a retraining one since a real time. -/
inductive Port where
  | untrained
  | trained
  | retraining (since : Nat)
  | failed
  deriving DecidableEq, Repr

/-- The hub status block (R34, R384, R401, R408, R409). retA and retB are the functions firmware has retired, laid out as FAIL_A
and FAIL_B. -/
structure Hub where
  readyA : DWord := 0
  readyB : DWord := 0
  failA : DWord := 0
  failB : DWord := 0
  coresvc : BitVec 192 := 0
  retA : DWord := 0
  retB : DWord := 0
  fwsvn : BitVec 8 := 0
  dnv : Bool := false
  devnum : BitVec 20 := 0
  pageret : Word := 0
  dbgEn : Bool := false
  stretch : Bool := false
  quiesced : Bool := false
  stctl : Word := 10
  frmPa : DWord := 0
  frmDone : Bool := false
  frmClean : Bool := false
  retired : List Nat := []
  deriving DecidableEq, Repr

/-- The test port and the package inputs (R28 to R33): the bits captured for the data register, and those last shifted out, the
first one first. -/
structure TestPort where
  instruction : BitVec 8 := 0x01#8
  latch : Bool := false
  freezeHigh : Bool := true
  requested : Bool := false
  frozen : Bool := false
  chain : BitVec 16 := 0
  captured : List Bool := []
  out : List Bool := []
  deriving DecidableEq, Repr

/-- How an access by the host has been answered (R37, R382). -/
inductive HostAnswer where
  | success
  /-- A CXL.io unsupported-request status. -/
  | unsupported
  /-- An error response: the home of the address has failed. -/
  | error
  deriving DecidableEq, Repr

/-- An HDM decoder (R381, R383): the host address that the host has programmed, and whether it has. -/
structure HdmDecoder where
  base : DWord := 0
  on : Bool := false
  deriving DecidableEq, Repr

/-- The Hearth, the mailbox and the host's side (R381, R383, R388 to R391, R395, R400, R406, R407). vectors are the MSI-X vectors
raised, oldest first; staged is a staged firmware image, image the one that runs, none while it is the one the device was delivered
with, counter the key store's; report is the last self-test report and reportTo its destination; reads is what the last host read
returned, answer how the last host access was answered; hdm0 and hdm1 are the HDM decoders; stepped the threads of the last single
step, none where it found none ready (R365); brown the contexts that a loss of supply has swapped out. -/
structure HostSide where
  queues : Sparse HostQueue := []
  journal : List JournalEntry := []
  restarting : Bool := false
  mailbox : Sparse Byte := []
  vectors : List Nat := []
  /-- The places of the signal words that system software has registered for notification, and of those it has been notified of
  (R254). -/
  signalWords : List Nat := []
  signalled : List Nat := []
  notified : List Nat := []
  partitions : Sparse Nat := []
  staged : Option (List Byte) := none
  image : Option (List Byte) := none
  counter : Nat := 0
  nonce : List Byte := []
  report : List Byte := []
  reportTo : Nat := 0
  reads : List Byte := []
  answer : HostAnswer := .success
  hdm0 : HdmDecoder := {}
  hdm1 : HdmDecoder := {}
  stepped : Option (Nat × LaneMask) := none
  brown : List Nat := []
  deriving DecidableEq, Repr

/-- Power, the CXL link while it retrains (R30), and the transport record (R360, R361, R409, R410). -/
structure Platform where
  power : Bool := false
  cxlTraining : Bool := false
  quiescing : Bool := false
  brownHigh : Bool := true
  tflag : Bool := false
  tpin : Bool := false
  tcount : Nat := 0
  tset : Nat := 0
  tlast : Nat := 0
  fullTest : Bool := false
  deriving DecidableEq, Repr

/-- What a pre-emption is for: the in-field test of a sector (R357), the swap of two contexts of a partition (R363), or the
loss of supply (R410). -/
inductive Purpose where
  | test (sector : Nat)
  | swap (partition out into : Nat)
  | brown
  deriving DecidableEq, Repr

/-- How far a pre-emption has come (R362). -/
inductive PreemptStage where
  | requested
  | stopping
  | complete
  deriving DecidableEq, Repr

/-- A pre-emption (R362). -/
structure Preempt where
  purpose : Purpose
  stage : PreemptStage := .requested
  deriving DecidableEq, Repr

/-- A sampled MMA that waits for its replay (R355, R356): its slot in the audit area, its parameter block, the signature of its
operands and that of its result, the cycle since which it waits, and the core that replays it, once one does. -/
structure Sample where
  id : Nat
  ctx : Nat
  team : Nat
  core : Nat
  slot : Nat
  number : Nat
  block : List Byte
  operands : Nat
  result : Nat
  since : Nat := 0
  replayer : Option Nat := none
  deriving DecidableEq, Repr

/-- The next thing to happen, when the agenda names it: an event, or an issue of a quarter of a core. -/
inductive Choice where
  | event (i : Instr)
  | issue (core quarter : Nat)
  /-- One instruction of the ready threads at the program counter of a lane of a halted group (R365). -/
  | single (gid lane : Nat)
  deriving DecidableEq, Repr

/-- The instruction being issued: group, convergence set, program counter, length in words (R65, R82). -/
structure Issue where
  gid : Nat
  lanes : LaneMask
  pc : DWord
  len : Nat
  deriving DecidableEq, Repr

/-- A unit of the device that waits for another device without a usable port (R405): the spill engine for a lane, a group's save or
resumption, a team's commit or relaunch, a phase record, the replay of a sample, the records of a context, a service completion. -/
inductive Away where
  | spill (gid lane : Nat)
  | refill (gid lane : Nat)
  | save (gid : Nat)
  | resume (gid : Nat)
  | team (tid : Nat)
  | phase (gid : Nat)
  | replay (sample : Nat)
  | record (ctx : Nat)
  | service (ctx slot : Nat)
  deriving DecidableEq, Repr

/-- The state of the machine. agenda, turn, lastQuarter, tapIn, now, real, ids and issue are the model's own (log 3): the
choices to come, whose turn it is, the quarter that issued last, a test-port byte that arrives, the number of the step, the real
time in nanoseconds (R409), the next identity, the issue in progress; aways holds the real time since which a unit waits for a
device out of reach (R405). -/
structure State where
  agenda : List Choice
  turn : Bool
  lastQuarter : Nat
  tapIn : Option (BitVec 8)
  now : Nat
  real : Nat
  ids : Nat
  issue : Option Issue
  clk : DWord
  mem : Sparse Byte
  groups : List Group
  teams : List Team
  clusters : List Cluster
  instances : List Instance
  contexts : Sparse Context
  generations : Sparse Nat
  cores : Sparse Core
  sectors : Sparse Sector
  ops : List Op
  queue : List Part
  sent : List Part
  remoteQueues : Sparse (List Part)
  ranks : List RankTile
  embers : List Ember
  keys : List Key
  releases : List (Nat × Word × Nat)
  records : List ErrorRecord
  moves : List Move
  holds : List Hold
  preempts : List Preempt
  samples : List Sample
  aways : List (Away × Nat)
  ports : Sparse Port
  routes : Sparse (BitVec 24)
  ownRoutes : Sparse (BitVec 24)
  hub : Hub
  test : TestPort
  host : HostSide
  plat : Platform
  deriving DecidableEq, Repr

/-- The machine right after reset: power not yet applied to the package's clocks (POWER_ON is an event), nothing ready,
every register at the reset value of its rule (log 4, log 5). -/
def State.reset : State :=
  { agenda := [], turn := true, lastQuarter := 767,
    tapIn := none, now := 0, real := 0, ids := 1, issue := none, clk := 0, mem := [], groups := [],
    teams := [], clusters := [], instances := [], contexts := [], generations := [], cores := [], sectors := [], ops := [],
    queue := [], sent := [], remoteQueues := [], ranks := [], embers := [], keys := [], releases := [], records := [],
    moves := [], holds := [], preempts := [], samples := [], aways := [], ports := [], routes := [], ownRoutes := [],
    hub := {}, test := {}, host := {}, plat := {} }

end Sys2Proof.Machine
end

