-- ==== Sys2Proof/Machine/Access.lean ====
section
/-! DEFINITION. Reading and updating the parts of the state by name: groups, lanes, teams, contexts, cores, sectors, and the
geometry of dies, sectors and cores (R14, R15). -/

namespace Sys2Proof.Machine

/-! ## Bits -/

/-- Bits [lo + n - 1 : lo] of a number. -/
def bitsOf (w lo n : Nat) : Nat := w / 2 ^ lo % 2 ^ n

/-- Bit i of a number. -/
def bitOf (w i : Nat) : Bool := decide (w / 2 ^ i % 2 = 1)

/-- The number 1 or 0 of a truth value. -/
def natOf (b : Bool) : Nat := if b then 1 else 0

/-- The little-endian number of a byte list (R3). -/
def leNat (bs : List Byte) : Nat :=
  match bs with
  | [] => 0
  | b :: r => b.toNat + 256 * leNat r

/-- The n little-endian bytes of a number (R3). -/
def leBytes (n w : Nat) : List Byte :=
  match n with
  | 0 => []
  | k + 1 => BitVec.ofNat 8 w :: leBytes k (w / 256)

/-- The n-byte field at an offset of a record held as bytes. -/
def field (bs : List Byte) (offset n : Nat) : Nat := leNat ((bs.drop offset).take n)

/-- The lanes of a mask, ascending. -/
def lanesOf (m : LaneMask) : List Nat := (List.range 32).filter fun j => m.getLsbD j

/-- The mask of a list of lanes. -/
def maskOf (ls : List Nat) : LaneMask := ls.foldl (fun m j => m ||| BitVec.ofNat 32 (2 ^ j)) 0

/-! ## Groups and lanes -/

/-- Lane j of a group; beyond the lanes, an exited thread. -/
def Group.lane (g : Group) (j : Nat) : Lane := g.lanes.getD j {}

/-- Every lane of a group updated, given its number. -/
def Group.mapLanes (g : Group) (f : Nat → Lane → Lane) : Group := { g with lanes := g.lanes.mapIdx f }

/-- Lane j of a group updated. -/
def Group.mapLane (g : Group) (j : Nat) (f : Lane → Lane) : Group :=
  g.mapLanes fun i l => if i = j then f l else l

/-- The group with an identity. -/
def State.group? (s : State) (gid : Nat) : Option Group := s.groups.find? fun g => g.id == gid

/-- The group with an identity updated. -/
def State.mapGroup (s : State) (gid : Nat) (f : Group → Group) : State :=
  { s with groups := s.groups.map fun g => if g.id = gid then f g else g }

/-- Every group updated. -/
def State.mapGroups (s : State) (f : Group → Group) : State := { s with groups := s.groups.map f }

/-- Lane j of the group with an identity updated. -/
def State.mapLane (s : State) (gid j : Nat) (f : Lane → Lane) : State := s.mapGroup gid fun g => g.mapLane j f

/-- Lane j of the group with an identity; an exited thread where there is no such group. -/
def State.lane (s : State) (gid j : Nat) : Lane := ((s.group? gid).map fun g => g.lane j).getD {}

/-- The unexited lanes of a group, ascending. -/
def Group.live (g : Group) : List Nat :=
  (List.range 32).filter fun j => !decide ((g.lane j).status = .exited)

/-- The waits that are interlocks: a thread in one of them is stalled in the terms of R79, not waiting. -/
def Wait.interlock (w : Wait) : Bool :=
  match w with
  | .scalar _ => true
  | .port => true
  | .stores => true
  | .home _ => true
  | .turn _ => true
  | .member _ _ => true
  | _ => false

/-- Whether a thread is parked or waits (R79, R103); one on its way into its handler does neither. -/
def Lane.idle (l : Lane) : Bool :=
  match l.status with
  | .waiting (.handler _ _ _) => false
  | .waiting w => !w.interlock
  | .parked _ => true
  | _ => false

/-- What a thread that waits for room has checked (R280, R315), with the queue. -/
def Lane.submission (l : Lane) : Option (Nat × Submission) :=
  match l.status with
  | .waiting (.room q x) => some (q, x)
  | _ => none

/-- Whether no result of a thread is outstanding (R59), but for the number of a submission that waits for room. -/
def Lane.drained (l : Lane) : Bool := l.pend.all fun q => (l.submission.map fun x => q.id == x.2.pid).getD false

/-- A thread that gives up the submission it waits with owes no number any more (R104). -/
def Lane.withdraw (l : Lane) : Lane :=
  match l.submission with
  | some (_, x) => { l with pend := l.pend.filter fun q => !(q.id == x.pid) }
  | none => l

/-! ## Teams, clusters, contexts, cores, sectors -/

/-- The team with an identity. -/
def State.team? (s : State) (tid : Nat) : Option Team := s.teams.find? fun t => t.id == tid

/-- The team with an identity updated. -/
def State.mapTeam (s : State) (tid : Nat) (f : Team → Team) : State :=
  { s with teams := s.teams.map fun t => if t.id = tid then f t else t }

/-- The groups of a team that have not ended, in order of creation. -/
def State.teamGroups (s : State) (tid : Nat) : List Group := s.groups.filter fun g => g.team == tid && !g.ended

/-- Whether a team's context is in the machine, not swapped out (R363). -/
def State.swappedIn (s : State) (tid : Nat) : Bool := ((s.team? tid).map fun t => !(sget {} s.contexts t.ctx).swapped).getD true

/-- Whether a group holds its slot and its register rows on a core (R92, R363). -/
def State.occupies (s : State) (g : Group) (core : Nat) : Bool := g.resident && g.core == core && s.swappedIn g.team

/-- The cluster with an identity. -/
def State.cluster? (s : State) (cid : Nat) : Option Cluster := s.clusters.find? fun c => c.id == cid

/-- The cluster with an identity updated. -/
def State.mapCluster (s : State) (cid : Nat) (f : Cluster → Cluster) : State :=
  { s with clusters := s.clusters.map fun c => if c.id = cid then f c else c }

/-- The grid or ember instance with an identity. -/
def State.instance? (s : State) (iid : Nat) : Option Instance := s.instances.find? fun i => i.id == iid

/-- The instance with an identity updated. -/
def State.mapInstance (s : State) (iid : Nat) (f : Instance → Instance) : State :=
  { s with instances := s.instances.map fun i => if i.id = iid then f i else i }

/-- The launch record of a team; an empty one where its instance is gone. -/
def State.record (s : State) (t : Team) : Record := ((s.instance? t.inst).map fun i => i.record).getD {}

/-- A context by number. -/
def State.ctx (s : State) (c : Nat) : Context := sget {} s.contexts c

/-- A context updated. -/
def State.mapCtx (s : State) (c : Nat) (f : Context → Context) : State :=
  { s with contexts := sput {} s.contexts c (f (s.ctx c)) }

/-- A core by number. -/
def State.core (s : State) (c : Nat) : Core := sget {} s.cores c

/-- A core updated. -/
def State.mapCore (s : State) (c : Nat) (f : Core → Core) : State :=
  { s with cores := sput {} s.cores c (f (s.core c)) }

/-- A sector by number. -/
def State.sector (s : State) (n : Nat) : Sector := sget {} s.sectors n

/-- A sector updated. -/
def State.mapSector (s : State) (n : Nat) (f : Sector → Sector) : State :=
  { s with sectors := sput {} s.sectors n (f (s.sector n)) }

/-- A context has a team in a sector (R359). -/
def State.visit (s : State) (n c : Nat) : State :=
  s.mapSector n fun x => if x.visitors.contains c then x else { x with visitors := x.visitors ++ [c] }

/-- A fresh identity. -/
def State.fresh (s : State) : Nat × State := (s.ids, { s with ids := s.ids + 1 })

/-- The die of a core (R15). -/
def coreDie (c : Nat) : Nat := c / 48

/-- The mesh column and row of a core (R15). -/
def coreX (c : Nat) : Nat := c % 8

def coreY (c : Nat) : Nat := c % 48 / 8

/-- The number of the core at column x and row y of die d (R15). -/
def coreAt (d x y : Nat) : Nat := 48 * d + 8 * y + x

/-- The sector of a core (R15). -/
def coreSector (c : Nat) : Nat := 4 * coreDie c + 2 * (coreY c / 3) + coreX c / 4

/-- The sectors of a partition, as a mask (R396). -/
def State.partitionMask (s : State) (p : Nat) : Nat := sget 0 s.host.partitions p

/-- Whether a sector is in service: its SECT bit reads 1 (R34). -/
def State.sectorReady (s : State) (n : Nat) : Bool := s.hub.readyA.getLsbD n

/-- Whether a core is in service. -/
def State.coreInService (s : State) (c : Nat) : Bool := s.hub.coresvc.getLsbD c && !(s.core c).retired

/-- The cores in service in a partition (R335 PCORES). -/
def State.partitionCores (s : State) (p : Nat) : List Nat :=
  (List.range 192).filter fun c => bitOf (s.partitionMask p) (coreSector c) && s.coreInService c

/-- The sectors in service of a partition. -/
def State.partitionSectors (s : State) (p : Nat) : List Nat :=
  (List.range 16).filter fun n => bitOf (s.partitionMask p) n && s.sectorReady n

/-- An engine queue of a team (R265). -/
def Team.engine (t : Team) (q : Nat) : Engine := sget {} t.engines q

/-- An engine queue of a team updated. -/
def Team.mapEngine (t : Team) (q : Nat) (f : Engine → Engine) : Team :=
  { t with engines := sput {} t.engines q (f (t.engine q)) }

/-! ## Instruction addresses -/

/-- NextPC (R11): the address after an m-word instruction, slot 0 of the next line past the end of a line (R69). -/
def nextPC (p : DWord) (m : Nat) : DWord :=
  let q := p + BitVec.ofNat 64 (4 * m)
  if q.toNat % 128 = 0 then q + 8 else q

/-- The first byte of the line of an address (R66). -/
def lineBase (p : DWord) : DWord := p - BitVec.ofNat 64 (p.toNat % 128)

/-- The slot of an address within its line, where there is one (R66). -/
def slotOf (p : DWord) : Option Nat :=
  let o := p.toNat % 128
  if o < 8 ∨ o % 4 ≠ 0 then none else some ((o - 8) / 4)

end Sys2Proof.Machine
end

