-- ==== Sys2Proof/Machine/Descriptors.lean ====
section
/-! DEFINITION. The fields of a buffer descriptor (R196) and a team's buffer table. -/

namespace Sys2Proof.Machine

/-- The fields of a descriptor (R196). -/
def descV (d : DWord) : Bool := d.getLsbD 27

def descEng (d : DWord) : Bool := d.getLsbD 26

def descKind (d : DWord) : Nat := bitsOf d.toNat 28 2

def descState (d : DWord) : Nat := bitsOf d.toNat 30 2

def descWp (d : DWord) : Nat := bitsOf d.toNat 32 20

def descBase (d : DWord) : Nat := 128 * bitsOf d.toNat 0 12

def descSize (d : DWord) : Nat := 128 * (bitsOf d.toNat 12 12 + 1)

def descSlotSize (d : DWord) : Nat := 128 * 2 ^ bitsOf d.toNat 52 3

def descWays (d : DWord) : Nat := 2 ^ bitsOf d.toNat 55 2

/-- The number of slots of a tagged buffer (R203). -/
def descSlots (d : DWord) : Nat := descSize d / descSlotSize d

/-- A descriptor with a field of n bits at lo replaced. -/
def withField (d : DWord) (lo n v : Nat) : DWord :=
  BitVec.ofNat 64 (d.toNat - bitsOf d.toNat lo n * 2 ^ lo + v % 2 ^ n * 2 ^ lo)

/-- STATE, WP and ENG replaced. -/
def withState (d : DWord) (v : Nat) : DWord := withField d 30 2 v

def withWp (d : DWord) (v : Nat) : DWord := withField d 32 20 v

def withEng (d : DWord) (b : Bool) : DWord := withField d 26 1 (natOf b)

/-- Buffer n of a team. -/
def Team.buffer (t : Team) (n : Nat) : DWord := sget 0 t.buffers n

/-- Buffer n of a team replaced. -/
def Team.setBuffer (t : Team) (n : Nat) (d : DWord) : Team := { t with buffers := sput 0 t.buffers n d }

end Sys2Proof.Machine
end

