-- ==== Sys2Proof/Config.lean ====
section
/-! DEFINITION. What the spec leaves open: free values, constants without a body, so that no proof can see what they are.
An index argument called now is State.now, which every step raises by one; the further numbers tell the values of one step
apart. -/

namespace Sys2Proof.Config

/-- Free value (log 6): whether a register, predicate or other destination of an open lookahead window is read as its new
value (R58). -/
opaque lookaheadNew (now lane name : Nat) : Bool

/-- Free value (log 6): whether a register written inside an open lookahead window keeps the breaching value (R58). -/
opaque lookaheadKeep (now lane name : Nat) : Bool

/-- Free value (log 7): cycles beyond one that a step takes (R54, timing). -/
opaque extraCycles (now : Nat) : Nat

/-- Free value (log 7): nanoseconds of real time that pass in a step (R409). -/
opaque realTime (now : Nat) : Nat

/-- Free value (log 23): which of the moments since its CBARV a load after a CBWAIT without .acq takes its value from (R228). -/
opaque staleMoment (now lane offset : Nat) : Nat

/-- Free value (log 8): a byte whose value the spec leaves unspecified (R263, R270, R297). -/
opaque freeByte (now index : Nat) : Byte

/-- Free value (log 8): a register, tile element or word whose value the spec leaves unspecified (R263, R295). -/
opaque freeWord (now index : Nat) : Word

/-- Free value (log 8): at which of the moments since its start a matrix operation reads an operand element, by its bit address
(R297). -/
opaque operandMoment (now element : Nat) : Nat

/-- Free value (log 9): a transcendental result where the bounds of the model's series do not settle the rounding (R148). -/
opaque transcendental (function : Nat) (argument : Word) : Word

/-- Free value (log 10): which translation of the sixteen entries of a 64 KiB page that differ is used (R399). -/
opaque mixedEntry (now : Nat) : Nat

/-- Implementation constant (log 11): the device identification word (R32). -/
opaque identification : Word

/-- Implementation constant (log 11): the length in bits of a scan chain (R33). -/
opaque scanLength (chain : Nat) : Nat

/-- What a bit of a scan chain holds (R33): bit of the cycle counter; of a register of a lane's ring, by its row, of a thread's
or a group's state as its save area lays it out (R350), of a scalar register, for the group in a slot of a core; of a byte of a
team's slice, by the team slot; of a tile element; of a register in BAR0 (R382), by its offset; of a context register (R335), by
its number; of an entry of a team's buffer table (R195); of a line of a core's view cache, its 128 bytes and then the 8 bytes of
the line's number and the number of its team (R13); of an entry of a core's TLB, the leaf entry, the page, the address space and
the size code (R166); of a team's store buffer (R174), the place and the byte of an entry; of the command or parameter block of
an entry of an engine queue, 0 to 4, or of the matrix queue, 5 (R265, R292), of the numbers and the CRC of a queue; of a line in
a core's instruction cache (R70); of the image of an ember that waits in a sector (R236); or nothing that this model lays out.
-/
inductive ScanPlace where
  | clk (bit : Nat)
  | register (core slot lane row bit : Nat)
  | thread (core slot lane byte bit : Nat)
  | group (core slot byte bit : Nat)
  | scalar (core slot index bit : Nat)
  | slice (core teamSlot offset bit : Nat)
  | tile (core teamSlot element bit : Nat)
  | hub (offset bit : Nat)
  | context (ctx number bit : Nat)
  | buffer (core teamSlot index bit : Nat)
  | view (core index byte bit : Nat)
  | tlb (core index bit : Nat)
  | store (core teamSlot index bit : Nat)
  | command (core teamSlot queue index byte bit : Nat)
  | queue (core teamSlot queue word bit : Nat)
  | icache (core index byte bit : Nat)
  | ember (sector index byte bit : Nat)
  | other
  deriving DecidableEq, Repr, Inhabited

/-- Implementation constant (log 11): what the chain map says a bit of a chain from 1 on holds (R33). -/
opaque scanPlace (chain bit : Nat) : ScanPlace

/-- Free value (log 11): a bit of a scan chain at a place that holds nothing this model lays out (R33). -/
opaque scanBit (now chain bit : Nat) : Bool

/-- Implementation constant (log 11): how the signed chain map writes down the chains, each with its number and what stands at its
positions (R33). -/
opaque chainCode (chains : List (Nat × List ScanPlace)) : Nat

/-- The bits of chain 0, the chain map: every chain with its length and the position of every register and array within it (R33). -/
def chainMap : Nat :=
  chainCode ((List.range 65535).map fun i => (i + 1, (List.range (scanLength (i + 1))).map (scanPlace (i + 1))))

/-- Implementation constant (log 12): the validity of an ML-DSA-65 signature over bytes (R406, R408). -/
opaque signatureValid (message : List Byte) : Bool

/-- Implementation constant (log 12): the SHAKE256 digest, 32 bytes (R360, R407). -/
opaque digest (message : List Byte) (index : Nat) : Byte

/-- Implementation constant (log 12): the signature bytes the device writes (R360, R407). -/
opaque signature (message : List Byte) (index : Nat) : Byte

/-- Implementation constant (log 12): the partition map of an attestation report for the sector masks of the partitions (R407). -/
opaque partitionMap (masks : List Nat) (index : Nat) : Byte

/-- Implementation constant (log 12): how a self-test report's first 64 bytes hold the identity, the firmware version, the test time
and the transport count (R360). -/
opaque reportHeader (version time count index : Nat) : Byte

/-- Implementation constant (log 12): the device identity digest, 32 bytes (R360, R396). -/
opaque identity (index : Nat) : Byte

/-- Implementation constant (log 12): the security version a firmware image carries (R406). -/
opaque imageVersion (image : List Byte) : Nat

/-- Implementation constant (log 12): the digest of the configuration record, 32 bytes (R407). -/
opaque recordDigest (index : Nat) : Byte

/-- Implementation constant (log 12): whether the configuration record verifies (R406). -/
opaque recordValid : Bool

/-- Implementation constant (log 12): the firmware image the device was delivered with (R406). -/
opaque firstImage : List Byte

/-- Free value (log 13): the reference oscillator's seconds since manufacture (R361). -/
opaque oscillator (now : Nat) : Nat

/-- Implementation constant (log 14): the function that an entry of a self-test report is about (R360). -/
opaque selfTestFunction (index : Nat) : BitVec 16

/-- Free value (log 14): a full self-test's errors found for the function of an entry, and the pages retired (R360). -/
opaque selfTestErrors (now index : Nat) : BitVec 16

opaque selfTestPages (now index : Nat) : Word

/-- Free value (log 27): which frame of its size a move to the peat tier or to host memory takes (R169). -/
opaque tierFrame (now : Nat) : Nat

/-- Free value (log 27): the status of a MIGRATE whose page the device had asked for first (R169). -/
opaque lostMigrate (now : Nat) : Nat

/-- Free value (log 17): element index of what another device's participant of a collective contributes (R277). -/
opaque remoteElement (now tag rank index : Nat) : DWord

/-- Free value (log 17): whether the participants of a collective agree (R278). -/
opaque participantsAgree (now tag : Nat) : Bool

end Sys2Proof.Config
end

