-- ==== Sys2Proof/Machine/Memory.lean ====
section
/-! DEFINITION. Memory: bytes by place, the address map (R383, R17), generic addresses (R163), page tables and translation
(R165 to R168, R399), the store buffer, the publish queues and the views (R171 to R173). -/

namespace Sys2Proof.Machine

/-! ## Bytes of M

A place is a number: a device physical address of this device, or (device + 1) * 2^64 + virtual address on a remote page. -/

/-- Memory in the form of Sparse with default 0: what no agent has written reads 0 (log 2). -/
abbrev Memory := Sparse Byte

/-- The canonical form of memory. -/
abbrev Memory.wf (m : Memory) : Prop := swf (0 : Byte) m = true

/-- One byte of M. -/
def State.byte (s : State) (place : Nat) : Byte := sget 0 s.mem place

/-- n bytes of M from a place. -/
def State.bytes (s : State) (place n : Nat) : List Byte := (List.range n).map fun i => s.byte (place + i)

/-- Bytes written into M, in order. -/
def State.writeBytes (s : State) (bs : List (Nat × Byte)) : State := { s with mem := sputAll 0 s.mem bs }

/-- The places and bytes of a value stored at consecutive places. -/
def placed (place : Nat) (bs : List Byte) : List (Nat × Byte) := bs.mapIdx fun i b => (place + i, b)

/-- A little-endian value of n bytes written into M. -/
def State.writeNat (s : State) (place n v : Nat) : State := s.writeBytes (placed place (leBytes n v))

/-- A little-endian value of n bytes of M. -/
def State.readNat (s : State) (place n : Nat) : Nat := leNat (s.bytes place n)

/-! ## The address map -/

/-- The targets of a device physical address (R383). -/
inductive Target where
  | hbm
  | peat
  | host
  | unused
  deriving DecidableEq, Repr

/-- The target of a PA (R383). -/
def targetOf (pa : Nat) : Target :=
  if pa < 0x8000000000 then .hbm
  else if 0x10000000000 ≤ pa ∧ pa < 0x1C000000000 then .peat
  else if 0x8000000000000 ≤ pa ∧ pa < 0x10000000000000 then .host
  else .unused

/-- Whether a place is on a remote page. -/
def isRemote (place : Nat) : Bool := decide (2 ^ 64 ≤ place)

/-- The device number of a place on a remote page. -/
def deviceOf (place : Nat) : Nat := place / 2 ^ 64 - 1

/-- Whether a place is homed on this device. -/
def State.isLocal (s : State) (place : Nat) : Bool :=
  !isRemote place || (s.hub.dnv && deviceOf place == s.hub.devnum.toNat)

/-- The exclusive-OR of the eleven 4-bit fields PA[11:8] to PA[51:48] (R17). -/
def sliceIndex (pa : Nat) : Nat :=
  (List.range 11).foldl (fun h i => h ^^^ bitsOf pa (8 + 4 * i) 4) 0

/-- The home die of a block (R17). -/
def homeDie (pa : Nat) : Nat :=
  if targetOf pa = .hbm then bitsOf pa 37 2 else bitsOf pa 8 2 ^^^ bitsOf pa 12 2

/-- The home slice of a block, 16 per die (R17). -/
def homeSlice (pa : Nat) : Nat := 16 * homeDie pa + sliceIndex pa

/-- The home slice of a place on this device: none for a place on a remote page, which is homed on the device that owns it (R17,
log 29). -/
def sliceOf (place : Nat) : Option Nat := if isRemote place then none else some (homeSlice place)

/-- How the home of a place stands (R37). -/
inductive Home where
  | ready
  | waiting
  | failed
  deriving DecidableEq, Repr

/-- The usable ports of the route to a device (R404, R405): those of its entry that are trained. -/
def State.routePorts (s : State) (d : Nat) : List Nat :=
  let own := s.hub.devnum.toNat
  let mask : BitVec 24 := if d / 1024 = own / 1024 then sget 0 s.ownRoutes (d % 1024) else sget 0 s.routes (d / 1024)
  (List.range 24).filter fun p => mask.getLsbD p && decide (sget Port.untrained s.ports p = .trained)

/-- R37: the home of a place is not ready while its MSC, HBM stack or the peat tier is not; another device is reached only
while its route has a usable port (R405). -/
def State.home (s : State) (place : Nat) : Home :=
  if isRemote place then
    if s.isLocal place || !(s.routePorts (deviceOf place)).isEmpty then .ready else .waiting
  else
    let bits := (32 + homeDie place) ::
      (match targetOf place with
       | .hbm => [16 + bitsOf place 36 3]
       | _ => [])
    let peat := decide (targetOf place = .peat)
    if bits.any (fun b => s.hub.failA.getLsbD b) || (peat && s.hub.failB.getLsbD 3) then .failed
    else if bits.all (fun b => s.hub.readyA.getLsbD b) && (!peat || s.hub.readyB.getLsbD 3) then .ready
    else .waiting

/-- How the homes of several places stand together (R37): one that has failed fails all, one that is not ready delays all. -/
def State.homesOf (s : State) (places : List Nat) : Home :=
  if places.any fun p => decide (s.home p = .failed) then .failed
  else if places.any fun p => decide (s.home p = .waiting) then .waiting
  else .ready

/-- Places that stand for the homes of n bytes from a place: the first blocks, which reach every die that the rest can reach
(R17), and the last byte. -/
def spanPlaces (place n : Nat) : List Nat :=
  if n = 0 then []
  else (place + n - 1) :: (List.range (min 7 ((n + 255) / 256))).map fun i => place + 256 * i

/-! ## Translation -/

/-- The fields of a page table entry (R399). -/
def entryV (e : DWord) : Bool := e.getLsbD 0

def entryP (e : DWord) : Bool := e.getLsbD 1

def entryR (e : DWord) : Bool := e.getLsbD 2

def entryW (e : DWord) : Bool := e.getLsbD 3

def entryX (e : DWord) : Bool := e.getLsbD 4

def entryRem (e : DWord) : Bool := e.getLsbD 7

/-- FRAME as the PA of a frame or table. -/
def entryFrame (e : DWord) : Nat := bitsOf e.toNat 12 40 * 4096

/-- The device number of a remote leaf. -/
def entryDevice (e : DWord) : Nat := bitsOf e.toNat 32 20

/-- The size in bytes of a page of size code 0 to 3 (R165, R190). -/
def pageBytes (size : Nat) : Nat :=
  match size with
  | 0 => 0x1000
  | 1 => 0x10000
  | 2 => 0x200000
  | _ => 0x40000000

/-- A leaf found by a walk: its size code, its entry, and the PA of the entry. -/
structure Leaf where
  size : Nat
  entry : DWord
  place : Nat
  deriving DecidableEq, Repr

/-- What a walk finds: no mapping, a leaf, or an entry whose home is not ready yet (R37). -/
inductive Walked where
  | unmapped
  | leaf (l : Leaf)
  | waits (place : Nat)
  deriving DecidableEq, Repr

/-- The entry at a PA, and what a walk finds through it (R37, R399): an entry whose home has failed cannot be read, and the address
counts as not mapped. -/
def State.through (s : State) (place : Nat) (e : DWord) (found : Walked) : Walked :=
  match s.home place with
  | .waiting => .waits place
  | .failed => .unmapped
  | .ready => if entryV e then found else .unmapped

/-- One level of the walk, from the table at a PA (R399): the levels still to go below, 4 for the root. -/
def walkFrom (s : State) (level table va : Nat) : Walked :=
  let index := if level = 4 then bitsOf va 48 8 else bitsOf va (12 + 9 * level) 9
  let place := table + 8 * index
  let e : DWord := BitVec.ofNat 64 (s.readNat place 8)
  match level with
  | 0 => s.through place e (.leaf { size := natOf (e.getLsbD 6), entry := e, place })
  | l + 1 => s.through place e
      (if e.getLsbD 5 && (l == 0 || l == 1) then .leaf { size := l + 2, entry := e, place } else walkFrom s l (entryFrame e) va)

/-- A leaf that R399 or R404 makes an invalid mapping counts as not mapped. -/
def State.leafValid (s : State) (l : Leaf) : Bool :=
  if entryRem l.entry then s.hub.dnv
  else
    let f := entryFrame l.entry
    let n := pageBytes l.size
    decide (f % n = 0 ∧ targetOf f ≠ .unused ∧ targetOf f = targetOf (f + n - 1)) &&
      !s.hub.retired.any fun r => decide (f ≤ r ∧ r < f + n)

/-- The walk of an address space's table for a global virtual address, invalid leaves left out. -/
def State.walked (s : State) (c : Nat) (va : DWord) : Walked :=
  match walkFrom s 4 (s.ctx c).root.toNat va.toNat with
  | .leaf l => if s.leafValid l then .leaf l else .unmapped
  | w => w

/-- The leaf of a global virtual address, where the walk finds one. -/
def State.walk (s : State) (c : Nat) (va : DWord) : Option Leaf :=
  match s.walked c va with
  | .leaf l => some l
  | _ => none

/-- The PA of the first of a page's entries: a 64 KiB page has sixteen (R399). -/
def Leaf.base (l : Leaf) : Nat := if l.size = 1 then l.place / 128 * 128 else l.place

/-- The PA of the first entry of the page that holds an address, where it is mapped. -/
def State.pageOf (s : State) (c : Nat) (va : DWord) : Option Nat := (s.walk c va).map Leaf.base

/-- What an access wants of a page (R339 INFO[2:0]): 0 read, 1 write, 2 execute, 3 atomic. -/
def entryAllows (e : DWord) (access : Nat) : Bool :=
  match access with
  | 0 => entryR e
  | 2 => entryX e
  | _ => entryW e

/-- The outcome of a translation (R168). -/
inductive Trans where
  | ok (place : Nat) (entry : PageEntry)
  | absent
  | denied
  /-- The walk waits for the home of an entry (R37). -/
  | waits (place : Nat)
  deriving DecidableEq, Repr

/-- The place of a virtual address under a page entry (R165, R399). Where the bytes of a remote page lie that names the device's own
number the spec does not say; the model gives them a place of their own, as for any other device (DESIGN CHOICE, log 29). -/
def placeUnder (p : PageEntry) (va : DWord) : Nat :=
  if entryRem p.entry then (entryDevice p.entry + 1) * 2 ^ 64 + va.toNat
  else entryFrame p.entry + va.toNat % pageBytes p.size

/-- The generation of an address space (R167). -/
def State.generation (s : State) (asid : Nat) : Nat := sget 0 s.generations asid

/-- Whether a cached translation matches an address now (R167). -/
def State.pageHit (s : State) (asid : Nat) (va : DWord) (p : PageEntry) : Bool :=
  p.asid == asid && p.generation == s.generation asid && p.page == va.toNat / pageBytes p.size

/-- Translation of a global address of a context (R166 to R168), through a last-page register if there is one, the TLB of a
core, and the page table. Permission is judged before presence. -/
def State.translate (s : State) (c core : Nat) (last : Option PageEntry) (va : DWord) (access : Nat) : Trans :=
  let asid := (s.ctx c).asid
  match (last.toList ++ (s.core core).tlb).find? (s.pageHit asid va) with
  | some p => if entryAllows p.entry access then .ok (placeUnder p va) p else .denied
  | none =>
    match s.walked c va with
    | .unmapped => .denied
    | .waits place => .waits place
    | .leaf l =>
      if !entryAllows l.entry access then .denied
      else if !entryP l.entry then .absent
      else
        let p : PageEntry := { asid, generation := s.generation asid, page := va.toNat / pageBytes l.size,
                               size := l.size, entry := l.entry }
        .ok (placeUnder p va) p

/-- A translation that succeeded reloads the lane's last-page register and, unless it hit that register, stands in the core's TLB,
which keeps its 4096 newest entries (R166; the replacement is DESIGN CHOICE, log 15). -/
def State.reload (s : State) (gid j core : Nat) (p : PageEntry) : State :=
  let hit := decide ((s.lane gid j).lastPage = some p)
  let s := s.mapLane gid j fun l => { l with lastPage := some p }
  if hit || (s.core core).tlb.contains p then s
  else s.mapCore core fun k => { k with tlb := (p :: k.tlb).take 4096 }

/-! ## Generic addresses -/

/-- The class of a generic address (R163). -/
inductive Class where
  | global
  | scratchpad (offset : Nat)
  | window (rank offset : Nat)
  | unused
  deriving DecidableEq, Repr

/-- The member of a cluster of a rank, for a team: the team itself where it is a cluster of one. -/
def State.member (s : State) (t : Team) (rank : Nat) : Option Nat :=
  match t.cluster with
  | none => if rank = t.rank then some t.id else none
  | some c => ((s.cluster? c).bind fun k => (k.members.find? fun e => e.1 == rank).map fun e => e.2)

/-- The team count of a team's cluster (R163). -/
def State.clusterSize (s : State) (t : Team) : Nat :=
  match t.cluster with
  | none => 1
  | some c => ((s.cluster? c).map fun k => k.cx * k.cy).getD 1

/-- The slice size of the member of a rank; members of one launch have slices of one size. -/
def State.memberSlice (_ : State) (t : Team) (_ : Nat) : Nat := t.sliceSize

/-- The class of an address for a team (R163). -/
def State.classOf (s : State) (t : Team) (a : DWord) : Class :=
  let top := bitsOf a.toNat 56 8
  let low := bitsOf a.toNat 0 56
  if top = 0 then .global
  else if bitsOf a.toNat 48 16 = 0x0100 ∧ bitsOf a.toNat 0 48 < t.sliceSize then .scratchpad low
  else
    let o := bitsOf a.toNat 0 20
    let rank := bitsOf a.toNat 20 28
    if bitsOf a.toNat 48 16 = 0x0101 ∧ rank < s.clusterSize t ∧ o < s.memberSlice t rank then .window rank o
    else .unused

/-! ## Store buffer, publish queues, views -/

/-- The newest entry for a place in a list of entries, newest last. -/
def newest (place : Nat) (es : List (Nat × Byte)) : Option Byte :=
  (es.reverse.find? fun e => e.1 == place).map fun e => e.2

/-- The parts in publish queues and under way, in order of appending. -/
def State.unitParts (s : State) (tid : Nat) : List Part :=
  (s.queue ++ s.remoteQueues.flatMap fun e => e.2).filter fun p => p.team == tid

/-- The value of a place in the newest of a team's parts still in a publish queue (R173 rule 2). -/
def State.queued (s : State) (tid place : Nat) : Option Byte :=
  newest place ((s.unitParts tid).flatMap fun p => p.bytes)

/-- The line of 128 bytes that holds a place. -/
def viewLineOf (place : Nat) : Nat := place / 128

/-- The Fill step (R172): a line of a team's view takes M's current value, unless the view holds the line. -/
def State.fillLine (s : State) (tid line : Nat) : State :=
  s.mapTeam tid fun t =>
    match sget none t.view line with
    | some _ => t
    | none => { t with view := sput none t.view line (some { bytes := s.bytes (128 * line) 128, time := s.now }) }

/-- The Drop step (R172). -/
def State.dropLine (s : State) (tid line : Nat) : State :=
  s.mapTeam tid fun t => { t with view := sput none t.view line none }

/-- The lines that the view cache of a core holds (R13, R171): those of the views of its teams, by team. -/
def State.coreLines (s : State) (core : Nat) : List (Nat × Nat) :=
  (s.teams.filter fun t => t.core == core).flatMap fun t => t.view.map fun e => (t.id, e.1)

/-- The lines a view cache can hold: 256 KiB of 128 bytes (R13). -/
def viewCapacity : Nat := 2048

/-- A line filled by a load (R173): where the core's view cache is full another line is dropped first (R172); which is a free value
(log 15). -/
def State.fillShared (s : State) (tid line : Nat) : State :=
  match s.team? tid with
  | none => s
  | some t =>
    let held := s.coreLines t.core
    if (sget none t.view line).isSome || decide (held.length < viewCapacity) then s.fillLine tid line
    else
      match held[(Config.freeWord s.now line).toNat % held.length]? with
      | some v => (s.dropLine v.1 v.2).fillLine tid line
      | none => s

/-- Every line of a team's view dropped. -/
def State.dropView (s : State) (tid : Nat) : State := s.mapTeam tid fun t => { t with view := [] }

/-- The byte a plain load of a team returns (R173): own store buffer, own parts in publish queues, then the view, which
reads as M would fill it now where the line is empty. -/
def State.loadByte (s : State) (t : Team) (place : Nat) : Byte :=
  match newest place t.store with
  | some b => b
  | none =>
    match s.queued t.id place with
    | some b => b
    | none =>
      match sget none t.view (viewLineOf place) with
      | some l => l.bytes.getD (place % 128) 0
      | none => s.byte place

/-- The bytes a .live load returns (R173): rules 1 and 2, otherwise M. -/
def State.liveByte (s : State) (t : Team) (place : Nat) : Byte :=
  match newest place t.store with
  | some b => b
  | none => (s.queued t.id place).getD (s.byte place)

/-- A little-endian value as a .live load returns it. -/
def State.liveNat (s : State) (t : Team) (place n : Nat) : Nat :=
  leNat ((List.range n).map fun i => s.liveByte t (place + i))

/-- Whether a plain load of a byte reaches the view (R173 rule 3). -/
def State.usesView (s : State) (t : Team) (place : Nat) : Bool :=
  (newest place t.store).isNone && (s.queued t.id place).isNone

/-- The distinct 32-byte sectors of a list of entries (R180). -/
def sectorsOf (es : List (Nat × Byte)) : List Nat := (es.map fun e => e.1 / 32).eraseDups

/-- The 256-byte lines of a list of entries. -/
def blocksOf (es : List (Nat × Byte)) : List Nat := (es.map fun e => e.1 / 256).eraseDups

/-- The shadow lines that a command holds by itself: those of its chain's earlier commands serve it too (R265, R270). -/
def Command.ownLines (c : Command) : List Nat := (blocksOf c.shadow).filter fun b => !c.kept.contains b

/-- The shadow lines of a command or an operation that ends become its queue's (R274, R294). -/
def Engine.takeShadow (e : Engine) (c : Command) : Engine :=
  { e with shadow := e.shadow ++ c.shadow, lines := e.lines ++ c.ownLines }

def Matrix.takeShadow (x : Matrix) (m : MatrixEntry) : Matrix :=
  { x with shadow := x.shadow ++ m.shadow, lines := x.lines ++ blocksOf m.shadow }

/-- The shadow lines of a team: overflow lines, and the lines of engine and matrix results not yet published, counted for each
command (R181, R270). -/
def Team.shadowLines (t : Team) : List Nat :=
  t.overflow ++ (t.engines.flatMap fun e => e.2.lines ++ e.2.queue.flatMap Command.ownLines) ++
    (t.matrix.lines ++ t.matrix.queue.flatMap fun m => blocksOf m.shadow)

/-- Every part not yet applied. -/
def State.parts (s : State) : List Part := s.queue ++ s.sent ++ s.remoteQueues.flatMap fun e => e.2

/-- The shadow lines a context holds, those of its unapplied units included (R181). -/
def State.shadowLines (s : State) (c : Nat) : Nat :=
  let mine := s.teams.filter fun t => t.ctx == c
  (mine.flatMap fun t => t.shadowLines).length +
    ((s.parts.filter fun p => mine.any fun t => t.id == p.team).flatMap fun p => p.lines).length

/-- The shadow lines that stand on one home slice (R181). -/
def State.sliceLines (s : State) (slice : Nat) : Nat :=
  ((s.teams.flatMap fun t => t.shadowLines) ++ s.parts.flatMap fun p => p.lines).countP
    fun b => sliceOf (256 * b) == some slice

/-- The shadow lines a slice can hold: one quarter of its 6 MiB (R13, R181). -/
def sliceCapacity : Nat := 6144

/-- The bytes of a unit formed from store buffer entries: for each byte the newest value (R172 Commit). -/
def unitBytes (es : List (Nat × Byte)) : List (Nat × Byte) :=
  es.foldl (fun acc e => (acc.filter fun x => !(x.1 == e.1)) ++ [e]) []

/-- The devices of a list of entries: 0 for this device, number + 1 for another. -/
def State.unitDevices (s : State) (bs : List (Nat × Byte)) : List Nat :=
  (bs.map fun e => if s.isLocal e.1 then 0 else deviceOf e.1 + 1).eraseDups

/-- A unit enters the publish queues (R172): the part homed here is appended to this device's queue, the others are sent.
The unit gets a fresh number; lines are the shadow lines that hold it. -/
def State.publishUnit (s : State) (tid : Nat) (bs : List (Nat × Byte)) (lines : List Nat) : Nat × State :=
  let u := s.ids
  let part (d : Nat) : Part :=
    let here (place : Nat) : Bool := (if s.isLocal place then 0 else deviceOf place + 1) == d
    { unit := u, team := tid, bytes := bs.filter fun e => here e.1, device := d,
      lines := lines.filter fun b => here (256 * b), queued := s.clk.toNat }
  let parts := (s.unitDevices bs).map part
  (u, { s with ids := s.ids + 1, queue := s.queue ++ parts.filter fun p => p.device == 0,
               sent := s.sent ++ parts.filter fun p => p.device != 0 })

/-- Whether a unit has been applied: on this device, or on every device it touches. -/
def State.unitApplied (s : State) (u : Nat) (everywhere : Bool) : Bool :=
  !(s.queue.any fun p => p.unit == u) &&
    (!everywhere || (!(s.sent.any fun p => p.unit == u) && !(s.remoteQueues.any fun e => e.2.any fun p => p.unit == u)))

end Sys2Proof.Machine
end

