-- ==== Sys2Proof/Machine/Operands.lean ====
section
/-! DEFINITION. Operands: register names and frames (R51 to R54, R89), reading and writing registers, pairs and predicates
of a lane (R11), guards (R38), and the lookahead windows of a thread (R57, R58). -/

namespace Sys2Proof.Machine

/-- What an issue sees: the state before it, its group and team, its convergence set and the length of the instruction. -/
structure Env where
  s : State
  g : Group
  t : Team
  cs : LaneMask
  m : Nat

/-- The context number of an issue. -/
def Env.ctx (e : Env) : Nat := e.t.ctx

/-- The absolute place of a register name for a lane (R51); none for a special. -/
def placeOf (l : Lane) (n : BitVec 7) : Option Place :=
  let c := n.toNat
  if c < 0x10 then some (.ring (l.fp + c))
  else if c < 0x50 then some (.ring (l.fp + 16 + 16 * l.k + (c - 0x10)))
  else if c < 0x60 then some (.ring (l.fp + 16 + l.n + (c - 0x50)))
  else if c < 0x70 then some (.scalar (c - 0x60))
  else none

/-- The frame check of a register name on a lane (R89). -/
def nameOk (l : Lane) (n : BitVec 7) : Bool :=
  let c := n.toNat
  if 0x10 ≤ c ∧ c < 0x50 then decide (16 * l.k + (c - 0x10) < l.n)
  else if 0x50 ≤ c ∧ c < 0x60 then decide (l.n ≠ 0)
  else true

/-- The value a special reads (R54). -/
def special (e : Env) (j : Nat) (n : BitVec 7) : Word :=
  match n.toNat with
  | 0x71 => BitVec.ofNat 32 j
  | 0x72 => BitVec.ofNat 32 e.g.grp
  | 0x73 => BitVec.ofNat 32 e.t.teamx
  | 0x74 => BitVec.ofNat 32 e.t.teamy
  | 0x75 => BitVec.ofNat 32 e.t.teamz
  | 0x76 => BitVec.ofNat 32 e.t.rank
  | 0x77 => BitVec.ofNat 32 e.t.index
  | 0x78 => BitVec.ofNat 32 e.g.role
  | 0x79 => BitVec.ofNat 32 (e.g.lane j).fp
  | 0x7A => e.s.clk.extractLsb' 0 32
  | 0x7B => e.s.clk.extractLsb' 32 32
  | 0x7C => BitVec.ofNat 32 e.t.ctx
  | 0x7D => e.cs
  | 0x7E => 1
  | 0x7F => 0xFFFFFFFF#32
  | _ => 0

/-- The content of a place for lane j of a group (R92: absolute register x is row x mod b of the ring). -/
def Group.read (g : Group) (j : Nat) (p : Place) : Word :=
  match p with
  | .ring x => sget 0 (g.lane j).ring (x % g.budget)
  | .scalar i => sget 0 g.scalars i
  | .pred k => BitVec.ofNat 32 (natOf ((g.lane j).preds.getLsbD k))

/-- A place as a number, to tell free choices apart. -/
def Place.number (p : Place) : Nat :=
  match p with
  | .ring x => 4 * x
  | .scalar i => 4 * i + 1
  | .pred k => 4 * k + 2

/-- Whether a place is an s register. -/
def Place.isScalar (p : Place) : Bool :=
  match p with
  | .scalar _ => true
  | _ => false

/-- Whether a place is a destination of an open window of a lane (R57). -/
def Lane.awaits (l : Lane) (p : Place) : Bool := l.pend.any fun q => q.places.contains p

/-- The lanes on which a place is one: those of an issue for an s register, which they share, else the lane alone. -/
def Place.sharers (p : Place) (j : Nat) (lanes : List Nat) : List Nat := if p.isScalar then lanes else [j]

/-- The number by which free choices about a place tell lanes apart: one for all of them where it is an s register (R120). -/
def Place.chooser (p : Place) (j : Nat) : Nat := if p.isScalar then 32 else j

/-- The outstanding result of a place for lane j as far as it is known; for an s register that of any thread of the group (R120). -/
def Group.coming (g : Group) (j : Nat) (p : Place) : Option Word :=
  (((p.sharers j (List.range 32)).flatMap fun x => (g.lane x).pend.flatMap fun q => q.results).find? fun w =>
    decide (w.place = p)).map fun w => w.value

/-- The content of a place as an instruction reads it: where it is a destination of an open lookahead window whose result
is known, either the old or the new value, freely (R58, log 6); an s register that only another sub-group still awaits reads as
that result (R120). -/
def Env.readPlace (e : Env) (j : Nat) (p : Place) : Word :=
  match e.g.coming j p with
  | some v =>
    if !((p.sharers j (lanesOf e.cs)).any fun x => (e.g.lane x).awaits p) || Config.lookaheadNew e.s.now (p.chooser j) p.number
    then v else e.g.read j p
  | none => e.g.read j p

/-- The s register that an issue must wait for (R120): a source whose latest write is a result, not known yet, that only threads
outside the issue await. -/
def Env.unsettled (e : Env) (names : List (BitVec 7)) : Option Nat :=
  (List.range 16).find? fun i =>
    names.any (fun n => decide (n.toNat = 0x60 + i)) && (e.g.coming 0 (.scalar i)).isNone &&
      !((lanesOf e.cs).any fun x => (e.g.lane x).awaits (.scalar i)) &&
      (List.range 32).any fun x => (e.g.lane x).awaits (.scalar i)

/-- Reg(L, n) (R11). -/
def Env.reg (e : Env) (j : Nat) (n : BitVec 7) : Word :=
  match placeOf (e.g.lane j) n with
  | some p => e.readPlace j p
  | none => special e j n

/-- Pair(L, n) (R11, R53). -/
def Env.pair (e : Env) (j : Nat) (n : BitVec 7) : DWord :=
  if n = 0x70#7 then 0
  else if n = 0x7A#7 then e.s.clk
  else e.reg j (n + 1) ++ e.reg j n

/-- The immediate form of an address: pair A plus the signed immediate word (R184, R221). -/
def Env.address (e : Env) (f : Fields) (j : Nat) : DWord := e.pair j f.a + f.imm.signExtend 64

/-- Pred(L, k) (R11). -/
def Env.pred (e : Env) (j k : Nat) : Bool := (e.readPlace j (.pred k)).getLsbD 0

/-- The writes of SetReg(L, n, v) (R11); nothing for a special, which the static check turns away. -/
def Env.setReg (e : Env) (j : Nat) (n : BitVec 7) (v : Word) : List Write :=
  match placeOf (e.g.lane j) n with
  | some p => [{ place := p, value := v }]
  | none => []

/-- The writes of SetPair(L, n, v) (R11). -/
def Env.setPair (e : Env) (j : Nat) (n : BitVec 7) (v : DWord) : List Write :=
  e.setReg j n (v.extractLsb' 0 32) ++ e.setReg j (n + 1) (v.extractLsb' 32 32)

/-- The write of SetPred(L, k, b) (R11). -/
def setPred (k : Nat) (b : Bool) : List Write := [{ place := .pred k, value := BitVec.ofNat 32 (natOf b) }]

/-- The places of a destination register, or of a pair. -/
def Env.destPlaces (e : Env) (j : Nat) (n : BitVec 7) (isPair : Bool) : List Place :=
  let l := e.g.lane j
  (placeOf l n).toList ++ (if isPair then (placeOf l (n + 1)).toList else [])

/-- The guard of a lane (R11, R38): passes with GE = 0, or where the predicate differs from GS. -/
def Env.passes (e : Env) (f : Fields) (j : Nat) : Bool := !f.ge || (e.pred j f.gp.toNat != f.gs)

/-- Guarded(ConvSet()), ascending (R11). -/
def Env.guarded (e : Env) (f : Fields) : List Nat := (lanesOf e.cs).filter fun j => e.passes f j

/-- The predicate GP of a guard, as a place. -/
def guardPlaces (f : Fields) : List Place := if f.ge then [.pred f.gp.toNat] else []

/-- The register names a field of a form reads or writes (R89). -/
def namesOf (u : FieldUse) (v : BitVec 7) : List (BitVec 7) :=
  match u with
  | .src => [v]
  | .dst => [v]
  | .srcPair => if v.toNat < 0x70 then [v, v + 1] else [v]
  | .dstPair => [v, v + 1]
  | _ => []

/-- The predicates a field of a form reads or writes (R55). -/
def predsOf (u : FieldUse) (v : BitVec 7) : List Place :=
  match u with
  | .predSrc => [.pred v.toNat]
  | .predDst => [.pred v.toNat]
  | .predBoth => [.pred v.toNat]
  | _ => []

/-- The outs o0 to o15 as names. -/
def outNames : List (BitVec 7) := (List.range 16).map fun i => BitVec.ofNat 7 (0x50 + i)

/-- Every register name an instruction uses. -/
def allNames (u : Use) (f : Fields) : List (BitVec 7) :=
  namesOf u.d f.d ++ namesOf u.a f.a ++ namesOf u.b f.b ++ namesOf u.c f.c ++ (if u.outs then outNames else [])

/-- Every place an instruction reads or writes on a lane, the guard aside. -/
def allPlaces (u : Use) (f : Fields) (l : Lane) : List Place :=
  (allNames u f).filterMap (placeOf l) ++ predsOf u.d f.d ++ predsOf u.a f.a ++ predsOf u.b f.b ++ predsOf u.c f.c

/-- The register names an instruction reads through its fields. -/
def sourceNames (u : Use) (f : Fields) : List (BitVec 7) :=
  let of' (x : FieldUse) (v : BitVec 7) : List (BitVec 7) :=
    match x with
    | .src => namesOf x v
    | .srcPair => namesOf x v
    | _ => []
  of' u.d f.d ++ of' u.a f.a ++ of' u.b f.b ++ of' u.c f.c

/-- The destinations among them. -/
def destNames (u : Use) (f : Fields) : List (BitVec 7) :=
  match u.d with
  | .dst => namesOf u.d f.d
  | .dstPair => namesOf u.d f.d
  | _ => []

/-- The outs o0 to o15 of a lane as 64 bytes (R230). -/
def Env.outBytes (e : Env) (j : Nat) : List Byte := outNames.flatMap fun n => leBytes 4 (e.reg j n).toNat

/-! ## Writing -/

/-- A write into the registers and predicates of a lane itself; scalars belong to the group. -/
def Lane.put (l : Lane) (budget : Nat) (w : Write) : Lane :=
  match w.place with
  | .ring x => { l with ring := sput 0 l.ring (x % budget) w.value }
  | .scalar _ => l
  | .pred k =>
    { l with preds := if w.value.getLsbD 0 then l.preds ||| BitVec.ofNat 16 (2 ^ k)
                      else l.preds &&& ~~~(BitVec.ofNat 16 (2 ^ k)) }

/-- Writes into a lane, in order. -/
def Lane.putAll (l : Lane) (budget : Nat) (ws : List Write) : Lane := ws.foldl (fun l w => l.put budget w) l

/-- Scalar writes into a group. -/
def putScalars (scalars : Sparse Word) (ws : List Write) : Sparse Word :=
  ws.foldl (fun m w =>
    match w.place with
    | .scalar i => sput 0 m i w.value
    | _ => m) scalars

/-- An outstanding result without the places that satisfy a test. -/
def Pending.without (q : Pending) (gone : Place → Bool) : Pending :=
  { q with places := q.places.filter fun p => !gone p, results := q.results.filter fun w => !gone w.place }

/-- Whether a write to a place by an instruction on some lanes stands against the outstanding results of the place: freely one or
the other where it breaches a window (R58, log 6), always for an s register that only other sub-groups await (R120). -/
def Group.keeps (g : Group) (now : Nat) (lanes : List Nat) (j : Nat) (p : Place) : Bool :=
  !((p.sharers j lanes).any fun x => (g.lane x).awaits p) || Config.lookaheadKeep now (p.chooser j) p.number

/-- The outstanding results of a lane leave places alone that a later write has taken over (R58, R120). -/
def Lane.supersede (l : Lane) (gone : List Place) : Lane :=
  match l.pend with
  | [] => l
  | ps => { l with pend := ps.map fun q => q.without gone.contains }

/-- Results of one access arrive for a lane's outstanding instruction (R57, R193); destinations that a later write has taken
over are left alone. -/
def Lane.deliver (l : Lane) (pid : Nat) (ws : List Write) : Lane :=
  { l with pend := l.pend.map fun q =>
      if q.id = pid then
        { q with waits := q.waits - 1, results := q.results ++ ws.filter fun w => q.places.contains w.place }
      else q }

/-- One more instruction of a thread has issued inside its windows (R57), and a refill that it asked for has been used (R108,
R118). -/
def Lane.countDown (l : Lane) : Lane := { l with pend := l.pend.map fun q => { q with left := q.left - 1 }, filling := false }

/-- The state of a thread that may go on: stalled at the end of a lookahead window, else ready with a stamp. -/
def Lane.settle (l : Lane) (stamp : Nat) : Lane :=
  if l.pend.any fun q => q.left == 0 then { l with status := .stalled false }
  else { l with status := .ready, stamp := stamp }

/-- The program counter moves past an m-word instruction (R69); a new line is yet to be entered. -/
def Lane.advance (l : Lane) (m : Nat) : Lane :=
  let p := nextPC l.pc m
  { l with pc := p, fetch := if lineBase p = lineBase l.pc then l.fetch else .fallThrough l.pc }

end Sys2Proof.Machine
end

