-- ==== Sys2Proof/Machine/Records.lean ====
section
/-! DEFINITION. Error records (R337 to R341), the end of threads, groups and teams (R85, R111, R112, R347), the halt of a
context (R342), and the notifications of the host (R400). -/

namespace Sys2Proof.Machine

/-- The kind codes of R339. -/
abbrev illegalInstruction : Nat := 0x01

abbrev lookaheadViolation : Nat := 0x02

abbrev lineKind : Nat := 0x03

abbrev lineFrame : Nat := 0x04

abbrev branchTarget : Nat := 0x05

abbrev stackOverflow : Nat := 0x06

abbrev frameBudget : Nat := 0x07

abbrev arenaFault : Nat := 0x08

abbrev addressFault : Nat := 0x09

abbrev misaligned : Nat := 0x0A

abbrev accessViolation : Nat := 0x0B

abbrev shadowQuota : Nat := 0x0C

abbrev bufferState : Nat := 0x0D

abbrev bufferBounds : Nat := 0x0E

abbrev bufferDecl : Nat := 0x0F

abbrev tagSet : Nat := 0x10

abbrev atomicScope : Nat := 0x11

abbrev rankInvalid : Nat := 0x12

abbrev formatSlotInvalid : Nat := 0x13

abbrev satOverflow : Nat := 0x14

abbrev barrierCount : Nat := 0x15

abbrev emberInvalid : Nat := 0x16

abbrev engineCommand : Nat := 0x17

abbrev tileInvalid : Nat := 0x18

abbrev matrixParam : Nat := 0x19

abbrev privilege : Nat := 0x1A

abbrev trapKind : Nat := 0x1B

abbrev breakpoint : Nat := 0x1C

abbrev rankMismatch : Nat := 0x20

abbrev rankStall : Nat := 0x21

abbrev barrierOverrun : Nat := 0x22

abbrev joinUnderflow : Nat := 0x23

abbrev collMismatch : Nat := 0x24

abbrev collStall : Nat := 0x25

abbrev accordInvalid : Nat := 0x26

abbrev uncorrectable : Nat := 0x30

abbrev teamKilled : Nat := 0x31

abbrev silentData : Nat := 0x32

abbrev auditInconclusive : Nat := 0x33

abbrev suspectOutput : Nat := 0x34

abbrev errorRaised : Nat := 0x35

/-- The KIND word of a record (R337): kind, the first kind of a double trap, FATAL, DOUBLE. -/
def kindWord (kind first : Nat) (fatal double : Bool) : Word :=
  BitVec.ofNat 32 (kind + 256 * first + 65536 * natOf fatal + 131072 * natOf double)

/-- FATAL of a KIND word. -/
def isFatal (k : Word) : Bool := k.getLsbD 16

/-- A record on its way to its context's queue (R338). -/
def State.addRecord (s : State) (r : ErrorRecord) : State := { s with records := s.records ++ [r] }

/-- The WHERE word of a group: core and group slot (R337). -/
def Group.whereWord (g : Group) : Word := BitVec.ofNat 32 (g.core + 256 * g.slot)

/-- The record of a fault of lanes of a group (R337 to R339). -/
def State.faultRecord (s : State) (g : Group) (t : Team) (lanes : LaneMask) (i : FaultInfo) (pc : DWord) (first : Nat)
    (fatal double : Bool) : ErrorRecord :=
  { ctx := t.ctx, tid := t.id, gid := some g.id, kind := kindWord i.kind first fatal double, pc, addr := i.addr, lanes, info := i.info,
    whereWord := g.whereWord, team := BitVec.ofNat 32 t.index, time := s.clk, aux := i.aux, aux2 := i.aux2 }

/-- The record of an event of a team without an instruction. -/
def State.eventRecord (s : State) (t : Team) (i : FaultInfo) (fatal : Bool) : ErrorRecord :=
  { ctx := t.ctx, tid := t.id, kind := kindWord i.kind 0 fatal false, addr := i.addr, info := i.info,
    whereWord := BitVec.ofNat 32 t.core, team := BitVec.ofNat 32 t.index, time := s.clk, aux := i.aux, aux2 := i.aux2 }

/-- The record of an event of a context that concerns no team (R337). -/
def contextRecord (c : Nat) (i : FaultInfo) (clk : DWord) : ErrorRecord :=
  { ctx := c, kind := kindWord i.kind 0 false false, addr := i.addr, info := i.info, time := clk }

/-! ## Devices out of reach (R405) -/

/-- One second in nanoseconds of real time (R405). -/
def oneSecond : Nat := 1000000000

/-- The fault of a request to a device without a usable port (R405). -/
def unreachable (a : DWord) : FaultInfo := { kind := accessViolation, addr := a, info := 4 }

/-- Whether a second has passed since a device became unreachable (R405). -/
def State.overdue (s : State) (since : Nat) : Bool := decide (since + oneSecond ≤ s.real)

/-- A unit that does not wait for another device, or no longer. -/
def State.notAway (s : State) (k : Away) : State := { s with aways := s.aways.filter fun e => !(e.1 == k) }

/-- A unit waits for a device without a usable port, from now on or since before; after 1 s its request is over with an error
(R405). -/
def State.awayTurn (s : State) (k : Away) (over' : State → State) : State :=
  match s.aways.find? fun e => e.1 == k with
  | none => { s with aways := s.aways ++ [(k, s.real)] }
  | some e => if s.overdue e.2 then over' (s.notAway k) else s

/-- An MSI-X vector is raised (R381, R400). -/
def State.raise (s : State) (vector : Nat) : State :=
  { s with host := { s.host with vectors := s.host.vectors ++ [vector] } }

/-! ## Masks, exits, groups -/

/-- Mask(k) (R11, R84). -/
def Group.mask (g : Group) (k : Nat) : Word := sget 0 g.masks k

/-- SetMask(k, m) (R11). -/
def Group.setMask (g : Group) (k : Nat) (m : Word) : Group := { g with masks := sput 0 g.masks k m }

/-- Whether lane j of a group waits on mask register k. -/
def Group.waitsOn (g : Group) (k j : Nat) : Bool := decide ((g.lane j).status = .waiting (.mask k))

/-- The release condition of Mk (R85). -/
def Group.releases (g : Group) (k : Nat) : Bool :=
  decide (g.mask k ≠ 0) && (lanesOf (g.mask k)).all fun j => g.waitsOn k j

/-- The release evaluation of Mk (R85): every waiter where the condition is met, else each waiter whose bit is clear. -/
def Group.releaseMask (g : Group) (k stamp : Nat) : Group :=
  let all := g.releases k
  g.mapLanes fun j l =>
    if l.status = .waiting (.mask k) ∧ (all ∨ !(g.mask k).getLsbD j) then
      { l.advance 2 with status := .ready, stamp }
    else l

/-- The release evaluation of every mask register. -/
def Group.releaseMasks (g : Group) (stamp : Nat) : Group :=
  (List.range 12).foldl (fun g k => g.releaseMask k stamp) g

/-- The pool areas of a group go back to its context's pool, once (R398). -/
def State.freeAreas (s : State) (t : Team) (g : Group) : State :=
  if ((s.group? g.id).map fun x => x.freed).getD true then s
  else
    let mine (base : Nat) : Bool := base == g.arena.toNat || base == g.saveArea.toNat || (t.rst && base == g.phaseArena.toNat)
    (s.mapCtx t.ctx fun x => { x with poolUsed := x.poolUsed.filter fun e => !mine e.1 }).mapGroup g.id
      fun g => { g with freed := true }

/-- A group whose last thread has exited ends (R112); the areas of a restartable team are kept until its next commit,
since a rollback needs them (R344, R349). -/
def State.endGroup (s : State) (t : Team) (g : Group) : State :=
  let s := s.mapGroup g.id fun g => { g with ended := true, resident := false }
  if t.rst then s else s.freeAreas t g

/-- After threads of a group have exited: the end of the group and of its team (R112). -/
def State.checkEnd (s : State) (gid : Nat) : State :=
  match s.group? gid with
  | none => s
  | some g =>
    if g.ended || !g.live.isEmpty then s
    else
      match s.team? g.team with
      | none => s
      | some t =>
        let s := s.endGroup t g
        if (s.teamGroups t.id).isEmpty then s.mapTeam t.id fun t => { t with exit := .ending } else s

/-! ## Keys -/

/-- Release of every key a holder (a team or a cluster) holds: its release time is now (R172 Release, R245). -/
def State.releaseKeys (s : State) (holder : Nat) : State :=
  let mine := s.keys.filter fun k => k.holder == some holder
  { s with keys := (s.keys.map fun k => if k.holder == some holder then { k with holder := none } else k).filter
                     fun k => k.holder.isSome || k.mark.isSome,
           releases := (mine.map fun k => (k.ctx, k.key, s.now)) ++ s.releases }

/-- Whether every member of a cluster has started and exited. -/
def State.clusterDone (s : State) (c : Cluster) : Bool :=
  decide (c.members.length = c.cx * c.cy) &&
    c.members.all fun e => ((s.team? e.2).map fun t => decide (t.exit = .gone)).getD true

/-! ## Cluster barriers -/

/-- Whether every unexited thread of a team has its arrival flag for cluster barrier c set, with a thread left (R227). -/
def State.teamArrived (s : State) (tid c : Nat) : Bool :=
  let ls := (s.teamGroups tid).flatMap fun g => g.live.map fun j => g.lane j
  !ls.isEmpty && ls.all fun l => (sget {} l.arrivals c).flag

/-- Whether a member has exited for the purpose of a cluster barrier (R227, R349). -/
def State.memberExited (s : State) (tid : Nat) : Bool :=
  ((s.team? tid).map fun t => decide (t.exit ≠ .running)).getD true

/-- CLUSTER_PHASE_INVERT (R227): when every member has arrived or exited, the phase bit inverts. -/
def State.clusterTurn (s : State) (cid c : Nat) : State :=
  match s.cluster? cid with
  | none => s
  | some k =>
    let arrived := sget [] k.arrived c
    if (List.range (k.cx * k.cy)).all fun r =>
        arrived.contains r || (k.members.any fun e => e.1 == r && s.memberExited e.2) then
      if arrived.isEmpty then s
      else s.mapCluster cid fun k =>
        { k with phases := sput false k.phases c (!sget false k.phases c), arrived := sput [] k.arrived c [] }
    else s

/-- The phase bit of a team's cluster barrier c (R227, R251). -/
def State.clusterPhase (s : State) (t : Team) (c : Nat) : Bool :=
  match t.cluster.bind s.cluster? with
  | some k => sget false k.phases c
  | none => sget false t.phases c

/-- A team whose threads have all arrived on barrier c arrives, and its flags clear (R227). A team that is no member of a
cluster is a cluster of one (R251). -/
def State.clusterArrive (s : State) (tid c : Nat) : State :=
  match s.team? tid with
  | none => s
  | some t =>
    if !s.teamArrived tid c then s
    else
      let clear (l : Lane) : Lane :=
        { l with arrivals := sput {} l.arrivals c { sget {} l.arrivals c with flag := false } }
      let s := s.mapGroups fun g => if g.team = tid then g.mapLanes fun _ l => clear l else g
      match t.cluster with
      | none => s.mapTeam tid fun t => { t with phases := sput false t.phases c (!sget false t.phases c) }
      | some cid =>
        let s := s.mapCluster cid fun k =>
          { k with arrived := sput [] k.arrived c ((sget [] k.arrived c) ++ [t.rank]) }
        s.clusterTurn cid c

/-- Every barrier of a cluster evaluated, after a member has exited (R227). -/
def State.clusterTurns (s : State) (cid : Nat) : State := (List.range 4).foldl (fun s c => s.clusterTurn cid c) s

/-! ## Kill and halt -/

/-- Whether a slice of a core's cache has a tag (R304). -/
def Slice.hasTag (x : Slice) (ctx : Nat) (tbase : DWord) (accord origin : Nat) : Bool :=
  x.ctx == ctx && x.tbase == tbase && x.accord == accord && x.origin == origin

/-- The slices that running operations of a core use (R304). -/
def State.slicesInUse (s : State) (core : Nat) : List Slice :=
  (s.teams.filter fun t => t.core == core).flatMap fun t => t.matrix.queue.flatMap fun m => m.got

/-- Whether a running operation of a core uses a slice (R304). -/
def State.sliceInUse (s : State) (core : Nat) (x : Slice) : Bool :=
  (s.slicesInUse core).any fun y => y.hasTag x.ctx x.tbase x.accord x.origin

/-- The slices of a core's cache that AINV has dropped and that no operation uses any more leave it (R304, R320). -/
def State.releaseSlices (s : State) (core : Nat) : State :=
  if (s.core core).accords.any fun x => x.dropped then
    s.mapCore core fun c => { c with accords := c.accords.filter fun x => !x.dropped || s.sliceInUse core x }
  else s

/-- Whether an access is the drop of AINV on its way to the caches. -/
def Op.isDrop (o : Op) : Bool :=
  match o.access with
  | .accordDrop _ _ _ _ => true
  | _ => false

/-- The pending accesses of a team's threads are discarded; the drops that they have issued stand (R320). -/
def State.dropOps (s : State) (tid : Nat) : State := { s with ops := s.ops.filter fun o => !(o.team == tid) || o.isDrop }

/-- Whether buffer b of a team is held by a command or operation of any team (R199). -/
def State.held (s : State) (tid b : Nat) : Bool :=
  s.teams.any fun t =>
    (t.engines.any fun e => e.2.queue.any fun c => c.holds.contains (tid, b)) ||
      t.matrix.queue.any fun m => m.holds.contains (tid, b)

/-- ENG of some buffers set as commands hold them (R199). -/
def State.updateEng (s : State) (bs : List (Nat × Nat)) : State :=
  bs.foldl (fun s e =>
    let eng := s.held e.1 e.2
    s.mapTeam e.1 fun t => if t.buffers.any fun x => x.1 == e.2 then t.setBuffer e.2 (withEng (t.buffer e.2) eng) else t) s

/-- ENG cleared of every buffer that nothing holds any more (R199, R347). -/
def State.dropHolds (s : State) : State :=
  { s with teams := s.teams.map fun t =>
      { t with buffers := t.buffers.map fun e => if s.held t.id e.1 then e else (e.1, withEng e.2 false) } }

/-- TEAM_KILL (R347): groups end; B[T], shadow lines and commands are dropped; keys are released without a commit, those of
a clustered ember when its last member ends; no join decrement; a fatal TeamKilled record with the kind that caused it. -/
def State.killTeam (s : State) (tid kind : Nat) : State :=
  match s.team? tid with
  | none => s
  | some t =>
    if t.exit = .gone then s
    else
      let gs := s.groups.filter fun g => g.team == tid
      let s := gs.foldl (fun s g => s.freeAreas t g) s
      let s := s.dropOps tid
      let finish (g : Group) : Group :=
        { g.mapLanes (fun _ l => { l with status := .exited, pend := [], timer := none, faulting := none }) with
          ended := true, resident := false }
      let s := s.mapGroups fun g => if g.team = tid then finish g else g
      let s := s.mapTeam tid fun t =>
        { t with store := [], overflow := [], engines := [], matrix := { t.matrix with queue := [], shadow := [], lines := [] },
                 exit := .gone }
      let s := s.dropHolds.releaseSlices t.core
      let i : FaultInfo := { kind := teamKilled, info := BitVec.ofNat 32 kind, aux := t.join, aux2 := t.entry }
      let s := s.addRecord (s.eventRecord t i true)
      match t.cluster with
      | none => s.releaseKeys tid
      | some cid =>
        let s := s.clusterTurns cid
        match s.cluster? cid with
        | some k => if s.clusterDone k then s.releaseKeys cid else s
        | none => s

/-- CONTEXT_HALT (R342): every team of the context is stopped as by pre-emption and not resumed; the Hearth is notified, and
the host through vector c (R400). -/
def State.haltContext (s : State) (c : Nat) : State :=
  let s := s.mapCtx c fun x => { x with halted := true }
  let stop (t : Team) : Team := if t.ctx = c then { t with stopped := true } else t
  let s := { s with teams := s.teams.map stop }
  ({ s with host := { s.host with notified := s.host.notified ++ [c] } }).raise c

end Sys2Proof.Machine
end

