-- ==== Sys2Proof/Machine/Lines.lean ====
section
/-! DEFINITION. Fetch lines (R66 to R70): reading a line through translation and the instruction cache, its checks, branch
targets, and the instruction at an address of a line. -/

namespace Sys2Proof.Machine

/-- Word i of a line. -/
def Line.word (l : Line) (i : Nat) : Word := l.words.getD i 0

/-- START bit i (R66). -/
def Line.start (l : Line) (i : Nat) : Bool := i < 30 && (l.word 0).getLsbD i

/-- TARGET bit i (R66). -/
def Line.target (l : Line) (i : Nat) : Bool := i < 30 && (l.word 1).getLsbD i

/-- The length m in words of the instruction at slot i: the distance to the next START bit, or 30 - i (R67). -/
def Line.length (l : Line) (i : Nat) : Nat :=
  match (List.range 30).find? fun k => decide (i < k) && l.start k with
  | some k => k - i
  | none => 30 - i

/-- The length check of R67 for the instruction at start slot i. -/
def Line.lengthOk (l : Line) (i : Nat) : Bool :=
  let m := l.length i
  let w := l.word (2 + i)
  let long := decide (0x18 ≤ (majorOf w).toNat)
  !(m == 1 && long) &&
    !(m == 2 && long && hasImmediate (majorOf w).toNat (minorOf (l.word (3 + i))).toNat) && decide (m ≤ 3)

/-- The first check of R67. -/
def Line.kindOk (l : Line) : Bool := (l.word 1).extractLsb' 30 2 == 0#2

/-- The second check of R67. -/
def Line.frameOk (l : Line) : Bool :=
  (l.word 0).extractLsb' 30 2 == 0#2 && l.start 0 &&
    ((List.range 30).all fun i => !l.target i || l.start i) &&
    (List.range 30).all fun i => !l.start i || l.lengthOk i

/-- R68: a target address passes; entry asks for slot 0 too. -/
def Line.targetOk (l : Line) (p : DWord) (entry : Bool) : Bool :=
  match slotOf p with
  | none => false
  | some i => l.target i && (!entry || i == 0)

/-- The 32 little-endian words of a line of M. -/
def State.lineWords (s : State) (place : Nat) : List Word :=
  (List.range 32).map fun i => BitVec.ofNat 32 (s.readNat (place + 4 * i) 4)

/-- How an entry names its target (R67): not at all, as a branch, or as a call or ember entry. -/
inductive TargetCheck where
  | none
  | branch
  | call
  deriving DecidableEq, Repr

/-- The outcome of entering a line (R67). -/
inductive LineEntry where
  | ok (line : Line)
  | absent
  | waits (place : Nat)
  | bad (i : FaultInfo)
  deriving DecidableEq, Repr

/-- The checks of R67 and R68 on a line that has been read (log 20). -/
def checkLine (l : Line) (p : DWord) (check : TargetCheck) : LineEntry :=
  if !l.kindOk then .bad { kind := lineKind, addr := p }
  else if !l.frameOk then .bad { kind := lineFrame, addr := p }
  else
    match check with
    | .none => if (slotOf p).isNone then .bad { kind := lineFrame, addr := p } else .ok l
    | .branch => if l.targetOk p false then .ok l else .bad { kind := branchTarget, addr := p }
    | .call => if l.targetOk p true then .ok l else .bad { kind := branchTarget, addr := p }

/-- The key of a line in an instruction cache: address space, line address, and the place its page gives it. -/
def lineKey (asid : Nat) (p : DWord) (place : Nat) : Nat := (place * 2 ^ 8 + asid) * 2 ^ 64 + (lineBase p).toNat

/-- A line, read through translation: as the core's instruction cache holds it, or as it is in M (R67, R70). -/
def State.readLine (s : State) (c core : Nat) (p : DWord) : LineEntry :=
  let base := lineBase p
  match s.translate c core none base 2 with
  | .denied => .bad { kind := accessViolation, addr := p, info := 2 }
  | .absent => .absent
  | .waits place => .waits place
  | .ok place _ =>
    match (s.core core).icache.find? fun e => e.1 == lineKey (s.ctx c).asid p place with
    | some e => .ok e.2
    | none =>
      match s.home place with
      | .waiting => .waits place
      | .failed => .bad { kind := accessViolation, addr := p, info := 2 }
      | .ready => .ok { base, words := s.lineWords place }

/-- Entry into the line of an address: bits [63:56] must be zero (R106), then translation, then R67 and R68 (log 20). -/
def State.enterLine (s : State) (c core : Nat) (p : DWord) (check : TargetCheck) : LineEntry :=
  if p.toNat / 2 ^ 56 ≠ 0 then .bad { kind := branchTarget, addr := p }
  else
    match s.readLine c core p with
    | .ok l => checkLine l p check
    | r => r

/-- A line read for a core stands in its instruction cache until the cache is invalidated (R70). -/
def State.cacheLine (s : State) (c core : Nat) (l : Line) : State :=
  match s.translate c core none l.base 2 with
  | .ok place _ =>
    let key := lineKey (s.ctx c).asid l.base place
    if (s.core core).icache.any fun e => e.1 == key then s
    else s.mapCore core fun k => { k with icache := (key, l) :: k.icache }
  | _ => s

/-- The entry of a transferring instruction of a thread that holds a line: a target in the held line needs no reading
again (R67: the first time a program counter enters a line). -/
def State.transfer (s : State) (c core : Nat) (l : Lane) (p : DWord) (check : TargetCheck) : LineEntry :=
  match l.fetch with
  | .held line =>
    if line.base = lineBase p ∧ p.toNat / 2 ^ 56 = 0 then checkLine line p check else s.enterLine c core p check
  | _ => s.enterLine c core p check

/-- The words of the instruction at an address of a line: base, extension and immediate word, and its length m. -/
def Line.wordsAt (l : Line) (p : DWord) : Option (Word × Word × Word × Nat) :=
  (slotOf p).map fun i =>
    let m := l.length i
    (l.word (2 + i), if m ≥ 2 then l.word (3 + i) else 0, if m ≥ 3 then l.word (4 + i) else 0, m)

/-- The instruction at an address of a line with its length. -/
def Line.instrAt (l : Line) (p : DWord) : Option (Instr × Nat) :=
  (l.wordsAt p).map fun w => (decodeWords w.1 w.2.1 w.2.2.1, w.2.2.2)

/-- The length in words of the instruction at a thread's program counter, as far as the thread holds its line. -/
def Lane.words (l : Lane) : Nat :=
  match l.fetch with
  | .held line => ((line.wordsAt l.pc).map fun w => w.2.2.2).getD 1
  | _ => 1

end Sys2Proof.Machine
end

