-- ==== Sys2Proof/Machine/Frames.lean ====
section
/-! DEFINITION. Frames in the register ring and in the arenas (R87, R91 to R93, R95 to R98, R345): the chain of frames, arena
addresses, moving frames to and from memory, and the save area (R350). -/

namespace Sys2Proof.Machine

/-! ## The chain of frames -/

/-- NQ, WK and RPC of a link entry (R91). -/
def linkNq (e : DWord) : Nat := bitsOf e.toNat 60 4

def linkWk (e : DWord) : Nat := bitsOf e.toNat 56 4

def linkRpc (e : DWord) : DWord := BitVec.ofNat 64 (bitsOf e.toNat 0 56)

/-- A link entry (R91). -/
def makeLink (nq wk : Nat) (rpc : DWord) : DWord :=
  BitVec.ofNat 64 (nq * 2 ^ 60 + wk * 2 ^ 56 + bitsOf rpc.toNat 0 56)

/-- The link entry of depth d; an entry that nothing wrote reads 0. -/
def Lane.link (l : Lane) (d : Nat) : DWord := sget 0 l.links d

/-- Where the frame below a frame at fp starts, by the link entry of its depth (R87). -/
def frameBelow (fp : Nat) (e : DWord) : Nat :=
  if linkNq e ≠ 0 then fp - 16 - 16 * linkNq e
  else if linkWk e = 0 then fp - 16
  else fp - 32 - 16 * linkWk e

/-- The resident frames of a lane from a frame down to the lowest, as base and depth (R87, R95). -/
def framesFrom (l : Lane) (fp depth : Nat) : List (Nat × Nat) :=
  match depth with
  | 0 => [(fp, 0)]
  | d + 1 => if fp ≤ l.lo then [(fp, d + 1)] else (fp, d + 1) :: framesFrom l (frameBelow fp (l.link (d + 1))) d

/-- The resident frames of a lane, current frame first. -/
def Lane.frames (l : Lane) : List (Nat × Nat) := framesFrom l l.fp l.depth

/-- The frames of a lane as the spill engine sees them: while a trap entry waits for room, the interrupted frame lies below that
of the handler, which starts at hi (R95, R330). -/
def Lane.spillFrames (l : Lane) : List (Nat × Nat) :=
  match l.status with
  | .waiting (.handler _ _ _) => (l.hi, l.depth + 1) :: l.frames
  | _ => l.frames

/-- The register up to which FSPILL with q spills the frames below the current one (R117); none where no more than q are
resident. -/
def Lane.spillTarget (l : Lane) (q : Nat) : Option Nat :=
  if q < l.frames.length - 1 then (l.frames[q]?).map fun e => e.1 else none

/-- What is asked of the spill engine after FSPILL with q: the further of the request it makes and one that is still to be met
(R117). -/
def Lane.spillRequest (l : Lane) (q : Nat) : Option Nat :=
  match l.spillTarget q, l.spillTo with
  | some x, some y => some (max x y)
  | some x, none => some x
  | none, y => y

/-- A request of FSPILL once fp or lo has changed: the frames it means lie below the current one (R117). -/
def Lane.settleSpill (l : Lane) : Lane :=
  { l with spillTo := (l.spillTo.map (min l.fp)).filter fun x => decide (l.lo < x) }

/-- The depth of the lowest resident frame: the number of frames held only in the arena (R116). -/
def Lane.lowDepth (l : Lane) : Nat := ((l.frames.getLast?).map fun e => e.2).getD 0

/-- Free space of a lane (R92). -/
def Lane.free (l : Lane) (budget : Nat) : Nat := budget - (l.hi - l.lo)

/-- The refill FFILL still waits for (R118): base and depth of the next frame below the resident ones; none once q frames
below the current one are resident, every frame is, or the next would not fit. -/
def Lane.nextFill (l : Lane) (budget q : Nat) : Option (Nat × Nat) :=
  let low := l.lowDepth
  let base := frameBelow l.lo (l.link low)
  if q ≤ l.frames.length - 1 ∨ low = 0 ∨ budget < l.hi - base then none else some (base, low - 1)

/-- The spill watermark in registers; 0 acts as 1 (R94). -/
def Group.spillMark (g : Group) : Nat := 16 * (if g.spwm = 0 then 1 else g.spwm)

/-! ## Arena addresses -/

/-- The arena line of register x, and of the link entry of depth d for lane L (R345). -/
def Group.linkLine (g : Group) (d j : Nat) : Nat := g.kmax + 2 * d + j / 16

/-- The byte address of an arena line's first byte in the copy named by a bit (R93, R345): 1 names the frame arena and 0 the
phase arena, so that spills before the first commit write the frame arena, as R264's run shows (log 16, DEDUCED). -/
def Group.lineAddr (g : Group) (line : Nat) (copy : Bool) : DWord :=
  (if copy then g.arena else g.phaseArena) + BitVec.ofNat 64 (128 * line)

/-- Whether an address lies in the arenas of a group, both for a restartable team (R93, R345). -/
def Group.inArena (g : Group) (rst : Bool) (a : DWord) : Bool :=
  let within (base : DWord) : Bool := decide (base.toNat ≤ a.toNat ∧ a.toNat < base.toNat + 136 * g.kmax)
  within g.arena || (rst && within g.phaseArena)

/-- The offset within its line of lane L's register, and of its link entry. -/
def regOffset (j : Nat) : Nat := 4 * j

def linkOffset (j : Nat) : Nat := 8 * (j % 16)

/-- The copy a refill reads: the one current names, for a restartable team (R345), else the frame arena. -/
def Group.readCopy (g : Group) (rst : Bool) (line : Nat) : Bool := !rst || sget false g.current line

/-- The copy a spill writes: the one frozen does not name, for a restartable team (R345), else the frame arena. -/
def Group.writeCopy (g : Group) (rst : Bool) (line : Nat) : Bool := !rst || !sget false g.frozen line

/-! ## Moving lines -/

/-- What reaching the arena pages of some lines gives: the first trouble, if any. -/
inductive Reach where
  | ok
  | absent (va : DWord)
  | denied (va : DWord)
  /-- A home on the way is not ready yet (R37). -/
  | waits
  deriving DecidableEq, Repr

/-- Translation of an address for a device access of a group (R37). -/
def State.reachOne (s : State) (c core : Nat) (va : DWord) (access : Nat) : Reach :=
  match s.translate c core none va access with
  | .ok place _ =>
    match s.home place with
    | .ready => .ok
    | .waiting => .waits
    | .failed => .denied va
  | .absent => .absent va
  | .denied => .denied va
  | .waits _ => .waits

/-- The first trouble among addresses. -/
def State.reach (s : State) (c core : Nat) (vas : List DWord) (access : Nat) : Reach :=
  vas.foldl (fun r va => if r = .ok then s.reachOne c core va access else r) .ok

/-- The first of some addresses that lies on a device without a usable port (R405). -/
def State.awayOf (s : State) (c core : Nat) (vas : List DWord) (access : Nat) : Option DWord :=
  vas.find? fun va =>
    match s.translate c core none va access with
    | .ok place _ => isRemote place && decide (s.home place = .waiting)
    | _ => false

/-- What an access by a device has to wait for, if anything: a page to ask for, or none where a home is not ready (R37). -/
def Reach.blocked (r : Reach) : Option (Option DWord) :=
  match r with
  | .absent va => some (some va)
  | .waits => some none
  | _ => none

/-- The place of an address for a device access; 0 where it does not translate. -/
def State.placeFor (s : State) (c core : Nat) (va : DWord) (access : Nat) : Nat :=
  match s.translate c core none va access with
  | .ok place _ => place
  | _ => 0

/-- Where a lane's registers a to b - 1 stand, and its link entry of depth d unless d is 0: line and offset in the line. -/
def Group.linesOf (g : Group) (j a b d : Nat) : List (Nat × Nat) :=
  ((List.range (b - a)).map fun i => (a + i, regOffset j)) ++ (if d = 0 then [] else [(g.linkLine d j, linkOffset j)])

/-- One spilled item of a lane: its line, the offset in the line, and its bytes. -/
def Group.spillItems (g : Group) (j a b d : Nat) : List (Nat × Nat × List Byte) :=
  let l := g.lane j
  ((List.range (b - a)).map fun i =>
      (a + i, regOffset j, leBytes 4 (sget 0 l.ring ((a + i) % g.budget)).toNat)) ++
    (if d = 0 then [] else [(g.linkLine d j, linkOffset j, leBytes 8 (l.link d).toNat)])

/-- One item written to the copy R345 names, bypassing store buffer and phase machine (R98). Where the copy changes, the
other lanes' bytes of the line come along, so that a refill still returns each lane's last spill (R98, log 16). -/
def State.spillItem (s : State) (gid c core : Nat) (rst : Bool) (item : Nat × Nat × List Byte) : State :=
  match s.group? gid with
  | none => s
  | some g =>
    let line := item.1
    let copy := g.writeCopy rst line
    let base := s.placeFor c core (g.lineAddr line copy) 1
    let s :=
      if rst && sget false g.current line != copy then
        let from' := s.placeFor c core (g.lineAddr line (sget false g.current line)) 0
        let s := s.writeBytes (placed base (s.bytes from' 128))
        s.mapGroup gid fun g => { g with current := sput false g.current line copy }
      else s
    s.writeBytes (placed (base + item.2.1) item.2.2)

/-- Items written in order. -/
def State.spillAll (s : State) (gid c core : Nat) (rst : Bool) (items : List (Nat × Nat × List Byte)) : State :=
  items.foldl (fun s i => s.spillItem gid c core rst i) s

/-- The addresses a spill into a line at an offset needs (R345): in the copy it writes and, where the copy changes, in the one whose
other bytes come along (log 16). -/
def Group.lineTargets (g : Group) (rst : Bool) (line offset : Nat) : List DWord :=
  let w := g.writeCopy rst line
  let at' (copy : Bool) : DWord := g.lineAddr line copy + BitVec.ofNat 64 offset
  if rst && sget false g.current line != w then [at' w, at' (sget false g.current line)] else [at' w]

/-- The addresses a spill of registers a to b - 1 and link d needs. -/
def Group.spillAddrs (g : Group) (rst : Bool) (j a b d : Nat) : List DWord :=
  (g.linesOf j a b d).flatMap fun n => g.lineTargets rst n.1 n.2

/-- The addresses a refill of registers a to b - 1 and link d reads. -/
def Group.refillAddrs (g : Group) (rst : Bool) (j a b d : Nat) : List DWord :=
  (g.linesOf j a b d).map fun n => g.lineAddr n.1 (g.readCopy rst n.1) + BitVec.ofNat 64 n.2

/-- A lane with registers a to b - 1 and link d as the arena holds them. -/
def State.refillLane (s : State) (g : Group) (c core : Nat) (rst : Bool) (j a b d : Nat) (l : Lane) : Lane :=
  let value (line offset n : Nat) : Nat :=
    s.readNat (s.placeFor c core (g.lineAddr line (g.readCopy rst line)) 0 + offset) n
  let rows := (List.range (b - a)).map fun i => ((a + i) % g.budget, BitVec.ofNat 32 (value (a + i) (regOffset j) 4))
  { l with ring := sputAll 0 l.ring rows,
           links := if d = 0 then l.links
                    else sput 0 l.links d (BitVec.ofNat 64 (value (g.linkLine d j) (linkOffset j) 8)) }

/-! ## The save area -/

/-- The code of a thread's state in a save area (R350 offset 0x48, R79): the state's number in the order of R79's table, and
the object waited on. -/
def Lane.stateCode (l : Lane) : Nat :=
  match l.status with
  | .ready => 0
  | .stalled _ => 1
  | .waiting (.mask k) => 2 + 256 * k
  | .waiting (.cluster c _) => 2 + 256 * c
  | .waiting (.engine q _) => 2 + 256 * q
  | .waiting w => if w.interlock then 1 else 2
  | .parked _ => 3
  | .exited => 4

/-- The address waited on (R350 offset 0x50): of a barrier word, a signal word or a page; else 0. -/
def Lane.waitAddr (l : Lane) : Nat :=
  match l.status with
  | .waiting (.barrier o _) => o
  | .waiting (.signal va _ _) => va.toNat
  | .parked (.page va) => va.toNat
  | _ => 0

/-- The lane block of a save area (R350). -/
def Lane.saveBytes (l : Lane) : List Byte :=
  leBytes 8 l.pc.toNat ++ leBytes 8 l.tpc.toNat ++ leBytes 8 l.tnpc.toNat ++ leBytes 8 l.taddr.toNat ++
    leBytes 8 l.tframe.toNat ++ leBytes 4 l.fp ++ leBytes 4 l.lo ++ leBytes 4 l.hi ++
    leBytes 4 (l.n / 16 + 256 * l.k + 65536 * l.depth) ++ leBytes 4 l.preds.toNat ++
    leBytes 4 (l.rm.toNat + 4 * natOf l.fiz + 8 * natOf l.foz + 16 * natOf l.cnan) ++
    leBytes 4 (l.kind.toNat + 256 * natOf l.tl) ++ leBytes 4 l.tinfo.toNat ++ leBytes 4 l.stateCode ++
    leBytes 4 l.stamp ++ leBytes 8 l.waitAddr ++ List.replicate 0x28 0

/-- Header, masks, scalars and lane blocks of a save area, 0x1100 bytes (R350). -/
def Group.saveBytes (g : Group) (t : Team) : List Byte :=
  leBytes 4 g.slot ++ leBytes 4 t.index ++ leBytes 2 g.grp ++ leBytes 2 g.role ++ leBytes 2 g.budget ++
    leBytes 2 (g.kmax / 32) ++ leBytes 8 g.arena.toNat ++ leBytes 8 g.phaseArena.toNat ++ List.replicate 0x20 0 ++
    ((List.range 12).flatMap fun k => leBytes 4 (g.mask k).toNat) ++
    ((List.range 16).flatMap fun i => leBytes 4 (sget 0 g.scalars i).toNat) ++
    leBytes 4 (natOf g.sat) ++ leBytes 4 (natOf g.sata) ++ leBytes 8 g.age ++ leBytes 4 g.quarter ++
    List.replicate 0x3C 0 ++ (List.range 32).flatMap fun j => (g.lane j).saveBytes

/-- The current or frozen bits as bytes: bit x is line x (R350). -/
def bitmapBytes (m : Sparse Bool) (n : Nat) : List Byte :=
  (List.range n).map fun i =>
    BitVec.ofNat 8 ((List.range 8).foldl (fun v b => v + natOf (sget false m (8 * i + b)) * 2 ^ b) 0)

/-- The team part, held by group 0: buffer table, SEQA values of the six queues, commit count (R344, R350). -/
def PhaseRecord.teamBytes (ph : PhaseRecord) : List Byte :=
  ((List.range 32).flatMap fun b => leBytes 8 (sget 0 ph.buffers b).toNat) ++
    ((List.range 6).flatMap fun q => leBytes 8 (ph.seqas.getD q 0)) ++ leBytes 8 ph.commits

/-- Where the pieces of a group save go: offset in the save area and bytes (R350). -/
def Group.savePieces (g : Group) (t : Team) : List (Nat × List Byte) :=
  [(0, g.saveBytes t), (0x4000, bitmapBytes g.current (g.kmax / 4)), (0x4000 + g.kmax / 4, bitmapBytes g.frozen (g.kmax / 4))]

/-- Where the pieces of a phase record go (R344, R350). -/
def Group.phasePieces (g : Group) (t : Team) (ph : PhaseRecord) : List (Nat × List Byte) :=
  (0x2000, g.saveBytes t) :: (if g.grp = 0 then [(0x3100, ph.teamBytes)] else [])

/-- The 4 KiB pages that pieces at a base touch. -/
def piecePages (base : DWord) (ps : List (Nat × List Byte)) : List DWord :=
  (ps.flatMap fun p => (List.range (p.2.length / 4096 + 2)).map fun i =>
    BitVec.ofNat 64 ((base.toNat + p.1 + min (4096 * i) (p.2.length - 1)) / 4096 * 4096)).eraseDups

/-- Bytes written through translation, page by page, for a device access of a context. -/
def State.deviceWrite (s : State) (c core : Nat) (va : DWord) (bs : List Byte) : State :=
  (bs.mapIdx fun i b => (va + BitVec.ofNat 64 i, b)).foldl
    (fun s e => match s.translate c core none e.1 1 with
      | .ok place _ => s.writeBytes [(place, e.2)]
      | _ => s) s

/-- Pieces written at a base. -/
def State.writePieces (s : State) (c core : Nat) (base : DWord) (ps : List (Nat × List Byte)) : State :=
  ps.foldl (fun s p => s.deviceWrite c core (base + BitVec.ofNat 64 p.1) p.2) s

/-- n bytes read through translation for a device access of a context. -/
def State.deviceBytes (s : State) (c core : Nat) (va : DWord) (n : Nat) : List Byte :=
  (List.range n).map fun i => s.byte (s.placeFor c core (va + BitVec.ofNat 64 i) 0)

end Sys2Proof.Machine
end

