-- ==== Sys2Proof/Machine/Rollback.lean ====
section
/-! DEFINITION. Rollback of a team and of a cluster (R204, R229, R275, R311, R343 to R348), and the phase record (R344). -/

namespace Sys2Proof.Machine

/-- Whether an ember of a sector's queues is not on chip. -/
def Ember.outside (e : Ember) : Bool := decide (e.place = .ring ∨ e.place = .held)

/-- The embers of a context's memory ring for a sector (R236). -/
def State.ringEmbers (s : State) (ctx sector : Nat) : List Ember :=
  s.embers.filter fun x => x.sector == sector && x.ctx == ctx && decide (x.place = .ring)

/-- The lowest free entry of a context's ring for a sector (log 34). -/
def State.ringEntry (s : State) (ctx sector : Nat) : Nat :=
  let used := (s.ringEmbers ctx sector).map fun e => e.entry
  ((List.range (used.length + 1)).find? fun n => !used.contains n).getD 0

/-- The lowest core of a sector (R15). -/
def sectorCore (n : Nat) : Nat := coreAt (n / 4) (4 * (n % 2)) (3 * (n % 4 / 2))

/-- The address of an entry of a context's ring for a sector (R396), where the context has one. -/
def State.ringAddress (s : State) (ctx sector entry : Nat) : Option DWord :=
  ((s.ctx ctx).emberRings[sector]?).map fun a => a + BitVec.ofNat 64 (64 * entry)

/-- Where an ember of a context stands that has no place on chip (R236): in the context's ring, where that has a free entry that
can be written (log 34), else held by the controller. -/
def State.ringPlace (s : State) (ctx sector : Nat) : EmberPlace :=
  match s.ringAddress ctx sector (s.ringEntry ctx sector) with
  | some a =>
    if (s.ringEmbers ctx sector).length < 2 ^ (s.ctx ctx).emberLog ∧ s.reachOne ctx (sectorCore sector) a 1 = .ok then .ring
    else .held
  | none => .held

/-- The 64 bytes of an ember (R230): those of its launch, with the save area's address and bit 0 for a group to be resumed
(R103). -/
def State.emberBytes (s : State) (e : Ember) : List Byte :=
  let launched (t : Team) : List Byte := ((s.instance? t.inst).map fun i => i.ember).getD []
  match e.kind with
  | .fresh iid => ((s.instance? iid).map fun i => i.ember).getD []
  | .relaunch tid => ((s.team? tid).map launched).getD []
  | .resume gid =>
    match s.group? gid with
    | none => []
    | some g => leBytes 8 (g.saveArea.toNat + 1) ++ (((s.team? g.team).map launched).getD []).drop 8

/-- An ember stands at its place; one in a memory ring is written into its entry (R236). -/
def State.standEmber (s : State) (e : Ember) : State :=
  if e.place = .ring then
    let n := s.ringEntry e.ctx e.sector
    let w := match s.ringAddress e.ctx e.sector n with
      | some a => s.deviceWrite e.ctx (sectorCore e.sector) a (s.emberBytes e)
      | none => s
    { w with embers := w.embers ++ [{ e with entry := n }] }
  else { s with embers := s.embers ++ [e] }

/-- Where an ember of a context that joins a sector's queue stands (R236): on chip while there is a place for which no other waits,
else in the context's ring, else held by the controller. -/
def State.queuePlace (s : State) (ctx sector : Nat) : EmberPlace :=
  let here := s.embers.filter fun x => x.sector == sector
  if here.countP (fun x => decide (x.place = .chip)) < 256 && !here.any Ember.outside then .chip else s.ringPlace ctx sector

/-- An ember of the device joins a sector's queue (R236); it is never refused here. -/
def State.enqueue (s : State) (e : Ember) : State :=
  { s with ids := s.ids + 1 }.standEmber { e with id := s.ids, place := s.queuePlace e.ctx e.sector, arrival := s.now }

/-- A buffer descriptor with STATE EMPTY, WP 0 and ENG 0 (R204): bits 51 to 30 and bit 26 clear. -/
def emptied (d : DWord) : DWord := d &&& ~~~(0x000FFFFFC4000000#64)

/-- The sector a team is relaunched in (R346 step 4): the lowest one in service of its partition other than the one where the error
was consumed, where there is one. -/
def State.relaunchSector (s : State) (t : Team) (erring : Nat) : Nat :=
  ((s.partitionSectors (s.ctx t.ctx).partition).find? fun n => n != erring).getD erring

/-- An engine queue after a rollback (R275): SEQA and SEQC at the commit's SEQA, CRCR all ones, nothing queued. -/
def Engine.rolledBack (e : Engine) (seq : Nat) : Engine :=
  { e with seqa := seq, seqc := seq, crcr := 0xFFFFFFFF#32, queue := [], shadow := [], lines := [] }

/-- The matrix side after a rollback (R311): REPL and MISS keep their values. -/
def Matrix.rolledBack (m : Matrix) (seq : Nat) : Matrix :=
  { m with seqa := seq, seqc := seq, queue := [], shadow := [], lines := [], tiles := [], accords := [] }

/-- A group as its phase record has it, with current set to frozen and lo at fp, out of its slot until the relaunch (R346). What a
debugger has halted stays halted (R364). -/
def Group.rolledBack (g now : Group) : Group :=
  { g.mapLanes (fun _ l => { l with lo := l.fp, linkLo := l.depth, pend := [], timer := none, faulting := none }) with
    resident := false, current := now.frozen, frozen := now.frozen, halted := now.halted,
    arena := now.arena, phaseArena := now.phaseArena, saveArea := now.saveArea }

/-- The service slots of a team's threads are freed (R346): STATE 0 is written where a thread of the team waits. -/
def State.freeServices (s : State) (t : Team) : State :=
  let x := s.ctx t.ctx
  let slots := ((s.groups.filter fun g => g.team == t.id).flatMap fun g => g.lanes.filterMap fun l =>
    match l.status with
    | .parked (.service n) => some n
    | _ => none).eraseDups
  slots.foldl (fun s n => s.deviceWrite t.ctx t.core (x.svcbase + BitVec.ofNat 64 (4096 * n)) (leBytes 4 0)) s

/-- The embers that stand for a team's groups or for its relaunch leave their queues. -/
def State.recallEmbers (s : State) (tid : Nat) : State :=
  let stale (e : Ember) : Bool :=
    match e.kind with
    | .resume gid => ((s.group? gid).map fun g => g.team == tid).getD false
    | .relaunch t => t == tid
    | .fresh _ => false
  { s with embers := s.embers.filter fun e => !stale e }

/-- Rollback of one team (R346) to its phase record, after an error consumed in a sector; nothing happens to a team without one, or
whose exit commit has taken place (R349). -/
def State.rollbackTeam (s : State) (tid erring : Nat) : State :=
  match s.team? tid with
  | none => s
  | some t =>
    match t.phase, t.exit == .running || t.exit == .ending with
    | none, _ => s
    | some _, false => s
    | some ph, true =>
      let s := (s.freeServices t).recallEmbers tid
      let s := s.dropOps tid
      let back (g : Group) : Group :=
        match ph.groups.find? fun p => p.id == g.id with
        | some p => p.rolledBack g
        | none => g
      let s := s.mapGroups fun g => if g.team = tid then back g else g
      let s := s.mapTeam tid fun t =>
        { t with store := [], overflow := [], buffers := ph.buffers.filterMap fun e =>
                   if emptied e.2 = 0 then none else some (e.1, emptied e.2),
                 tags := [], relaunch := true, stopped := false, exit := .running, markNext := false,
                 engines := (List.range 5).foldl (fun m q =>
                   sput {} m q ((t.engine q).rolledBack (ph.seqas.getD q 0))) t.engines,
                 matrix := t.matrix.rolledBack (ph.seqas.getD 5 0) }
      let s := s.dropHolds.releaseSlices t.core
      s.enqueue { id := 0, ctx := t.ctx, sector := s.relaunchSector t erring, pri := t.pri, kind := .relaunch tid, place := .chip,
                  arrival := 0, first := s.clk.toNat, born := s.real, keys := [] }

/-- Every cluster barrier of a cluster at phase 0 and every arrival cleared (R229). -/
def State.resetBarriers (s : State) (cid : Nat) : State :=
  let s := s.mapCluster cid fun k => { k with phases := [], arrived := [] }
  let tids := ((s.cluster? cid).map fun k => k.members.map fun e => e.2).getD []
  s.mapGroups fun g => if tids.contains g.team then g.mapLanes fun _ l => { l with arrivals := [] } else g

/-- ROLLBACK (R346, R348): the team, or every member of its cluster where the cluster has two or more teams. R229 resets the
cluster barriers at a cluster rollback; whether the rollback of a cluster of one is one the spec does not say, and the model
leaves its barriers (DESIGN CHOICE, log 34). -/
def State.rollback (s : State) (tid : Nat) : State :=
  match s.team? tid with
  | none => s
  | some t =>
    match t.cluster.bind s.cluster? with
    | some k =>
      if k.cx * k.cy ≤ 1 then s.rollbackTeam tid t.sector
      else (k.members.foldl (fun s e => s.rollbackTeam e.2 t.sector) s).resetBarriers k.id
    | none => s.rollbackTeam tid t.sector

/-- The consequence of a consumed error (R343): rollback with RST = 1, a kill otherwise. -/
def State.consume (s : State) (tid : Nat) : State :=
  match s.team? tid with
  | none => s
  | some t => if t.rst then s.rollback tid else s.killTeam tid uncorrectable

/-- The phase record of a team as it stands (R344). -/
def State.makePhase (s : State) (t : Team) : PhaseRecord :=
  { groups := s.groups.filter fun g => g.team == t.id, buffers := t.buffers,
    seqas := (List.range 5).map (fun q => (t.engine q).seqa) ++ [t.matrix.seqa], commits := t.commits }

end Sys2Proof.Machine
end

