-- ==== Sys2Proof/Machine/Ops.lean ====
section
/-! DEFINITION. Taking an exception and returning from one (R330 to R333), waking waiting threads (R79, R80), and the one
frame of execution of the 170 instructions: convergence set, static checks, drains, lookahead, frame checks, writes,
program counters and faults (R9, R10, R38, R56 to R59, R65, R82, R83, R89). -/

namespace Sys2Proof.Machine

/-! ## Migration requests (R168) -/

/-- A page-move request reaches the migration arbiter (R169). Where one for the page is there already, the first arrival wins, and
a request of the other party makes it the loser. -/
def State.addMove (s : State) (c : Nat) (va : DWord) (tier : Tier) (byHost mailbox : Bool) : State :=
  let same (m : Move) : Bool := (s.pageOf m.ctx m.va).isSome && s.pageOf m.ctx m.va == s.pageOf c va
  let held (m : Move) : Bool := s.holds.any fun h => h.host == m.byHost && s.pageOf h.ctx h.va == s.pageOf m.ctx m.va
  match s.moves.find? fun m => same m && !held m with
  | some w =>
    if w.byHost = byHost then s
    else { s with moves := s.moves.map fun m => if m.id = w.id then { m with contested := true } else m }
  | none =>
    if s.moves.any fun m => same m && m.byHost == byHost then s
    else { s with moves := s.moves ++ [{ id := s.ids, ctx := c, va, tier, byHost, mailbox }], ids := s.ids + 1 }

/-- A device request to move a page goes to the migration arbiter (R168); its target tier is HBM. -/
def State.requestMove (s : State) (c : Nat) (va : DWord) : State := s.addMove c va .hbm false false

/-- A page that is not there asked for, if one is named. -/
def State.askFor (s : State) (c : Nat) (page : Option DWord) : State :=
  match page with
  | some va => s.requestMove c va
  | none => s

/-- Lanes parked on a page that is not present, the access uncompleted, with a move requested (R168). -/
def State.parkPage (s : State) (gid c : Nat) (lanes : List Nat) (va : DWord) : State :=
  let s := s.mapGroup gid fun g => g.mapLanes fun j l =>
    if lanes.contains j then { l with status := .parked (.page va) } else l
  s.requestMove c va

/-! ## Exceptions -/

/-- TRAPCTL of a context: HEN, SLA and POLICY (R334). -/
def Context.hen (x : Context) : Bool := x.trapctl.getLsbD 0

def Context.sla (x : Context) : Bool := x.trapctl.getLsbD 1

def Context.policy (x : Context) : Nat := bitsOf x.trapctl.toNat 2 2

/-- Lanes parked as fatal (R332, R333). -/
def State.parkFatal (s : State) (gid : Nat) (lanes : List Nat) : State :=
  s.mapGroup gid fun g => g.mapLanes fun j l => if lanes.contains j then { l with status := .parked .fatal } else l

/-- TRAPCTL.POLICY on lanes of a group (R333): they stay parked as fatal; 1 kills the team, 2 and 3 halt the context. -/
def State.applyPolicy (s : State) (gid : Nat) (lanes : List Nat) (kind : Nat) : State :=
  match s.group? gid with
  | none => s
  | some g =>
    match s.team? g.team with
    | none => s
    | some t =>
      let s := s.parkFatal gid lanes
      match (s.ctx t.ctx).policy with
      | 0 => s
      | 1 => s.killTeam t.id kind
      | _ => s.haltContext t.ctx

/-- A double trap of lane j (R332): one fatal record with both kinds, the thread parked as fatal, then R343 where a kind is
Uncorrectable and the policy otherwise (log 21). -/
def State.doubleTrap (s : State) (gid j : Nat) (i : FaultInfo) (pc : DWord) (first : Nat) : State :=
  match s.group? gid with
  | none => s
  | some g =>
    match s.team? g.team with
    | none => s
    | some t =>
      let s := s.addRecord (s.faultRecord g t (maskOf [j]) i pc first true true)
      let s := s.parkFatal gid [j]
      if i.kind = uncorrectable ∨ first = uncorrectable then s.consume t.id else s.applyPolicy gid [j] i.kind

/-- The lane in its handler (R330, from the marked step on), given its line of TRAPBASE where it could be read. TFRAME and
the trap link hold the interrupted frame; of a frame whose registers a RET has released (R263) the trap link says that it has none
above its first 16, so that it is found again below the handler's (R87, R95) (DEDUCED, log 21). -/
def Lane.intoHandler (l : Lane) (budget stamp : Nat) (i : FaultInfo) (trapbase resume : DWord) (m : Nat) (fetch : Fetch) :
    Lane :=
  let f := l.hi
  let tnpc := nextPC l.pc m
  let low (v : DWord) := v.extractLsb' 0 32
  let high (v : DWord) := v.extractLsb' 32 32
  let args : List Word := [BitVec.ofNat 32 i.kind, i.info, low i.addr, high i.addr, low resume, high resume] ++
    List.replicate 10 0
  { l with tl := true, tpcSet := false, tnpcSet := false, kind := BitVec.ofNat 8 i.kind, tinfo := i.info, taddr := i.addr, tpc := resume, tnpc := tnpc,
           released := if l.n ≠ 0 ∧ l.hi = l.fp + 16 then some l.fp else none,
           tframe := BitVec.ofNat 64 (l.depth * 2 ^ 48 + l.n / 16 * 2 ^ 44 + l.k * 2 ^ 40 + l.fp),
           links := sput 0 l.links (l.depth + 1) (makeLink 0 (if l.hi = l.fp + 16 then 0 else l.n / 16) 0),
           depth := l.depth + 1, fp := f, n := 0, k := 0, hi := f + 16, filling := false,
           ring := sputAll 0 l.ring (args.mapIdx fun x v => ((f + x) % budget, v)),
           pc := trapbase, fetch := fetch, status := .ready, stamp, timer := none, faulting := none }

/-- Trap entry of lane j at the marked step of R330: where the ring has no room for the handler's frame, the spill engine makes
it first, since the interrupted frame stays intact (R95, R330; log 21); a double trap with that second kind where the handler's
frame exceeds KMAX or TRAPBASE fails as a call target, otherwise the handler. A TRAPBASE whose line cannot be read yet is
checked when the handler first issues. -/
def State.trapEntry (s : State) (gid j : Nat) (i : FaultInfo) (resume : DWord) (m : Nat) : State :=
  match s.group? gid with
  | none => s
  | some g =>
    match s.team? g.team with
    | none => s
    | some t =>
      let l := g.lane j
      let base := (s.ctx t.ctx).trapbase
      if l.hi + 32 > g.kmax then s.doubleTrap gid j { kind := stackOverflow } l.pc i.kind
      else if g.budget < l.hi + 16 - l.lo then
        s.mapLane gid j fun l => { l with status := .waiting (.handler i resume m), timer := none, faulting := none }
      else
        match s.enterLine t.ctx g.core base .call with
        | .bad b => s.doubleTrap gid j b l.pc i.kind
        | .ok line =>
          (s.cacheLine t.ctx g.core line).mapLane gid j fun l =>
            l.intoHandler g.budget s.clk.toNat i base resume m (.held line)
        | _ => s.mapLane gid j fun l => l.intoHandler g.budget s.clk.toNat i base resume m .entry

/-- The trap path of lanes whose outstanding results have arrived (R330): one record for the lanes with TL = 0, then the
handler, or the policy where HEN = 0; a double trap for each lane with TL = 1 (log 21). -/
def State.trapPath (s : State) (gid : Nat) (lanes : List Nat) (i : FaultInfo) (m : Nat) : State :=
  match s.group? gid with
  | none => s
  | some g =>
    match s.team? g.team with
    | none => s
    | some t =>
      let outer := lanes.filter fun j => !(g.lane j).tl
      let inner := lanes.filter fun j => (g.lane j).tl
      let hen := (s.ctx t.ctx).hen
      let pcOf (j : Nat) : DWord := (g.lane j).pc
      let s :=
        match outer with
        | [] => s
        | j0 :: _ =>
          let s := s.addRecord (s.faultRecord g t (maskOf outer) i (pcOf j0) 0 (!hen) false)
          if hen then outer.foldl (fun s j => s.trapEntry gid j i (pcOf j) m) s
          else s.applyPolicy gid outer i.kind
      inner.foldl (fun s j => s.doubleTrap gid j i (pcOf j) (g.lane j).kind.toNat) s

/-- Fault(kind, S) (R10): the trap path, once every outstanding result of the lanes has arrived (R59), for all of them together,
since they share one record (R338). m is the length of the instruction at their program counter. -/
def State.raiseFault (s : State) (gid : Nat) (lanes : List Nat) (i : FaultInfo) (m : Nat) : State :=
  match s.group? gid with
  | none => s
  | some g =>
    if lanes.isEmpty then s
    else if lanes.all fun j => (g.lane j).pend.isEmpty then s.trapPath gid lanes i m
    else s.mapGroup gid fun g => g.mapLanes fun j l =>
      if lanes.contains j then { l with status := .stalled true, faulting := some (i, m, maskOf lanes) } else l

/-- A fault whose lanes have no result outstanding any more takes the trap path (R59). -/
def State.resumeFault (s : State) (gid j : Nat) : State :=
  match s.group? gid with
  | none => s
  | some g =>
    match (g.lane j).faulting with
    | some (i, m, ls) =>
      let lanes := (lanesOf ls).filter fun x => (g.lane x).faulting == (g.lane j).faulting
      if lanes.all fun x => (g.lane x).pend.isEmpty then
        (s.mapGroup gid fun g => g.mapLanes fun x l => if lanes.contains x then { l with faulting := none } else l).trapPath
          gid lanes i m
      else s
    | none => s

/-- RETT's restoration of a lane (R331): frame state from TFRAME, TL to 0, the program counter at the resume address; a frame whose
registers an uncompleted RET had released keeps hi there (R263). -/
def Lane.fromHandler (l : Lane) (target : DWord) (fetch : Fetch) : Lane :=
  let tf := l.tframe.toNat
  let n := 16 * bitsOf tf 44 4
  let fp := bitsOf tf 0 32
  { l with fp := fp, n := n, k := bitsOf tf 40 4, depth := bitsOf tf 48 16,
           hi := if n = 0 ∨ l.released = some fp then fp + 16 else fp + 32 + n, released := none, tl := false, pc := target,
           fetch := fetch }.settleSpill

/-- The group's flags after saturating conversions (R160). -/
def State.saturate (s : State) (gid : Nat) (sat arm : Bool) : State :=
  if sat then s.mapGroup gid fun g => { g with sat := true, sata := g.sata || arm } else s

/-! ## Waking -/

/-- Whether queue q of a team, 0 to 4 an engine queue and 5 the matrix queue, has room (R265, R292). -/
def Team.hasRoom (t : Team) (q : Nat) : Bool :=
  if q = 5 then decide (t.matrix.queue.length < 16) else decide ((t.engine q).queue.length < 64)

/-- The phase bit of the barrier word at an offset of a team's slice (R222). -/
def Team.phaseBit (t : Team) (offset : Nat) : Bool := (sget (0 : Byte) t.slice (offset + 4)).getLsbD 0

/-- The service slot a request takes next, where it is free: slots are taken in ascending order (R352). -/
def State.freeSlot (s : State) (c core : Nat) : Option Nat :=
  let x := s.ctx c
  let n := 2 ^ bitsOf x.svcctl.toNat 0 4
  let j := x.svcNext % n
  let va := x.svcbase + BitVec.ofNat 64 (4096 * j)
  match s.translate c core none va 0 with
  | .ok place _ => if s.home place = .ready ∧ s.readNat place 4 ≠ 0 then none else some j
  | _ => some j

/-! ## The threads of an access -/

/-- The lanes that an access serves (R192). -/
def Op.lanes (o : Op) : List Nat := o.lane :: o.others

/-- Whether an access is one of a thread. -/
def Op.isOf (o : Op) (gid j : Nat) : Bool := o.gid == gid && o.lanes.contains j

/-! ## The bytes of a scratchpad access -/

/-- The bytes of an atomic's width. -/
def atomicBytes (wide : Bool) : Nat := if wide then 8 else 4

/-- The bytes of a slice an access touches: team, offset, length. -/
def Op.span (o : Op) : Option (Nat × Nat × Nat) :=
  match o.access with
  | .read p _ => some (p.team, p.offset, 4)
  | .write p _ => some (p.team, p.offset, 4)
  | .localAtomic p _ _ wide _ _ _ => some (p.team, p.offset, atomicBytes wide)
  | .barrierInit p _ => some (p.team, p.offset, 8)
  | .barrierArrive p _ _ _ => some (p.team, p.offset, 8)
  | .barrierTest p _ _ => some (p.team, p.offset, 8)
  | _ => none

/-- The 4-byte words of n bytes at an offset. -/
def wordRange (offset n : Nat) : List Nat := (List.range ((offset + n - 1) / 4 - offset / 4 + 1)).map fun i => offset / 4 + i

/-- Whether two spans of one slice share a word, and whether they share a bank (R191, R192). -/
def sharesWord (a b : Nat × Nat) : Bool := (wordRange a.1 a.2).any fun w => (wordRange b.1 b.2).contains w

def sharesBank (a b : Nat × Nat) : Bool :=
  (wordRange a.1 a.2).any fun w => (wordRange b.1 b.2).any fun x => w % 64 == x % 64

/-- Whether an access touches n bytes at an offset of a team's slice. -/
def Op.within (o : Op) (tid offset n : Nat) : Bool :=
  match o.span with
  | some (t, p, k) => t == tid && decide (p < offset + n ∧ offset < p + k)
  | none => false

/-- Whether an access touches a bank of n bytes at an offset of a team's slice. -/
def Op.hits (o : Op) (tid offset n : Nat) : Bool :=
  match o.span with
  | some (t, p, k) => t == tid && sharesBank (p, k) (offset, n)
  | none => false

/-- Whether an access is one to a scratchpad bank or barrier. -/
def Op.isScratch (o : Op) : Bool :=
  match o.access with
  | .clusterArrive _ _ => true
  | _ => o.span.isSome

/-! ## Bank queues -/

/-- The scratchpad bank an access goes to: 64 * core + bank (R191). -/
def State.bank (s : State) (o : Op) : Option Nat :=
  o.span.bind fun x => (s.team? x.1).map fun t => 64 * t.core + x.2.1 / 4 % 64

/-- Whether a request has a place in its bank queue, which holds 8 (R27, R192). -/
def State.inBankQueue (s : State) (o : Op) : Bool :=
  (s.bank o).isNone || decide ((s.ops.filter fun x => decide (x.id < o.id) && s.bank x == s.bank o).length < 8)

/-- Whether the scratchpad port of a group's issue quarter holds a request that waits for its bank queue (R192). -/
def State.portBusy (s : State) (g : Group) : Bool :=
  s.ops.any fun o => !s.inBankQueue o && (match s.group? o.gid with
    | some h => h.core == g.core && h.quarter == g.quarter
    | none => false)

/-- Whether a generic address leads to a scratchpad: the team's own slice or a member's (R163). -/
def Env.scratchAddress (e : Env) (f : Fields) (j : Nat) : Bool :=
  match e.s.classOf e.t (e.address f j) with
  | .scratchpad _ => true
  | .window _ _ => true
  | _ => false

/-- The instructions that go through the scratchpad port: those of the scratchpad and of barrier words, and loads, stores and
atomics of which a lane leads to a scratchpad (R192) (log 38). -/
def usesPort (i : Instr) (f : Fields) (e : Env) : Bool :=
  match i with
  | .lds _ => true
  | .sts _ => true
  | .ldsr _ => true
  | .stsr _ => true
  | .binit _ => true
  | .barv _ => true
  | .bwait _ => true
  | .btest _ => true
  | .ld _ => (e.guarded f).any (e.scratchAddress f)
  | .st _ => (e.guarded f).any (e.scratchAddress f)
  | .atom _ => (e.guarded f).any (e.scratchAddress f)
  | .atcas _ => (e.guarded f).any (e.scratchAddress f)
  | .red _ => (e.guarded f).any (e.scratchAddress f)
  | _ => false

/-! ## Submissions to a queue -/

/-- The scratchpad accesses of a thread that are yet to be performed (R297). -/
def State.pendingScratch (s : State) (gid j : Nat) : List Nat :=
  (s.ops.filter fun o => o.isOf gid j && o.isScratch).map fun o => o.id

/-- The end of a drain in an add mode becomes something for the FENCE of its thread to wait for (R309). -/
def State.noteAdds (s : State) (g : Group) (j uid : Nat) (adds : Option (DWord × Nat)) : State :=
  match adds with
  | none => s
  | some (va, scope) =>
    { s with ops := s.ops ++ [{ id := s.ids, gid := g.id, lane := j, team := g.team, pend := none, va, pc := (g.lane j).pc,
                                issued := s.now, since := s.real, access := .drainAdd uid scope }],
             ids := s.ids + 1 }

/-- A submission of lane j of a group enters its queue (R265, R280, R292, R315): an operation holds its buffers from now on. The
words of its number, which is SEQA + 1. -/
def State.enterQueue (s : State) (g : Group) (j : Nat) (w : Submit) : List Word × State :=
  match s.team? g.team, w with
  | none, _ => ([], s)
  | some _, .joined => ([], s)
  | some t, .command q chain bytes next =>
    let n := (t.engine q).seqa + 1
    let c : Command := { number := n, chain, collective := q == 4, gid := g.id, lane := j, bytes, next,
                         lastProgress := s.clk.toNat }
    ([BitVec.ofNat 32 n, BitVec.ofNat 32 (n / 2 ^ 32)],
     s.mapTeam t.id fun t => t.mapEngine q fun k => { k with seqa := n, queue := k.queue ++ [c] })
  | some t, .matrix work numbered holds full adds =>
    let n := t.matrix.seqa + 1
    let multiplies := match work with
      | .multiply _ => true
      | _ => false
    let m : MatrixEntry := { uid := s.ids, number := if numbered then n else 0, work, gid := g.id, lane := j,
                             after := s.pendingScratch g.id j, holds, full, marked := multiplies && t.markNext }
    let s := { s with ids := s.ids + 1 }
    let s := s.mapTeam t.id fun t =>
      { t with matrix := { t.matrix with seqa := if numbered then n else t.matrix.seqa, queue := t.matrix.queue ++ [m] },
               markNext := t.markNext && !multiplies }
    ([BitVec.ofNat 32 n], (s.updateEng holds).noteAdds g j m.uid adds)

/-- Whether a submission of lane a is to be accepted before one of lane b (R280) (log 34). -/
def Submission.before (a : Submission) (i : Nat) (b : Submission) (j : Nat) : Bool :=
  decide (a.issued < b.issued ∨ (a.issued = b.issued ∧ i < j))

/-- Whether a submission that waits for room is the next of its team for its queue. -/
def State.nextInLine (s : State) (t : Team) (j q : Nat) (x : Submission) : Bool :=
  !(s.teamGroups t.id).any fun g => (List.range 32).any fun i =>
    match (g.lane i).submission with
    | some (p, y) => p == q && y.before i x j
    | none => false

/-- The bytes of M an access touches: place and length. -/
def Op.homeSpan (o : Op) : Option (Nat × Nat) :=
  match o.access with
  | .live p known _ _ => some (p, known.length)
  | .atomic p _ _ wide _ _ _ => some (p, atomicBytes wide)
  | .ranked _ p _ _ width _ _ _ => some (p, width)
  | .signal p _ => some (p, 8)
  | .joinDec p _ _ _ => some (p, 4)
  | _ => none

/-- Whether an access touches any of n bytes of M at a place. -/
def Op.touches (o : Op) (place n : Nat) : Bool :=
  match o.homeSpan with
  | some (q, k) => decide (place < q + k ∧ q < place + n)
  | none => false

/-- The place of a signal word that can be read now (R376). Its page is translated for each reading, so that a move of the page is
followed. -/
def State.signalPlace (s : State) (t : Team) (g : Group) (va : DWord) : Option Nat :=
  match s.translate t.ctx g.core none va 0 with
  | .ok place _ => if s.home place = .ready then some place else none
  | _ => none

/-- Whether a thread's own accesses to a signal word come before its reading (R175). -/
def State.signalBehind (s : State) (g : Group) (j place : Nat) : Bool := s.ops.any fun o => o.isOf g.id j && o.touches place 8

/-- Whether a signal word, read at its home as by a .live load behind the thread's own accesses to it, has reached a target (R175,
R376). It is read at issue and again once M's word is not the one that was seen. -/
def State.signalReached (s : State) (t : Team) (g : Group) (j : Nat) (va : DWord) (target : Nat) (seen : Option Nat) : Bool :=
  match s.signalPlace t g va with
  | some place => !s.signalBehind g j place && decide (seen ≠ some (s.readNat place 8) ∧ target ≤ s.liveNat t place 8)
  | none => false

/-- The word of M that a waiting thread has seen; none while a reading is due. -/
def State.signalSeen (s : State) (t : Team) (g : Group) (j : Nat) (va : DWord) (seen : Option Nat) : Option Nat :=
  match s.signalPlace t g va with
  | some place =>
    if s.signalBehind g j place then (if seen = some (s.readNat place 8) then seen else none) else some (s.readNat place 8)
  | none => seen

/-- A wait that goes on, with what its thread has seen. -/
def State.looked (s : State) (t : Team) (g : Group) (j : Nat) (w : Wait) : Wait :=
  match w with
  | .signal va target seen => .signal va target (s.signalSeen t g j va seen)
  | w => w

/-- Whether what a thread waits for has come about; a commit and a mask end their waits themselves. -/
def State.waitOver (s : State) (t : Team) (g : Group) (j : Nat) (w : Wait) : Bool :=
  let l := g.lane j
  match w with
  | .mask _ => false
  | .commit _ _ _ => false
  | .spill top => decide (top - l.lo ≤ g.budget) || l.arenaFault.isSome
  | .handler _ _ _ => decide (l.hi + 16 - l.lo ≤ g.budget)
  | .refill base link => decide (l.lo ≤ base) && decide (l.linkLo ≤ link)
  | .fill q => (l.nextFill g.budget q).isNone
  | .slot => (s.freeSlot t.ctx g.core).isSome
  | .room q x => (t.hasRoom q || decide (x.work = .joined)) && s.nextInLine t j q x
  | .scalar i => (g.coming 0 (.scalar i)).isSome || !(List.range 32).any fun x => (g.lane x).awaits (.scalar i)
  | .port => !s.portBusy g
  | .stores => !s.ops.any fun o => o.isOf g.id j && (match o.access with
      | .enter _ => true
      | _ => false)
  | .home place => !decide (s.home place = .waiting)
  | .turn _ => true
  | .member c rank => ((s.cluster? c).map fun k => k.members.any fun e => e.1 == rank).getD true
  | .barrier o parity => t.phaseBit o != parity && !s.ops.any fun x => x.isOf g.id j && x.hits t.id o 8
  | .cluster c _ => s.clusterPhase t c != (sget {} l.arrivals c : Arrival).parity
  | .applied us everywhere => us.all fun u => s.unitApplied u everywhere
  | .engine q target => decide (target ≤ (t.engine q).seqc)
  | .matrix target => decide (target ≤ t.matrix.seqc)
  | .signal va target seen => s.signalReached t g j va target seen
  | .fence ids _ => !s.ops.any fun o => ids.contains o.id

/-- Whether the end of a wait leaves the instruction to be executed again. -/
def Wait.again (w : Wait) : Bool :=
  match w with
  | .spill _ => true
  | .handler _ _ _ => true
  | .refill _ _ => true
  | .slot => true
  | .scalar _ => true
  | .port => true
  | .stores => true
  | .home _ => true
  | .turn _ => true
  | .member _ _ => true
  | _ => false

/-- The length in words of the instruction a wait belongs to. -/
def Wait.words (w : Wait) : Nat :=
  match w with
  | .barrier _ _ => 3
  | .room _ x => x.len
  | _ => 2

/-- A thread past CBWAIT on cluster barrier c (R228): without .acq, scratchpad values as old as its arrival may still be loaded. -/
def Lane.afterCluster (l : Lane) (c : Nat) (acquire : Bool) : Lane :=
  let a : Arrival := sget {} l.arrivals c
  { l with arrivals := sput {} l.arrivals c { a with since := false },
           stale := if acquire then none
                    else if a.since then some (match l.stale with
                      | some k => min k a.step
                      | none => a.step)
                    else l.stale }

/-- A waiting thread past its instruction: the predicate of a timed wait set (R226), ready with the stamp of the event, or stalled
at the end of a lookahead window. -/
def Lane.leave (l : Lane) (w : Wait) (expired : Bool) (stamp : Nat) : Lane :=
  let l := if w.again then l else l.advance w.words
  let l := match l.timer with
    | some t =>
      let bit := BitVec.ofNat 16 (2 ^ t.pred)
      { l with preds := if expired then l.preds ||| bit else l.preds &&& ~~~bit, timer := none }
    | none => l
  l.settle stamp

/-- A thread that has acquired its team's slice: it loads no scratchpad value older than now (R224, R228, R318) (log 23). -/
def Lane.acquire (l : Lane) : Lane := { l with stale := none }

/-- A waiting thread whose wait is over. A wait that ends is an acquire of the team's slice for BWAIT (R224), for XWAIT (R276),
for MWAIT (R318) and for CBWAIT .acq. -/
def Lane.wake (l : Lane) (w : Wait) (stamp : Nat) : Lane :=
  let l := match w with
    | .cluster c acquire => l.afterCluster c acquire
    | .barrier _ _ => l.acquire
    | .engine _ _ => l.acquire
    | .matrix _ => l.acquire
    | .fill _ => { l with filling := false }
    | _ => l
  l.leave w false stamp

/-- Whether the limit of a timed wait has passed before what it waits for came about (R226): its last cycle still counts. -/
def Lane.overtime (l : Lane) (clk : Nat) : Bool := (l.timer.map fun t => decide (t.deadline < clk) && !t.met).getD false

/-- Whether the phase that a thread waits for in BWAIT has completed, its own accesses aside (R226, R250). -/
def Team.turned (t : Team) (w : Wait) : Bool :=
  match w with
  | .barrier o parity => t.phaseBit o != parity
  | _ => false

/-- A timed wait that goes on because the thread's own accesses to the word come first (R194): a phase that has completed in
time counts (R226). -/
def Lane.keepTime (l : Lane) (t : Team) (w : Wait) (clk : Nat) : Lane :=
  { l with timer := l.timer.map fun x => { x with met := t.turned w && (x.met || decide (clk ≤ x.deadline)) } }

/-- A submission that has found room: its number becomes the result that its instruction owes (R280, R315); of an s register the
lane that supplies it gives the value (R120). -/
def State.accept (s : State) (g : Group) (j : Nat) (x : Submission) : State :=
  let r := s.enterQueue g j x.work
  r.2.mapLane g.id j fun l => l.deliver x.pid (((x.dests.zip r.1).map fun e => { place := e.1, value := e.2 }).filter fun w =>
    x.lead.isNone || !w.place.isScalar)

/-- The lines of its team's view that the end of a wait drops (R186, R276, R376): all of them, or those that units of a
queue have touched. -/
def State.wakeDrops (s : State) (t : Team) (w : Wait) : State :=
  match w with
  | .fence _ true => s.dropView t.id
  | .signal _ _ _ => s.dropView t.id
  | .engine q target =>
    ((t.engine q).touched.filter fun e => decide (e.1 ≤ target)).foldl (fun s e => s.dropLine t.id e.2) s
  | .matrix target => (t.matrix.touched.filter fun e => decide (e.1 ≤ target)).foldl (fun s e => s.dropLine t.id e.2) s
  | _ => s

/-- Whether an access is a request to a device without a usable port. -/
def Op.isBlocked (o : Op) : Bool :=
  match o.access with
  | .blocked _ => true
  | _ => false

/-- A thread waits for a place of another device that it cannot reach: the request times out (R405). -/
def State.blockedAt (s : State) (g : Group) (j : Nat) (va : DWord) (place : Nat) : State :=
  if isRemote place then
    { s with ops := s.ops ++ [{ id := s.ids, gid := g.id, lane := j, team := g.team, pend := none, va, pc := (g.lane j).pc,
                                issued := s.now, since := s.real, access := .blocked place }],
             ids := s.ids + 1 }
  else s

/-- The requests of a thread to an unreachable device are over (R405). -/
def State.unblock (s : State) (gid j : Nat) : State :=
  { s with ops := s.ops.filter fun o => !(o.isBlocked && o.isOf gid j) }

/-- One thread woken where its wait is over. -/
def State.wakeLane (s : State) (gid j : Nat) : State :=
  match s.group? gid with
  | none => s
  | some g =>
    match (g.lane j).status, s.team? g.team with
    | .waiting w, some t =>
      if !s.waitOver t g j w then s.mapLane gid j fun l => { l.keepTime t w s.clk.toNat with status := .waiting (s.looked t g j w) }
      else if let .handler i resume m := w then s.trapEntry gid j i resume m
      else if (g.lane j).overtime s.clk.toNat then s.mapLane gid j fun l => l.leave w true s.clk.toNat
      else
        let s := match w with
          | .room _ x => s.accept g j x
          | _ => s
        ((s.mapLane gid j fun l => l.wake w s.clk.toNat).unblock gid j).wakeDrops t w
    | _, _ => s

/-- The group whose instruction a state is about to execute. -/
def State.issuing (s : State) : Nat := (s.issue.map fun i => i.gid).getD 0

/-- A thread in the place its submission has among those that wait (R280) (log 34). -/
def inLine (e : Submission × Nat × Nat) (line : List (Submission × Nat × Nat)) : List (Submission × Nat × Nat) :=
  match line with
  | [] => [e]
  | x :: rest => if e.1.before e.2.2 x.1 x.2.2 then e :: x :: rest else x :: inLine e rest

/-- The threads that wait for room, those accepted first first. -/
def State.roomLine (s : State) : List (Nat × Nat) :=
  ((s.groups.flatMap fun g => (List.range 32).filterMap fun j =>
    (g.lane j).submission.map fun x => (x.2, g.id, j)).foldr inLine []).map fun e => e.2

/-- Every thread whose wait is over is woken, with one stamp (R80); those that wait for room in their order. -/
def State.wakeAll (s : State) : State :=
  let waits := (s.groups.flatMap fun g => (List.range 32).map fun j => (g.id, j)).filter fun e =>
    (s.lane e.1 e.2).submission.isNone
  (waits ++ s.roomLine).foldl (fun s e => s.wakeLane e.1 e.2) s

/-! ## The frame of execution -/

/-- Where a thread goes after an instruction. -/
inductive Flow where
  | next
  | jump (pc : DWord) (fetch : Fetch)
  | wait (w : Wait) (timer : Option Timer)
  | park (p : Park)
  | exit
  | stay
  /-- Into the handler, with the next instruction as the resume point (R367). -/
  | trap (i : FaultInfo)
  /-- Parked as fatal with a kind, under the policy of R333 (R371). -/
  | fatal (kind : Nat)
  deriving DecidableEq, Repr

/-- What an instruction does to one lane: results, destinations whose values are still to come with the number of accesses they
wait for and whether the counter of those is one for all lanes (R193), whether a conversion has saturated and its slot is armed
(R160), a fault, whether it is raised together for every lane that raises it alike (Fault(kind, S)) or for the lane alone (a
fault of that lane), a change of the lane's own state, and where the thread goes. -/
structure LaneOut where
  writes : List Write := []
  places : List Place := []
  waits : Nat := 0
  joint : Bool := false
  sat : Option Bool := none
  fault : Option FaultInfo := none
  together : Bool := false
  change : Lane → Lane := id
  flow : Flow := .next

/-- The body of an instruction: from what the issue sees and the acting lanes S, what it does outside the lanes and what it
does to each lane. Every operand is read from the state before the issue (R9). -/
abbrev Body := Env → List Nat → State → State × (Nat → LaneOut)

/-- A body that acts on each lane by itself. -/
def perLane (f : Env → Nat → LaneOut) : Body := fun e _ s => (s, fun j => f e j)

/-- The lanes a static check of R65 fails on: the whole convergence set, or its guarded lanes; none where all pass (log 19). -/
def staticFault (i : Instr) (e : Env) (f : Fields) : List Nat :=
  if !guardOk f || (isSel i && !f.ge) then lanesOf e.cs
  else
    let bad :=
      match codeOf i with
      | none => true
      | some c => decide (e.m > c.len) || !lenOk c.len f || !fieldsOk c.kind (useOf i) f
    if bad then e.guarded f else []

/-- The issue kind of an instruction. -/
def kindOf (i : Instr) : Kind := ((codeOf i).map fun c => c.kind).getD .s

/-- The predicates PMOV reads or writes without naming them in a field (R132). -/
def unnamedPlaces (i : Instr) (e : Env) (j : Nat) : List Place :=
  match i with
  | .pmov f =>
    let mask := if f.mod = 0 then 0xFFFF#32 else e.reg j f.b
    ((List.range 16).filter fun k => mask.getLsbD k).map fun k => .pred k
  | _ => []

/-- The fields an instruction reads or writes on lane j: a lane that the guard turns off uses those of B and D of SEL (R38)
(log 19). -/
def usedOn (i : Instr) (e : Env) (f : Fields) (j : Nat) : Use :=
  if isSel i && !e.passes f j then { useOf i with a := .unused } else useOf i

/-- Whether an instruction that makes a given use of its fields breaches an open lookahead window of lane j (R58). -/
def breaches (i : Instr) (u : Use) (e : Env) (f : Fields) (j : Nat) : Bool :=
  (guardPlaces f ++ allPlaces u f (e.g.lane j) ++ unnamedPlaces i e j).any fun p => (e.g.lane j).awaits p

/-- Whether a lane can name every register that an instruction uses on it (R89). -/
def namesGood (i : Instr) (f : Fields) (e : Env) (j : Nat) : Bool :=
  (allNames (usedOn i e f j) f).all fun n => nameOk (e.g.lane j) n

/-- The acting lanes of an instruction that breach their windows (R58). BCAST without .first reads B in its lowest participant only
(R136), and a lane that breaches or that cannot name its registers is none (R89, R133). -/
def breaching (i : Instr) (e : Env) (f : Fields) (acting : List Nat) : List Nat :=
  match i with
  | .bcast _ =>
    if modBit f 0 then acting.filter (breaches i (useOf i) e f)
    else
      let out := acting.filter (breaches i { useOf i with b := .unused } e f)
      out ++ (acting.filter fun j => !out.contains j && namesGood i f e j).takeWhile (breaches i (useOf i) e f)
  | _ => acting.filter fun j => breaches i (usedOn i e f j) e f j

/-- The lanes an instruction acts on: its guarded lanes (R38), SEL on the whole convergence set. -/
def actors (i : Instr) (f : Fields) (e : Env) : List Nat := if isSel i then lanesOf e.cs else e.guarded f

/-- The lanes of an issue that take LookaheadViolation under SLA = 1 (R58) (log 6): those whose guard predicate is outstanding,
and the acting lanes that breach their windows. -/
def breachLanes (i : Instr) (f : Fields) (e : Env) : List Nat :=
  if (e.s.ctx e.t.ctx).sla then
    let off := (lanesOf e.cs).filter fun j => (guardPlaces f).any (e.g.lane j).awaits
    off ++ breaching i e f ((actors i f e).filter fun j => !off.contains j)
  else []

/-- The lanes that stall before an instruction of kind D until their outstanding results have arrived (R56, R79). -/
def drainLanes (i : Instr) (g : Group) (lanes : LaneMask) : List Nat :=
  (lanesOf lanes).filter fun j => kindOf i == .d && !(g.lane j).pend.isEmpty

/-- The lane after an instruction that it completed or that made it wait; m is the instruction's length. -/
def Lane.follow (l : Lane) (o : LaneOut) (m stamp : Nat) : Lane :=
  match o.flow with
  | .next => (l.advance m).settle (stamp + 1)
  | .jump pc fetch => { l with pc := pc, fetch := fetch }.settle (stamp + 1)
  | .wait w timer => { l with status := .waiting w, timer := timer }
  | .park p => { l with status := .parked p }
  | .exit => { l with status := .exited, pend := [], timer := none }
  | .stay => l.settle (stamp + 1)
  | .trap _ => l
  | .fatal _ => l

/-- Every destination of an instruction on a lane, those whose values are known and those still to come. -/
def LaneOut.allPlaces (o : LaneOut) : List Place := o.writes.map (fun w => w.place) ++ o.places

/-- What an issue shares with each of its lanes: the register budget, the instruction's length, kind and lookahead, the identity of
its results and the cycle of its stamp, the lane that supplies the values of the s registers (R120), those registers, and which
writes stand against outstanding results (R58). -/
structure Completion where
  budget : Nat
  len : Nat
  kind : Kind
  la : Nat
  pid : Nat
  stamp : Nat
  lead : Option Nat
  shared : List Place
  keeps : Nat → Place → Bool

/-- One acting lane after an instruction that it completed: the results of kind L become outstanding, those of the other kinds are
written at once. The s registers are results of the instruction for every lane of the issue. -/
def Lane.finish (l : Lane) (c : Completion) (j : Nat) (o : LaneOut) : Lane :=
  let own := o.allPlaces.filter fun p => !p.isScalar
  let l := (l.supersede (own.filter (c.keeps j))).countDown
  let l :=
    if c.kind = .l then
      if own.isEmpty && c.shared.isEmpty then l
      else
        let q : Pending :=
          { id := c.pid, places := (own ++ c.shared).eraseDups,
            results := o.writes.filter fun w => c.lead == some j || !w.place.isScalar, waits := o.waits, left := c.la,
            lead := if c.shared.isEmpty || c.lead == some j then none else c.lead, joint := o.joint, sat := o.sat }
        { l with pend := l.pend ++ [q.without fun p => !c.keeps j p] }
    else l.putAll c.budget o.writes
  (o.change l).follow o c.len c.stamp

/-- One acting lane after an instruction: completed, or left to execute it again, without a result, after a wait or a park.
A park with results outstanding waits for those first (R59). -/
def Lane.complete (l : Lane) (c : Completion) (j : Nat) (o : LaneOut) : Lane :=
  match o.flow with
  | .park (.page va) => if l.pend.isEmpty then { l with status := .parked (.page va) } else { l with status := .stalled true }
  | .wait w timer =>
    if w.again then { o.change l with status := .waiting w, timer := timer } else l.finish c j o
  | _ => l.finish c j o

/-- The lane whose values stand for the s registers of an issue (R120) (log 42). -/
def leadOf (done : List Nat) (out : Nat → LaneOut) : Option Nat :=
  done.find? fun j => (out j).allPlaces.any Place.isScalar

/-- The s registers an issue writes (log 42). -/
def sharedPlaces (done : List Nat) (out : Nat → LaneOut) : List Place :=
  match leadOf done out with
  | some j => (out j).allPlaces.filter Place.isScalar
  | none => []

/-- The writes of the lane whose values stand for the s registers. -/
def leadWrites (done : List Nat) (out : Nat → LaneOut) : List Write :=
  match leadOf done out with
  | some j => (out j).writes
  | none => []

/-- The completion of an instruction on some lanes of a group. -/
def Group.completion (g : Group) (k : Kind) (now stamp pid m la : Nat) (cs : LaneMask) (done : List Nat) (out : Nat → LaneOut) :
    Completion :=
  { budget := g.budget, len := m, kind := k, la, pid, stamp, lead := leadOf done out, shared := sharedPlaces done out,
    keeps := g.keeps now (lanesOf cs) }

/-- The group after an issue (R9, R57): lanes that stall for a drain, lanes that completed the instruction, lanes kept where
they are, whose faults follow, and the other lanes of the convergence set, which pass it; then the scalar results, which no earlier
result overwrites (R120). -/
def Group.issued (c : Completion) (cs : LaneMask) (stalled done kept : List Nat) (out : Nat → LaneOut) (g : Group) : Group :=
  let g' := g.mapLanes fun j l =>
    let l := l.supersede (c.shared.filter (c.keeps j))
    if stalled.contains j then { l with status := .stalled true }
    else if done.contains j then l.complete c j (out j)
    else if !cs.getLsbD j || kept.contains j then l
    else (l.countDown.advance c.len).settle (c.stamp + 1)
  if c.kind = .l then g' else { g' with scalars := putScalars g'.scalars (leadWrites done out) }

/-- Lanes whose instruction asks for the handler enter it, with the next instruction as the resume point (R367). -/
def State.takeTraps (s : State) (gid : Nat) (iss : Issue) (done : List Nat) (out : Nat → LaneOut) : State :=
  done.foldl (fun s j => match (out j).flow with
    | .trap i => s.trapEntry gid j i (nextPC iss.pc iss.len) iss.len
    | _ => s) s

/-- The lanes an instruction parks as fatal, with their kinds (R371). -/
def fatalLanes (done : List Nat) (out : Nat → LaneOut) : List (Nat × Nat) :=
  done.filterMap fun j => match (out j).flow with
    | .fatal kind => some (j, kind)
    | _ => none

/-- The faults of an issue (R10, R338): one record for each Fault of the description. -/
def State.raiseFaults (s : State) (gid len : Nat) (breach misnamed failing : List Nat) (out : Nat → LaneOut) : State :=
  let s := s.raiseFault gid breach { kind := lookaheadViolation } len
  let s := misnamed.foldl (fun s j => s.raiseFault gid [j] { kind := illegalInstruction } len) s
  let alone := failing.filter fun j => !(out j).together
  let s := alone.foldl (fun s j => s.raiseFault gid [j] ((out j).fault.getD { kind := 0 }) len) s
  let joint := failing.filter fun j => (out j).together
  (joint.filterMap fun j => (out j).fault).eraseDups.foldl (fun s i =>
    s.raiseFault gid (joint.filter fun j => (out j).fault == some i) i len) s

/-- What an issue brings about once its lanes have completed, waited or been kept: its faults, the traps it asks for, and the
lanes it parks as fatal. -/
def State.conclude (s : State) (gid : Nat) (iss : Issue) (breach misnamed acting : List Nat) (out : Nat → LaneOut) : State :=
  let done := acting.filter fun j => (out j).fault.isNone
  let s := (s.raiseFaults gid iss.len breach misnamed (acting.filter fun j => (out j).fault.isSome) out).takeTraps gid iss done out
  match fatalLanes done out with
  | [] => s
  | (j, kind) :: rest => s.applyPolicy gid (j :: rest.map fun e => e.1) kind

/-- An issue that passes the static checks, on the lanes that do not stall for a drain: lookahead violations (R58) (log 6), then
frame checks (R89), then the body, its completion and its faults, the traps it asks for and the lanes it parks as fatal. -/
def State.runBody (s : State) (i : Instr) (f : Fields) (body : Body) (iss : Issue) (e : Env) (stalled : List Nat) : State :=
  let breach := breachLanes i f e
  let sound := (actors i f e).filter fun j => !breach.contains j
  let misnamed := sound.filter fun j => !namesGood i f e j
  let acting := sound.filter fun j => namesGood i f e j
  let pid := s.ids
  let r := body e acting { s with ids := s.ids + 1 }
  let out := r.2
  let failing := acting.filter fun j => (out j).fault.isSome
  let done := acting.filter fun j => (out j).fault.isNone
  let c := e.g.completion (kindOf i) e.s.now e.s.clk.toNat pid e.m f.la.toNat e.cs done out
  (r.1.mapGroup e.g.id (Group.issued c e.cs stalled done (breach ++ misnamed ++ failing) out)).conclude e.g.id iss breach misnamed
    acting out

/-- Lanes of a group change as an issue says that does not execute its instruction: some stall for a drain, and some more change. -/
def Group.holdBack (stalled changed : List Nat) (change : Lane → Lane) (g : Group) : Group :=
  g.mapLanes fun j l =>
    if stalled.contains j then { l with status := .stalled true } else if changed.contains j then change l else l

/-- What an issue waits for before its instruction has any effect: an s register whose latest write is still to come (R120), or the
scratchpad port (R192). -/
def heldBack (i : Instr) (f : Fields) (e : Env) : Option Wait :=
  if (e.guarded f).isEmpty && !isSel i then none
  else
    match e.unsettled (sourceNames (useOf i) f) with
    | some x => some (.scalar x)
    | none => if usesPort i f e && e.s.portBusy e.g then some .port else none

/-- Execution of one of the 170 instructions on the convergence set of the issue (R65, R9, R10) (log 19): lanes whose outstanding
results a drain waits for leave the set (R56, R79); what it has to wait for comes first (R120, R192). -/
def runCore (i : Instr) (f : Fields) (body : Body) (s0 : State) : State :=
  match s0.issue with
  | none => s0
  | some iss =>
    let s := { s0 with issue := none }
    match s.group? iss.gid with
    | none => s
    | some g =>
      match s.team? g.team with
      | none => s
      | some t =>
        let stalled := drainLanes i g iss.lanes
        let drained := (lanesOf iss.lanes).filter fun j => !stalled.contains j
        let e : Env := { s, g, t, cs := maskOf drained, m := iss.len }
        let static := staticFault i e f
        if !static.isEmpty then
          (s.mapGroup g.id (Group.holdBack stalled (drained.filter fun j => !static.contains j) fun l =>
            (l.countDown.advance iss.len).settle (s.clk.toNat + 1))).raiseFault g.id static { kind := illegalInstruction } iss.len
        else
          match heldBack i f e with
          | some w => s.mapGroup g.id (Group.holdBack stalled drained fun l => { l with status := .waiting w })
          | none => s.runBody i f body iss e stalled

end Sys2Proof.Machine
end

