-- ==== Sys2Proof/Machine/Phase.lean ====
section
/-! DEFINITION. The store side of the phase machine (R172, R174, R180, R181): issued stores, their entry into the store buffer,
overflow lines and the shadow quota. -/

namespace Sys2Proof.Machine

/-- The bytes of an access that is a store to enter. -/
def Op.stores (o : Op) : List (Nat × Byte) :=
  match o.access with
  | .enter bs => bs
  | _ => []

/-- Whether an access is a store to enter. -/
def Op.isStore (o : Op) : Bool :=
  match o.access with
  | .enter _ => true
  | _ => false

/-- The 32-byte sectors that entries take in the store buffer: the first 32 per KiB of the allotment, in the order in which they
came (R180). -/
def Team.sectorsUsed (t : Team) (es : List (Nat × Byte)) : List Nat := (sectorsOf es).take (32 * (t.allotment / 1024))

/-- The overflow lines that entries take: the 256-byte lines of the sectors for which the allotment had no room (R181). -/
def Team.linesTaken (t : Team) (es : List (Nat × Byte)) : List Nat :=
  (((sectorsOf es).drop (32 * (t.allotment / 1024))).map fun sector => sector / 8).eraseDups

/-- The overflow line a store of some bytes needs anew, given the entries before it (R181). -/
def Team.newLine (t : Team) (before bs : List (Nat × Byte)) : Option Nat :=
  (t.linesTaken (before ++ bs)).find? fun b => !(t.linesTaken before).contains b

/-- The team's buffer once a store has entered: its bytes are the newest entries, with the overflow lines they take (R172, R181). -/
def Team.withStore (t : Team) (bs : List (Nat × Byte)) : Team :=
  { t with store := t.store ++ bs, overflow := t.linesTaken (t.store ++ bs) }

/-- A team as it stands once its issued stores have entered. -/
def State.entered (s : State) (t : Team) : Team :=
  (s.ops.filter fun o => o.team == t.id && o.isStore).foldl (fun t o => t.withStore o.stores) t

/-- The overflow lines that the issued stores of a context take as they enter (R181) (log 24). -/
def State.linesToCome (s : State) (c : Nat) : Nat :=
  ((s.teams.filter fun t => t.ctx == c).map fun t => (s.entered t).overflow.length - t.overflow.length).foldl (· + ·) 0

/-- Whether a store would need an overflow line beyond its context's quota, counting the lines of the stores issued before it
(R181). -/
def State.overQuota (s : State) (t : Team) (bs : List (Nat × Byte)) : Bool :=
  let u := s.entered t
  (u.newLine u.store bs).isSome && decide ((s.ctx t.ctx).quota ≤ s.shadowLines t.ctx + s.linesToCome t.ctx)

/-- The access with a number leaves the pending accesses. -/
def State.dropOp (s : State) (id : Nat) : State := { s with ops := s.ops.filter fun o => !(o.id == id) }

/-- The overflow line that a store needs anew. -/
def State.wantedLine (s : State) (o : Op) : Option Nat := (s.team? o.team).bind fun t => t.newLine t.store o.stores

/-- Whether stores wait at the home slice of a line (R181). -/
def State.sliceAwaited (s : State) (b : Nat) : Bool :=
  (sliceOf (256 * b)).isSome && s.ops.any fun x => x.waiting.isSome &&
    ((s.wantedLine x).map fun c => sliceOf (256 * c) == sliceOf (256 * b)).getD false

/-- Whether the home slice of a line has no free shadow capacity (R181). -/
def State.sliceFull (s : State) (b : Nat) : Bool :=
  ((sliceOf (256 * b)).map fun n => decide (sliceCapacity ≤ s.sliceLines n)).getD false

/-- Enter(s) (R172): the bytes of a store become the newest entries of its team's buffer. A store that needs an overflow line
while its slice has no free shadow capacity, or while others wait for that slice, waits at the slice (R181); granted lets it take a
freed line. -/
def State.enterStore (s : State) (o : Op) (granted : Bool) : State :=
  match s.team? o.team with
  | none => s.dropOp o.id
  | some t =>
    match t.newLine t.store o.stores with
    | none => (s.dropOp o.id).mapTeam t.id fun t => t.withStore o.stores
    | some b =>
      if !granted && (s.sliceFull b || s.sliceAwaited b || o.waiting.isSome) then
        { s with ops := s.ops.map fun x => if x.id = o.id then { x with waiting := some (x.waiting.getD s.now) } else x }
      else (s.dropOp o.id).mapTeam t.id fun t => t.withStore o.stores

/-- Whether two lists of entries share a byte. -/
def overlaps (a b : List (Nat × Byte)) : Bool := a.any fun x => b.any fun y => y.1 == x.1

/-- Whether store x, issued before store o in its group, is to enter before it (R172, R174): both are of one thread, or of two lanes
of one ST that write the same byte. -/
def Op.storesFirst (x o : Op) : Bool := x.lane == o.lane || (x.issued == o.issued && overlaps x.stores o.stores)

/-- Whether a store may enter: every earlier store of its thread has, and of the lanes of one ST that write the same byte the
lower-numbered ones have (R172, R174). -/
def State.storeReady (s : State) (o : Op) : Bool :=
  o.isStore && !s.ops.any fun x => x.isStore && x.gid == o.gid && decide (x.id < o.id) &&
    x.storesFirst o

/-- The issued stores of a thread that have not entered, in issue order. -/
def State.threadStores (s : State) (gid j : Nat) : List Op :=
  s.ops.filter fun o => o.gid == gid && o.lane == j && o.isStore

/-- The issued stores of some lanes of a group enter in issue order (R174), with those that are to enter before them, as far as none
waits for a shadow line. -/
def State.enterLanes (s : State) (gid : Nat) (lanes : List Nat) : State :=
  let stores := (s.ops.filter fun o => o.gid == gid && o.isStore).foldr (fun o acc =>
    if lanes.contains o.lane || acc.any o.storesFirst then o :: acc else acc) []
  stores.foldl (fun s o => if s.storeReady o && o.waiting.isNone then s.enterStore o false else s) s

/-- A body that first lets the earlier stores of the lanes that need it enter (R174); a lane with a store that still waits
for a shadow line waits and executes the instruction again. -/
def afterStoresOf (needs : Env → Nat → Bool) (body : Body) : Body := fun e ls s =>
  let s := s.enterLanes e.g.id (ls.filter (needs e))
  let late := ls.filter fun j => needs e j && !(s.threadStores e.g.id j).isEmpty
  let ready := ls.filter fun j => !late.contains j
  let e' : Env := { e with s := { s with ids := e.s.ids }, g := (s.group? e.g.id).getD e.g, t := (s.team? e.t.id).getD e.t }
  let r := body e' ready s
  (r.1, fun j => if late.contains j then { flow := .wait .stores none } else r.2 j)

/-- The same for every lane. -/
def afterStores (body : Body) : Body := afterStoresOf (fun _ _ => true) body

/-- R160: with SATA set, the instruction raises SatOverflow on its guarded lanes before any effect and clears SATA. -/
def checkSata (body : Body) : Body := fun e ls s =>
  if e.g.sata ∧ !ls.isEmpty then
    (s.mapGroup e.g.id fun g => { g with sata := false },
     fun _ => { fault := some { kind := satOverflow }, together := true })
  else body e ls s

/-- The class in which an access of a team competes (R24, R27): lane accesses are of class 2, those to the slice of a cluster
member of class 1. -/
def Access.cls (a : Access) (team : Nat) : Nat :=
  let remote (p : Spot) : Nat := if p.remote || p.team != team then 1 else 2
  match a with
  | .read p _ => remote p
  | .write p _ => remote p
  | .localAtomic p _ _ _ _ _ _ => remote p
  | _ => 2

/-- A new pending access. -/
def State.addOp (s : State) (e : Env) (j : Nat) (pend : Option Nat) (va : DWord) (access : Access) : State :=
  { s with ops := s.ops ++ [{ id := s.ids, gid := e.g.id, lane := j, team := e.t.id, pend, va, pc := (e.g.lane j).pc,
                              issued := s.now, since := s.real, cls := access.cls e.t.id, waited := s.clk.toNat, access }],
           ids := s.ids + 1 }

/-- The identity of the outstanding results of the instruction in execution: the number runCore took for it. -/
def Env.pid (e : Env) : Nat := e.s.ids

end Sys2Proof.Machine
end

