-- ==== Sys2Proof/Machine/Buffers.lean ====
section
/-! DEFINITION. The buffer table (R196 to R204): descriptors, the legality of accesses, and the tag store. -/

namespace Sys2Proof.Machine

/-! ## Legality -/

/-- The kinds of access of R200, in the order of their codes in a record (R339). -/
inductive BufferAccess where
  | read
  | write
  | atomic
  | barrier
  | engineWrite
  | engineRead
  | matrixRead
  | tag
  deriving DecidableEq, Repr

/-- The code of a kind of access (R339). -/
def BufferAccess.code (a : BufferAccess) : Nat :=
  match a with
  | .read => 0
  | .write => 1
  | .atomic => 2
  | .barrier => 3
  | .engineWrite => 4
  | .engineRead => 5
  | .matrixRead => 6
  | .tag => 7

/-- The legality table for the states EMPTY, FILLING, FULL and DRAINING of a stream or tagged buffer (R200). -/
def legalChecked (d : DWord) (a : BufferAccess) (o w : Nat) : Bool :=
  let stream := descKind d == 1
  let tagged := descKind d == 2
  match a, descState d with
  | .read, 0 => false
  | .read, 1 => stream && decide (o + w ≤ descWp d)
  | .read, _ => true
  | .write, 0 => true
  | .write, 1 => stream && !descEng d && decide (descWp d ≤ o)
  | .write, 2 => tagged
  | .atomic, 2 => tagged
  | .barrier, 2 => tagged
  | .engineWrite, 0 => true
  | .engineWrite, 2 => tagged
  | .engineRead, 2 => true
  | .matrixRead, 2 => true
  | .matrixRead, 3 => true
  | .tag, 2 => tagged
  | _, _ => false

/-- Whether an access to a declared buffer is legal (R200); on a plain buffer every one is, other than a tag operation. -/
def legal (d : DWord) (a : BufferAccess) (o w : Nat) : Bool :=
  if descKind d = 0 then a != .tag else legalChecked d a o w

/-- The fields of a BufferState or BufferBounds record (R198, R339) (log 29). -/
def bufferFault (kind : Nat) (d : DWord) (n : Nat) (a : BufferAccess) (o : Int) (addr : DWord) : FaultInfo :=
  { kind, addr, info := BitVec.ofNat 32 (n + 32 * a.code + 256 * descState d), aux := BitVec.ofInt 64 o,
    aux2 := BitVec.ofNat 64 (descWp d) }

/-- The access code of AddressFault, Misaligned and AccessViolation records for a scratchpad access (R339). -/
def BufferAccess.info (a : BufferAccess) : Word :=
  match a with
  | .read => 0
  | .engineRead => 0
  | .matrixRead => 0
  | .write => 1
  | .engineWrite => 1
  | _ => 3

/-- The checks of R197 on w bytes at offset o of buffer n of a team, aligned to a number: the slice offset, or the fault. The
spec gives the Misaligned record of a buffer operand no address: the model puts o into ADDR (DESIGN CHOICE, log 29). -/
def checkSpan (t : Team) (n : Nat) (o : Int) (w align : Nat) (a : BufferAccess) : Except FaultInfo Nat :=
  let d := t.buffer n
  if !descV d then .error (bufferFault bufferState d n a o 0)
  else if o < 0 ∨ (descSize d : Int) < o + w then .error (bufferFault bufferBounds d n a o 0)
  else if o % (align : Int) ≠ 0 then .error { kind := misaligned, addr := BitVec.ofInt 64 o, info := a.info }
  else if !legal d a o.toNat w then .error (bufferFault bufferState d n a o 0)
  else .ok (descBase d + o.toNat)

/-- The checks on an access of w bytes, aligned to its width (R197). -/
def checkBuffer (t : Team) (n : Nat) (o : Int) (w : Nat) (a : BufferAccess) : Except FaultInfo Nat := checkSpan t n o w w a

/-- The declared buffer that holds a slice offset (R197). -/
def Team.bufferAt (t : Team) (offset : Nat) : Option Nat :=
  (List.range 32).find? fun n =>
    let d := t.buffer n
    descV d && decide (descBase d ≤ offset ∧ offset < descBase d + descSize d)

/-- The check of a generic scratchpad address at a slice offset (R197); outside every buffer as in a plain one. -/
def checkOffset (t : Team) (offset w : Nat) (a : BufferAccess) (addr : DWord) : Option FaultInfo :=
  match t.bufferAt offset with
  | none => none
  | some n =>
    let d := t.buffer n
    if legal d a (offset - descBase d) w then none
    else some (bufferFault bufferState d n a ((offset - descBase d : Nat) : Int) addr)

/-! ## The tag store -/

/-- The tag of a slot of a buffer; none where it is invalid (R203). -/
def Team.tag (t : Team) (n slot : Nat) : Option Word := sget none t.tags (4096 * n + slot)

/-- A slot's tag set. -/
def Team.setTag (t : Team) (n slot : Nat) (v : Option Word) : Team :=
  { t with tags := sput none t.tags (4096 * n + slot) v }

/-- Every tag of a buffer made invalid. -/
def Team.clearTags (t : Team) (n : Nat) : Team :=
  { t with tags := t.tags.filter fun e => !(e.1 / 4096 == n) }

/-- The slots of the set of a tag (R203). A launch record may declare a buffer whose slots are fewer than 2^WAYS or no multiple
of it, and R203 gives no set there: the model takes the quotient cut off, and set t where it is 0 (DESIGN CHOICE, log 8). -/
def slotsOfTag (d : DWord) (tag : Word) : List Nat :=
  let w := descWays d
  let set := tag.toNat % (descSlots d / w)
  (List.range w).map fun i => set * w + i

/-- The tag-store entries in use on a core (R203): the slots of its teams' declared tagged buffers. -/
def State.tagsUsed (s : State) (core : Nat) : Nat :=
  ((s.teams.filter fun t => t.core == core && !decide (t.exit = .gone)).map fun t =>
    (t.buffers.map fun e => if descV e.2 && descKind e.2 == 2 then descSlots e.2 else 0).foldl (· + ·) 0).foldl (· + ·) 0

end Sys2Proof.Machine
end

