-- ==== Sys2Proof/Machine/Flags.lean ====
section
/-! DEFINITION. Integer results and the flags that go with them: wrapping, saturation, carries and borrows, relations and
their combination (R119, R123 to R131). -/

namespace Sys2Proof.Machine

/-- Bits(v, 32) (R11). -/
def bits32 (v : Int) : Word := BitVec.ofInt 32 v

/-- Bits(v, 64) (R11). -/
def bits64 (v : Int) : DWord := BitVec.ofInt 64 v

/-- A value clamped to a range (R119). -/
def clamp (lo hi v : Int) : Int := if v < lo then lo else if hi < v then hi else v

/-- The signed clamp of .sat (R123). -/
def clampSigned (v : Int) : Word := bits32 (clamp (-2147483648) 2147483647 v)

/-- The unsigned clamp of .satu (R123). -/
def clampUnsigned (v : Int) : Word := bits32 (clamp 0 4294967295 v)

/-- IADD by its MOD bits: wrapped, .sat or .satu (R123). -/
def addWith (mod : Nat) (a b : Word) : Word :=
  match mod with
  | 1 => clampSigned (a.toInt + b.toInt)
  | 2 => clampUnsigned (a.toNat + b.toNat)
  | _ => bits32 (a.toInt + b.toInt)

/-- ISUB by its MOD bits (R123). -/
def subWith (mod : Nat) (a b : Word) : Word :=
  match mod with
  | 1 => clampSigned (a.toInt - b.toInt)
  | 2 => clampUnsigned ((a.toNat : Int) - b.toNat)
  | _ => bits32 (a.toInt - b.toInt)

/-- IMULH: bits [63:32] of the product, signed or .u (R123). -/
def mulHigh (u : Bool) (a b : Word) : Word :=
  if u then BitVec.ofNat 32 (a.toNat * b.toNat / 2 ^ 32) else bits32 ((a.toInt * b.toInt) / 2 ^ 32)

/-- A result inverted under .inv (R123). -/
def invIf (c : Bool) (v : Word) : Word := if c then ~~~v else v

/-- A shift amount: the whole value, or modulo 32 under .wrap (R123). -/
def shiftBy (wrap : Bool) (b : Word) : Nat := if wrap then b.toNat % 32 else b.toNat

/-- SHL, SHR and SHRA; an amount of 32 or more shifts everything out (R123). -/
def shiftLeft (wrap : Bool) (a b : Word) : Word := if shiftBy wrap b < 32 then a <<< shiftBy wrap b else 0

def shiftRight (wrap : Bool) (a b : Word) : Word := if shiftBy wrap b < 32 then a >>> shiftBy wrap b else 0

def shiftArith (wrap : Bool) (a b : Word) : Word := a.sshiftRight (min (shiftBy wrap b) 31)

/-- Signed or unsigned order (R123, R130). -/
def lessThan (u : Bool) (a b : Word) : Bool := if u then a.ult b else a.slt b

def minOf (u : Bool) (a b : Word) : Word := if lessThan u b a then b else a

def maxOf (u : Bool) (a b : Word) : Word := if lessThan u a b then b else a

/-- POPC (R123). -/
def popCount (a : Word) : Word := BitVec.ofNat 32 ((List.range 32).countP fun i => a.getLsbD i)

/-- CLZ (R128). -/
def leadingZeros (a : Word) : Word :=
  BitVec.ofNat 32 (((List.range 32).find? fun i => a.getLsbD (31 - i)).getD 32)

/-- BREV (R128). -/
def reverseBits (a : Word) : Word :=
  BitVec.ofNat 32 ((List.range 32).foldl (fun v i => if a.getLsbD (31 - i) then v + 2 ^ i else v) 0)

/-- INEG and IABS, with .sat for the most negative value (R128). -/
def negate (sat : Bool) (a : Word) : Word := if sat ∧ a = 0x80000000#32 then 0x7FFFFFFF#32 else bits32 (-a.toInt)

def absolute (sat : Bool) (a : Word) : Word :=
  if sat ∧ a = 0x80000000#32 then 0x7FFFFFFF#32 else bits32 (a.toInt.natAbs : Int)

/-- Position and length of a field control word (R129). -/
def fieldPos (f : Word) : Nat := min (f.toNat % 256) 32

def fieldLen (f : Word) : Nat := min (f.toNat / 256 % 256) 32

/-- BFE (R129). -/
def extractField (signed : Bool) (a f : Word) : Word :=
  let p := fieldPos f
  let w := fieldLen f
  let x := a.toNat / 2 ^ p % 2 ^ w
  if signed ∧ 1 ≤ w ∧ x / 2 ^ (w - 1) % 2 = 1 then bits32 ((x : Int) - 2 ^ w) else BitVec.ofNat 32 x

/-- BFI (R129). -/
def insertField (a f r : Word) : Word :=
  let p := fieldPos f
  let w := fieldLen f
  BitVec.ofNat 32 ((List.range 32).foldl (fun v i =>
    if (if p ≤ i ∧ i < p + w then a.getLsbD (i - p) else r.getLsbD i) then v + 2 ^ i else v) 0)

/-- The carry out of IADDC: whether the sum reaches 2^32; its sum (R127). -/
def carrySum (a b : Word) (ci : Bool) : Nat := a.toNat + b.toNat + (if ci then 1 else 0)

def carryOut (a b : Word) (ci : Bool) : Bool := decide (2 ^ 32 ≤ carrySum a b ci)

/-- The difference and the borrow out of ISUBB: whether it is negative (R127). -/
def borrowDiff (a b : Word) (ci : Bool) : Int := (a.toNat : Int) - b.toNat - (if ci then 1 else 0)

def borrowOut (a b : Word) (ci : Bool) : Bool := decide (borrowDiff a b ci < 0)

/-- The relation of two words as a number: 0 less, 1 equal, 2 greater (R130). -/
def relation (u : Bool) (a b : Word) : Nat := if lessThan u a b then 0 else if a = b then 1 else 2

/-- The combination of a comparison with a predicate: none, AND, OR, XOR (R130). -/
def combine (c : Nat) (t p : Bool) : Bool :=
  match c with
  | 1 => t && p
  | 2 => t || p
  | 3 => t != p
  | _ => t

/-- REDG's operators (R137). -/
def reduceOp (op : Nat) (a b : Word) : Word :=
  match op with
  | 0 => a + b
  | 1 => minOf false a b
  | 2 => maxOf false a b
  | 3 => minOf true a b
  | 4 => maxOf true a b
  | 5 => a &&& b
  | 6 => a ||| b
  | _ => a ^^^ b

/-- Their identities (R137). -/
def reduceUnit (op : Nat) : Word :=
  match op with
  | 1 => 0x7FFFFFFF#32
  | 2 => 0x80000000#32
  | 3 => 0xFFFFFFFF#32
  | 5 => 0xFFFFFFFF#32
  | _ => 0

end Sys2Proof.Machine
end

