-- ==== Sys2Proof/Machine/Integer.lean ====
section
/-! DEFINITION. The integer, predicate and lane instructions (R119 to R137). -/

namespace Sys2Proof.Machine

/-- A two-source operation of each guarded lane. -/
def binary (i : Instr) (f : Fields) (op : Word → Word → Word) (s : State) : Host.Outcome State Fault Refusal :=
  .next (runCore i f (perLane fun e j => { writes := e.setReg j f.d (op (e.reg j f.a) (e.reg j f.b)) }) s)

/-- A one-source operation of each guarded lane. -/
def unary (i : Instr) (f : Fields) (op : Word → Word) (s : State) : Host.Outcome State Fault Refusal :=
  .next (runCore i f (perLane fun e j => { writes := e.setReg j f.d (op (e.reg j f.a)) }) s)

/-- IADD (R123): wrapped sum; .sat and .satu clamp. -/
def execIadd (f : Fields) (s : State) : Host.Outcome State Fault Refusal :=
  binary (.iadd f) f (addWith 0) s

/-- IADD, long form (R123): wrapped sum; .sat and .satu clamp, with its modifiers. -/
def execIaddLong (f : Fields) (s : State) : Host.Outcome State Fault Refusal :=
  binary (.iaddLong f) f (addWith f.mod.toNat) s

/-- ISUB (R123): wrapped difference; .sat and .satu clamp. -/
def execIsub (f : Fields) (s : State) : Host.Outcome State Fault Refusal :=
  binary (.isub f) f (subWith 0) s

/-- ISUB, long form (R123): wrapped difference; .sat and .satu clamp, with its modifiers. -/
def execIsubLong (f : Fields) (s : State) : Host.Outcome State Fault Refusal :=
  binary (.isubLong f) f (subWith f.mod.toNat) s

/-- IMUL (R123): low 32 bits of the product. -/
def execImul (f : Fields) (s : State) : Host.Outcome State Fault Refusal :=
  binary (.imul f) f (fun a b => a * b) s

/-- IMUL, long form (R123): low 32 bits of the product, with its modifiers. -/
def execImulLong (f : Fields) (s : State) : Host.Outcome State Fault Refusal :=
  binary (.imulLong f) f (fun a b => a * b) s

/-- IMULH (R123): high 32 bits of the product. -/
def execImulh (f : Fields) (s : State) : Host.Outcome State Fault Refusal :=
  binary (.imulh f) f (mulHigh false) s

/-- IMULH, long form (R123): high 32 bits of the product, with its modifiers. -/
def execImulhLong (f : Fields) (s : State) : Host.Outcome State Fault Refusal :=
  binary (.imulhLong f) f (mulHigh (modBit f 0)) s

/-- AND (R123): A AND B. -/
def execAnd (f : Fields) (s : State) : Host.Outcome State Fault Refusal :=
  binary (.and f) f (fun a b => a &&& b) s

/-- AND, long form (R123): A AND B, with its modifiers. -/
def execAndLong (f : Fields) (s : State) : Host.Outcome State Fault Refusal :=
  binary (.andLong f) f (fun a b => invIf (modBit f 0) (a &&& b)) s

/-- OR (R123): A OR B. -/
def execOr (f : Fields) (s : State) : Host.Outcome State Fault Refusal :=
  binary (.or f) f (fun a b => a ||| b) s

/-- OR, long form (R123): A OR B, with its modifiers. -/
def execOrLong (f : Fields) (s : State) : Host.Outcome State Fault Refusal :=
  binary (.orLong f) f (fun a b => invIf (modBit f 0) (a ||| b)) s

/-- XOR (R123): A XOR B. -/
def execXor (f : Fields) (s : State) : Host.Outcome State Fault Refusal :=
  binary (.xor f) f (fun a b => a ^^^ b) s

/-- XOR, long form (R123): A XOR B, with its modifiers. -/
def execXorLong (f : Fields) (s : State) : Host.Outcome State Fault Refusal :=
  binary (.xorLong f) f (fun a b => invIf (modBit f 0) (a ^^^ b)) s

/-- ANDN (R123): A AND NOT B. -/
def execAndn (f : Fields) (s : State) : Host.Outcome State Fault Refusal :=
  binary (.andn f) f (fun a b => a &&& ~~~b) s

/-- ANDN, long form (R123): A AND NOT B, with its modifiers. -/
def execAndnLong (f : Fields) (s : State) : Host.Outcome State Fault Refusal :=
  binary (.andnLong f) f (fun a b => invIf (modBit f 0) (a &&& ~~~b)) s

/-- SHL (R123): shift left. -/
def execShl (f : Fields) (s : State) : Host.Outcome State Fault Refusal :=
  binary (.shl f) f (shiftLeft false) s

/-- SHL, long form (R123): shift left, with its modifiers. -/
def execShlLong (f : Fields) (s : State) : Host.Outcome State Fault Refusal :=
  binary (.shlLong f) f (shiftLeft (modBit f 0)) s

/-- SHR (R123): shift right, zero fill. -/
def execShr (f : Fields) (s : State) : Host.Outcome State Fault Refusal :=
  binary (.shr f) f (shiftRight false) s

/-- SHR, long form (R123): shift right, zero fill, with its modifiers. -/
def execShrLong (f : Fields) (s : State) : Host.Outcome State Fault Refusal :=
  binary (.shrLong f) f (shiftRight (modBit f 0)) s

/-- SHRA (R123): shift right, sign fill. -/
def execShra (f : Fields) (s : State) : Host.Outcome State Fault Refusal :=
  binary (.shra f) f (shiftArith false) s

/-- SHRA, long form (R123): shift right, sign fill, with its modifiers. -/
def execShraLong (f : Fields) (s : State) : Host.Outcome State Fault Refusal :=
  binary (.shraLong f) f (shiftArith (modBit f 0)) s

/-- IMIN (R123): minimum. -/
def execImin (f : Fields) (s : State) : Host.Outcome State Fault Refusal :=
  binary (.imin f) f (minOf false) s

/-- IMIN, long form (R123): minimum, with its modifiers. -/
def execIminLong (f : Fields) (s : State) : Host.Outcome State Fault Refusal :=
  binary (.iminLong f) f (minOf (modBit f 0)) s

/-- IMAX (R123): maximum. -/
def execImax (f : Fields) (s : State) : Host.Outcome State Fault Refusal :=
  binary (.imax f) f (maxOf false) s

/-- IMAX, long form (R123): maximum, with its modifiers. -/
def execImaxLong (f : Fields) (s : State) : Host.Outcome State Fault Refusal :=
  binary (.imaxLong f) f (maxOf (modBit f 0)) s

/-- MOV: A (R123). -/
def execMov (f : Fields) (s : State) : Host.Outcome State Fault Refusal :=
  unary (.mov f) f (fun a => a) s

/-- MOV: A, long form (R123). -/
def execMovLong (f : Fields) (s : State) : Host.Outcome State Fault Refusal :=
  unary (.movLong f) f (fun a => a) s

/-- POPC: number of 1 bits (R123). -/
def execPopc (f : Fields) (s : State) : Host.Outcome State Fault Refusal :=
  unary (.popc f) f (popCount) s

/-- POPC: number of 1 bits, long form (R123). -/
def execPopcLong (f : Fields) (s : State) : Host.Outcome State Fault Refusal :=
  unary (.popcLong f) f (popCount) s

/-- SEL's choice on every lane of the convergence set: A where the guard passes, else B (R38, R123). -/
def selBody (f : Fields) : Body :=
  perLane fun e j => { writes := e.setReg j f.d (if e.passes f j then e.reg j f.a else e.reg j f.b) }

/-- SEL (R38, R123). -/
def execSel (f : Fields) (s : State) : Host.Outcome State Fault Refusal :=
  .next (runCore (.sel f) f (selBody f) s)

/-- SEL, long form (R38, R123). -/
def execSelLong (f : Fields) (s : State) : Host.Outcome State Fault Refusal :=
  .next (runCore (.selLong f) f (selBody f) s)

/-- NOP, short form (R63): nothing but the program counter. -/
def execNop (s : State) : Host.Outcome State Fault Refusal :=
  .next (runCore .nop ⟨false, 0, false, 0, 0, 0, 0, 0, 0, 0, 0⟩ (perLane fun _ _ => {}) s)

/-- NOP, long form (R115): nothing but the program counter. -/
def execNopLong (f : Fields) (s : State) : Host.Outcome State Fault Refusal :=
  .next (runCore (.nopLong f) f (perLane fun _ _ => {}) s)

/-- IADDI (R124). -/
def execIaddi (f : Fields) (s : State) : Host.Outcome State Fault Refusal :=
  unary (.iaddi f) f (fun a => bits32 (a.toInt + f.imm.toInt)) s

/-- MOVI (R124). -/
def execMovi (f : Fields) (s : State) : Host.Outcome State Fault Refusal :=
  .next (runCore (.movi f) f (perLane fun e j => { writes := e.setReg j f.d f.imm }) s)

/-- IMAD (R125). -/
def execImad (f : Fields) (s : State) : Host.Outcome State Fault Refusal :=
  .next (runCore (.imad f) f (perLane fun e j =>
    { writes := e.setReg j f.d (e.reg j f.a * e.reg j f.b + e.reg j f.c) }) s)

/-- The 64-bit multiply-add of IMADW, signed or .u (R125). -/
def mulAddWide (u : Bool) (a b : Word) (c : DWord) : DWord :=
  if u then BitVec.ofNat 64 (a.toNat * b.toNat + c.toNat) else bits64 (a.toInt * b.toInt + c.toInt)

/-- IMADW (R125). -/
def execImadw (f : Fields) (s : State) : Host.Outcome State Fault Refusal :=
  .next (runCore (.imadw f) f (perLane fun e j =>
    { writes := e.setPair j f.d (mulAddWide (modBit f 0) (e.reg j f.a) (e.reg j f.b) (e.pair j f.c)) }) s)

/-- The address LEA forms (R126). -/
def leaAddress (f : Fields) (base : DWord) (x : Word) : DWord :=
  bits64 ((base.toNat : Int) + (if modBit f 3 then (x.toNat : Int) else x.toInt) * 2 ^ modBits f 0 3)

/-- LEA (R126). -/
def execLea (f : Fields) (s : State) : Host.Outcome State Fault Refusal :=
  .next (runCore (.lea f) f (perLane fun e j =>
    { writes := e.setPair j f.d (leaAddress f (e.pair j f.a) (e.reg j f.b)) }) s)

/-- The carry in of IADDC and ISUBB: none under .nc, else predicate C (R127). -/
def carryIn (e : Env) (f : Fields) (j : Nat) : Bool := !modBit f 0 && e.pred j f.c.toNat

/-- IADDC (R127). -/
def execIaddc (f : Fields) (s : State) : Host.Outcome State Fault Refusal :=
  .next (runCore (.iaddc f) f (perLane fun e j =>
    let a := e.reg j f.a
    let b := e.reg j f.b
    let ci := carryIn e f j
    { writes := setPred f.c.toNat (carryOut a b ci) ++ e.setReg j f.d (BitVec.ofNat 32 (carrySum a b ci)) }) s)

/-- ISUBB (R127). -/
def execIsubb (f : Fields) (s : State) : Host.Outcome State Fault Refusal :=
  .next (runCore (.isubb f) f (perLane fun e j =>
    let a := e.reg j f.a
    let b := e.reg j f.b
    let ci := carryIn e f j
    { writes := setPred f.c.toNat (borrowOut a b ci) ++ e.setReg j f.d (bits32 (borrowDiff a b ci)) }) s)

/-- INEG (R128). -/
def execIneg (f : Fields) (s : State) : Host.Outcome State Fault Refusal :=
  unary (.ineg f) f (negate (modBit f 0)) s

/-- IABS (R128). -/
def execIabs (f : Fields) (s : State) : Host.Outcome State Fault Refusal :=
  unary (.iabs f) f (absolute (modBit f 0)) s

/-- ROT (R128). -/
def execRot (f : Fields) (s : State) : Host.Outcome State Fault Refusal :=
  binary (.rot f) f (fun a b => if modBit f 0 then a.rotateRight (b.toNat % 32) else a.rotateLeft (b.toNat % 32)) s

/-- CLZ (R128). -/
def execClz (f : Fields) (s : State) : Host.Outcome State Fault Refusal :=
  unary (.clz f) f (leadingZeros) s

/-- BREV (R128). -/
def execBrev (f : Fields) (s : State) : Host.Outcome State Fault Refusal :=
  unary (.brev f) f (reverseBits) s

/-- BFE (R129). -/
def execBfe (f : Fields) (s : State) : Host.Outcome State Fault Refusal :=
  binary (.bfe f) f (extractField (modBit f 0)) s

/-- BFI (R129). -/
def execBfi (f : Fields) (s : State) : Host.Outcome State Fault Refusal :=
  .next (runCore (.bfi f) f (perLane fun e j =>
    { writes := e.setReg j f.d (insertField (e.reg j f.a) (e.reg j f.b) (e.reg j f.c)) }) s)

/-- The write of a comparison: the bit of the relation in MOD[2:0], combined with predicate C by MOD[5:4] (R130). -/
def compareWrite (e : Env) (f : Fields) (j r : Nat) : List Write :=
  setPred f.d.toNat (combine (modBits f 4 2) (f.mod.getLsbD r) (e.pred j f.c.toNat))

/-- ICMP (R130). -/
def execIcmp (f : Fields) (s : State) : Host.Outcome State Fault Refusal :=
  .next (runCore (.icmp f) f (perLane fun e j =>
    { writes := compareWrite e f j (relation (modBit f 3) (e.reg j f.a) (e.reg j f.b)) }) s)

/-- ICMPI (R130). -/
def execIcmpi (f : Fields) (s : State) : Host.Outcome State Fault Refusal :=
  .next (runCore (.icmpi f) f (perLane fun e j =>
    { writes := compareWrite e f j (relation (modBit f 3) (e.reg j f.a) f.imm) }) s)

/-- PFUN (R131). -/
def execPfun (f : Fields) (s : State) : Host.Outcome State Fault Refusal :=
  .next (runCore (.pfun f) f (perLane fun e j =>
    let t := 2 * natOf (e.pred j f.a.toNat) + natOf (e.pred j f.b.toNat)
    { writes := setPred f.d.toNat (f.mod.getLsbD (if e.pred j f.c.toNat then 4 + t else t)) }) s)

/-- The sixteen predicates of a lane as a word (R132). -/
def predWord (e : Env) (j : Nat) : Word :=
  BitVec.ofNat 32 ((List.range 16).foldl (fun v k => if e.pred j k then v + 2 ^ k else v) 0)

/-- The predicate writes of pmov.set (R132). -/
def predWrites (a m : Word) : List Write :=
  ((List.range 16).filter fun k => m.getLsbD k).flatMap fun k => setPred k (a.getLsbD k)

/-- PMOV (R132). -/
def execPmov (f : Fields) (s : State) : Host.Outcome State Fault Refusal :=
  .next (runCore (.pmov f) f (perLane fun e j =>
    { writes := if f.mod = 0 then e.setReg j f.d (predWord e j) else predWrites (e.reg j f.a) (e.reg j f.b) }) s)

/-- The participants whose predicate p is set, as a mask (R134). -/
def ballot (e : Env) (ls : List Nat) (p : Nat) : Word := maskOf (ls.filter fun j => e.pred j p)

/-- VOTE by mode (R134): ballot, all, any, eq, mset, mget. mset changes the participants' own bits of the mask and is followed
by the release evaluation of R85. -/
def voteBody (f : Fields) : Body := fun e ls s =>
  let p := f.a.toNat
  let b := ballot e ls p
  match f.mod.toNat with
  | 0 => (s, fun j => { writes := e.setReg j f.d b })
  | 1 => (s, fun _ => { writes := setPred f.d.toNat (ls.all fun j => e.pred j p) })
  | 2 => (s, fun _ => { writes := setPred f.d.toNat (ls.any fun j => e.pred j p) })
  | 3 => (s, fun _ => { writes := setPred f.d.toNat (b == 0 || b == maskOf ls) })
  | 4 =>
    let k := f.d.toNat
    if ls.isEmpty then (s, fun _ => {})
    else (s.mapGroup e.g.id fun g => (g.setMask k ((g.mask k &&& ~~~(maskOf ls)) ||| b)).releaseMask k s.clk.toNat, fun _ => {})
  | _ => (s, fun j => { writes := e.setReg j f.d (e.g.mask f.a.toNat) })

/-- VOTE (R134). -/
def execVote (f : Fields) (s : State) : Host.Outcome State Fault Refusal :=
  .next (runCore (.vote f) f (voteBody f) s)

/-- The lane LXCH reads for lane L (R135); none where it lies outside the segment. -/
def exchangeSource (mode w l : Nat) (e : Word) : Option Nat :=
  let g := l - l % w
  match mode with
  | 0 => some (g + e.toNat % w)
  | 1 => some (g + (l - g + e.toNat) % w)
  | 2 =>
    let t : Int := l + e.toInt
    if -(w : Int) < e.toInt ∧ e.toInt < w ∧ (g : Int) ≤ t ∧ t < g + w then some t.toNat else none
  | _ => some (g + ((l - g) ^^^ (e.toNat % w)))

/-- LXCH (R133, R135). -/
def exchangeBody (f : Fields) : Body := fun e ls s =>
  (s, fun j =>
    let source := match exchangeSource (modBits f 0 2) (32 / 2 ^ modBits f 2 3) j (e.reg j f.b) with
      | some k => if ls.contains k then k else j
      | none => j
    { writes := e.setReg j f.d (e.reg source f.a) })

/-- LXCH (R135). -/
def execLxch (f : Fields) (s : State) : Host.Outcome State Fault Refusal :=
  .next (runCore (.lxch f) f (exchangeBody f) s)

/-- BCAST (R136): the value of one lane, 0 where it is no participant. -/
def broadcastBody (f : Fields) : Body := fun e ls s =>
  match ls with
  | [] => (s, fun _ => {})
  | low :: _ =>
    let k := if modBit f 0 then low else (e.reg low f.b).toNat % 32
    let v := if ls.contains k then e.reg k f.a else 0
    (s, fun j => { writes := e.setReg j f.d v })

/-- BCAST (R136). -/
def execBcast (f : Fields) (s : State) : Host.Outcome State Fault Refusal :=
  .next (runCore (.bcast f) f (broadcastBody f) s)

/-- The lanes a reduction or scan covers for lane L (R137). -/
def scanLanes (kind j : Nat) (ls : List Nat) : List Nat :=
  match kind with
  | 1 => ls.filter fun k => decide (k ≤ j)
  | 2 => ls.filter fun k => decide (k < j)
  | _ => ls

/-- REDG (R137). -/
def reduceBody (f : Fields) : Body := fun e ls s =>
  let op := modBits f 0 3
  (s, fun j =>
    let v := (scanLanes (modBits f 3 2) j ls).foldl (fun v k => reduceOp op v (e.reg k f.a)) (reduceUnit op)
    { writes := e.setReg j f.d v })

/-- REDG (R137). -/
def execRedg (f : Fields) (s : State) : Host.Outcome State Fault Refusal :=
  .next (runCore (.redg f) f (reduceBody f) s)

/-- UNASSIGNED_CODE (R5, R62, R65): illegal instruction on the guarded lanes. -/
def execUnassignedCode (f : Fields) (major : BitVec 5) (minor : BitVec 10) (s : State) :
    Host.Outcome State Fault Refusal :=
  .next (runCore (.unassignedCode f major minor) f (perLane fun _ _ => {}) s)

end Sys2Proof.Machine
end

