-- ==== Sys2Proof/Machine/Control.lean ====
section
/-! DEFINITION. The control, frame and convergence instructions of major 0x1C (R105 to R118). -/

namespace Sys2Proof.Machine

/-! ## Transfers -/

/-- A lane's transfer to a target with the checks of R67 and R68; change is what the transfer does to the lane. -/
def transferLane (e : Env) (j : Nat) (target : DWord) (check : TargetCheck) (change : Lane → Lane) : LaneOut :=
  match e.s.transfer e.t.ctx e.g.core (e.g.lane j) target check with
  | .ok line => { change, flow := .jump target (.held line) }
  | .absent => { flow := .park (.page (lineBase target)) }
  | .waits place => { flow := .wait (.home place) none }
  | .bad i => { fault := some i, together := true }

/-- What lanes' transfers do outside the lanes: lines read stand in the instruction cache, pages that are not present are
asked for. -/
def transferState (e : Env) (ls : List Nat) (targets : Nat → Option DWord) (s : State) : State :=
  ls.foldl (fun s j =>
    match targets j with
    | none => s
    | some t =>
      match e.s.transfer e.t.ctx e.g.core (e.g.lane j) t .none with
      | .ok line => s.cacheLine e.t.ctx e.g.core line
      | .absent => s.requestMove e.t.ctx (lineBase t)
      | .waits place => s.blockedAt e.g j t place
      | _ => s) s

/-- BRA and BRX: each lane goes to its target (R106). -/
def branchBody (target : Env → Nat → DWord) : Body := fun e ls s =>
  (transferState e ls (fun j => some (target e j)) s, fun j => transferLane e j (target e j) .branch id)

/-- The target of BRA and CALL: a signed byte offset from the instruction (R64). -/
def relativeTarget (f : Fields) (e : Env) (j : Nat) : DWord := (e.g.lane j).pc + f.imm.signExtend 64

/-- BRA (R106). -/
def execBra (f : Fields) (s : State) : Host.Outcome State Fault Refusal :=
  .next (runCore (.bra f) f (branchBody (relativeTarget f)) s)

/-- BRX (R106). -/
def execBrx (f : Fields) (s : State) : Host.Outcome State Fault Refusal :=
  .next (runCore (.brx f) f (branchBody fun e j => e.pair j f.a) s)

/-- The callee's frame opened on a lane, with its link entry (R107). -/
def Lane.openCall (l : Lane) (m : Nat) : Lane :=
  let f := l.fp + 16 + l.n
  { l with links := sput 0 l.links (l.depth + 1) (makeLink (l.n / 16) l.k (nextPC l.pc m)),
           depth := l.depth + 1, fp := f, n := 0, k := 0, hi := f + 16 }

/-- CALL and CALLX on a lane (R107). -/
def callLane (e : Env) (j : Nat) (target : DWord) : LaneOut :=
  let l := e.g.lane j
  if l.n = 0 then { fault := some { kind := illegalInstruction } }
  else if l.fp + 16 + l.n + 32 > e.g.kmax then { fault := some { kind := stackOverflow } }
  else transferLane e j target .call fun l => l.openCall e.m

/-- The body of CALL and CALLX. -/
def callBody (target : Env → Nat → DWord) : Body := fun e ls s =>
  let going := ls.filter fun j => (e.g.lane j).n != 0 && decide ((e.g.lane j).fp + 16 + (e.g.lane j).n + 32 ≤ e.g.kmax)
  (transferState e going (fun j => some (target e j)) s, fun j => callLane e j (target e j))

/-- CALL (R107). -/
def execCall (f : Fields) (s : State) : Host.Outcome State Fault Refusal :=
  .next (runCore (.call f) f (callBody (relativeTarget f)) s)

/-- CALLX (R107). -/
def execCallx (f : Fields) (s : State) : Host.Outcome State Fault Refusal :=
  .next (runCore (.callx f) f (callBody fun e j => e.pair j f.a) s)

/-! ## Exit and return -/

/-- The exit of lanes as far as the group's masks go (R111, R85). -/
def Group.clearMaskBits (g : Group) (ls : List Nat) (stamp : Nat) : Group :=
  let clear (e : Nat × Word) : Option (Nat × Word) :=
    let m := e.2 &&& ~~~(maskOf ls)
    if m = 0 then none else some (e.1, m)
  ({ g with masks := g.masks.filterMap clear }).releaseMasks stamp

/-- After an instruction that may have ended threads: the end of the group and of the team (R112), and the cluster barriers
that no longer wait for the exited threads (R227). -/
def State.afterExit (s : State) (gid : Nat) : State :=
  match s.group? gid with
  | none => s
  | some g =>
    let s := s.checkEnd gid
    let s := (List.range 4).foldl (fun s c => s.clusterArrive g.team c) s
    let s := match (s.team? g.team).bind fun t => if t.exit = .running then none else t.cluster with
      | some cid => s.clusterTurns cid
      | none => s
    s.wakeAll

/-- The body of EXIT (R111). -/
def exitBody : Body := fun e ls s =>
  (s.mapGroup e.g.id fun g => g.clearMaskBits ls s.clk.toNat, fun _ => { flow := .exit })

/-- EXIT (R111, R112), after the check of SATA (R160) and the entry of the thread's stores (R174). -/
def execExit (f : Fields) (s : State) : Host.Outcome State Fault Refusal :=
  .next ((runCore (.exit f) f (checkSata (afterStores exitBody)) s).afterExit s.issuing)

/-- Whether the caller's frame of a lane is resident (R97): registers from fc up, and the link entry of depth - 1. -/
def Lane.callerResident (l : Lane) (fc : Nat) : Bool := decide (l.lo ≤ fc ∧ (l.depth ≤ 1 ∨ l.linkLo ≤ l.depth - 1))

/-- The lane back in its caller's frame (R108); a background refill follows under R97. -/
def Lane.closeFrame (l : Lane) (g : Group) : Lane :=
  let e := l.link l.depth
  let fc := l.fp - 16 - 16 * linkNq e
  let l := { l with hi := l.fp + 16, fp := fc, n := 16 * linkNq e, k := linkWk e, depth := l.depth - 1 }.settleSpill
  let low := l.lowDepth
  let below := frameBelow l.lo (l.link low)
  { l with background := decide (l.fp - l.lo < 16 * g.rfwm) && decide (low ≠ 0) &&
                         decide (g.spillMark + (l.hi - below) ≤ g.budget) }

/-- Whether RET takes a lane back to its caller now: its caller's frame is there and resident. -/
def Lane.goesBack (l : Lane) : Bool :=
  let k := l.link l.depth
  l.depth != 0 && linkNq k != 0 && l.callerResident (l.fp - 16 - 16 * linkNq k)

/-- The lane with its closing frame's registers above the outs released (R263): they hold unspecified values (log 8). -/
def Lane.releaseFrame (l : Lane) (budget now j : Nat) : Lane :=
  { l with hi := l.fp + 16,
           ring := sputAll 0 l.ring ((List.range (l.hi - (l.fp + 16))).map fun i =>
             ((l.fp + 16 + i) % budget, Config.freeWord now (32 * i + j))) }

/-- RET on a lane (R108, R263). -/
def retLane (e : Env) (j : Nat) : LaneOut :=
  let l := e.g.lane j
  if l.depth = 0 then { flow := .exit }
  else
    let k := l.link l.depth
    if linkNq k = 0 then { fault := some { kind := illegalInstruction } }
    else
      let fc := l.fp - 16 - 16 * linkNq k
      if l.callerResident fc then transferLane e j (linkRpc k) .none fun l => l.closeFrame e.g
      else
        { change := fun l => if l.hi - fc ≤ e.g.budget then l else l.releaseFrame e.g.budget e.s.now j,
          flow := .wait (.refill fc (l.depth - 1)) none }

/-- The body of RET. -/
def retBody : Body := fun e ls s =>
  let out := ls.filter fun j => (e.g.lane j).depth == 0
  let back := ls.filter fun j => (e.g.lane j).goesBack
  let s := transferState e back (fun j => some (linkRpc ((e.g.lane j).link (e.g.lane j).depth))) s
  let s := if out.isEmpty then s else s.mapGroup e.g.id fun g => g.clearMaskBits out s.clk.toNat
  (s, fun j => retLane e j)

/-- RET (R108); at depth 0 it has the effect of EXIT. R160 names EXIT alone among the instructions that check SATA, and R108
speaks of the effect: the model makes no check of SATA at a RET (DESIGN CHOICE, log 45). -/
def execRet (f : Fields) (s : State) : Host.Outcome State Fault Refusal :=
  .next ((runCore (.ret f) f (afterStoresOf (fun e j => (e.g.lane j).depth == 0) retBody) s).afterExit s.issuing)

/-! ## Frames -/

/-- ENTER on a lane (R109, R96, R99 to R101). -/
def enterFrame (e : Env) (f : Fields) (j : Nat) : LaneOut :=
  let l := e.g.lane j
  let q := f.b.toNat
  let top := l.fp + 32 + 16 * q
  if l.n ≠ 0 then { fault := some { kind := illegalInstruction } }
  else if 32 + 16 * q > e.g.budget then { fault := some { kind := frameBudget } }
  else if top > e.g.kmax then { fault := some { kind := stackOverflow } }
  else if top - l.lo ≤ e.g.budget then { change := fun l => { l with n := 16 * q, k := 0, hi := top } }
  else
    match l.arenaFault with
    | some va => { fault := some { kind := arenaFault, addr := va } }
    | none => { flow := .wait (.spill top) none }

/-- The body of ENTER; the mark of a failed spill goes with the fault it raises. -/
def enterBody (f : Fields) : Body := fun e ls s =>
  let cleared := ls.filter fun j => decide ((enterFrame e f j).fault.map (fun i => i.kind) = some arenaFault)
  (s.mapGroup e.g.id fun g => g.mapLanes fun j l =>
     if cleared.contains j then { l with arenaFault := none, spillBlocked := false } else l,
   fun j => enterFrame e f j)

/-- ENTER (R109). -/
def execEnter (f : Fields) (s : State) : Host.Outcome State Fault Refusal :=
  .next (runCore (.enter f) f (enterBody f) s)

/-- WIN (R110, R90). -/
def execWin (f : Fields) (s : State) : Host.Outcome State Fault Refusal :=
  .next (runCore (.win f) f (perLane fun e j =>
    let q := f.b.toNat
    if q = 0 ∨ 16 * q + 63 < (e.g.lane j).n then { change := fun l => { l with k := q } }
    else { fault := some { kind := illegalInstruction } }) s)

/-- The value FDEPTH reads (R116). -/
def frameValue (g : Group) (l : Lane) (sel : Nat) : Nat :=
  match sel with
  | 0 => l.depth
  | 1 => l.fp
  | 2 => l.n
  | 3 => l.k
  | 4 => l.hi - l.lo
  | 5 => g.budget
  | 6 => g.kmax
  | _ => l.lowDepth

/-- FDEPTH (R116). -/
def execFdepth (f : Fields) (s : State) : Host.Outcome State Fault Refusal :=
  .next (runCore (.fdepth f) f (perLane fun e j =>
    { writes := e.setReg j f.d (BitVec.ofNat 32 (frameValue e.g (e.g.lane j) f.b.toNat)) }) s)

/-- FSPILL (R117): a request to the spill engine, beside an earlier one that it has not met yet. -/
def execFspill (f : Fields) (s : State) : Host.Outcome State Fault Refusal :=
  .next (runCore (.fspill f) f (perLane fun _ _ =>
    { change := fun l => { l with spillTo := l.spillRequest f.b.toNat } }) s)

/-- FFILL (R118): it completes with the last refill it waits for. -/
def execFfill (f : Fields) (s : State) : Host.Outcome State Fault Refusal :=
  .next (runCore (.ffill f) f (perLane fun e j =>
    if ((e.g.lane j).nextFill e.g.budget f.b.toNat).isNone then {} else { flow := .wait (.fill f.b.toNat) none }) s)

/-! ## Mask registers -/

/-- JOIN (R113). -/
def execJoin (f : Fields) (s : State) : Host.Outcome State Fault Refusal :=
  .next (runCore (.join f) f (fun e ls s =>
    let k := f.b.toNat
    (s.mapGroup e.g.id fun g => g.setMask k (g.mask k ||| maskOf ls), fun _ => {})) s)

/-- LEAVE (R113), followed by the release evaluation of R85. -/
def execLeave (f : Fields) (s : State) : Host.Outcome State Fault Refusal :=
  .next (runCore (.leave f) f (fun e ls s =>
    let k := f.b.toNat
    (s.mapGroup e.g.id fun g => (g.setMask k (g.mask k &&& ~~~(maskOf ls))).releaseMask k s.clk.toNat, fun _ => {})) s)

/-- WAIT (R114), followed by the release evaluation of R85. -/
def execWait (f : Fields) (s : State) : Host.Outcome State Fault Refusal :=
  let t := runCore (.wait f) f (perLane fun e j =>
    if (e.g.mask f.b.toNat).getLsbD j then { flow := .wait (.mask f.b.toNat) none } else {}) s
  .next (t.mapGroup s.issuing fun g => g.releaseMask f.b.toNat t.clk.toNat)

end Sys2Proof.Machine
end

