-- ==== Sys2Proof/Machine/Picker.lean ====
section
/-! DEFINITION. The picker (R80 to R82) and the entry of a line by the threads that are about to issue (R67). -/

namespace Sys2Proof.Machine

/-- Whether the clocks run: power is on, the package is not frozen and not quiesced (R28, R410). -/
def State.running (s : State) : Bool := s.plat.power && !s.test.frozen && !s.hub.quiesced

/-- The ready lanes of a group. -/
def Group.readyLanes (g : Group) : List Nat := (List.range 32).filter fun j => decide ((g.lane j).status = .ready)

/-- Whether a group may be chosen: resident, with a ready thread, neither halted by a debugger, nor stopped, nor given
up by YIELD (R81, R256, R364). -/
def State.issuable (s : State) (g : Group) : Bool :=
  g.resident && !g.ended && !g.halted && !g.yielding && !g.readyLanes.isEmpty &&
    (match s.team? g.team with
     | some t => !t.stopped && !t.relaunch && !(s.ctx t.ctx).halted && !(s.ctx t.ctx).swapped
     | none => false)

/-- The older of two groups (R81): the smaller age, then the smaller slot. -/
def older (a b : Group) : Group := if a.age < b.age ∨ (a.age = b.age ∧ a.slot ≤ b.slot) then a else b

/-- The oldest of a list of groups. -/
def oldest (gs : List Group) : Option Group :=
  gs.foldl (fun r g => match r with
    | none => some g
    | some x => some (older x g)) none

/-- The group a quarter chooses (R81): the last one while it has a ready thread and fewer than 256 issues in a row, else the
oldest, other than one that has just reached 256 where another exists. -/
def State.pickGroup (s : State) (core quarter : Nat) : Option Group :=
  let gs := s.groups.filter fun g => g.core == core && g.quarter == quarter && s.issuable g
  let k := s.core core
  let last := sget none k.lastGroup quarter
  match gs.find? fun g => some g.id == last with
  | some g =>
    if sget 0 k.run quarter < 256 then some g
    else
      match oldest (gs.filter fun x => x.id != g.id) with
      | some x => some x
      | none => some g
  | none => oldest gs

/-- Whether lane a of a group has been ready longer than lane b (R80). -/
def Group.longer (g : Group) (a b : Nat) : Bool :=
  decide ((g.lane a).stamp < (g.lane b).stamp) || (decide ((g.lane a).stamp = (g.lane b).stamp) && decide (a < b))

/-- The lane that has been ready longest (R80, R82). -/
def Group.longest (g : Group) : Option Nat :=
  g.readyLanes.foldl (fun r j => match r with
    | none => some j
    | some k => if g.longer j k then some j else some k) none

/-- A change of some lanes of a group. -/
def State.mapTheLanes (s : State) (gid : Nat) (ls : List Nat) (change : Lane → Lane) : State :=
  ls.foldl (fun s j => s.mapLane gid j change) s

/-- The fault of threads that enter a line (R67): a fall-through reports the last instruction of the line before. -/
def State.raiseEntry (s : State) (gid : Nat) (ls : List Nat) (fetch : Fetch) (i : FaultInfo) (m : Nat) : State :=
  match fetch with
  | .fallThrough source =>
    (s.mapTheLanes gid ls fun l => { l with pc := source }).raiseFault gid ls i ((128 - source.toNat % 128) / 4)
  | _ => s.raiseFault gid ls i m

/-- Threads of one program counter and one kind of entry, the first of which is lane j, enter the line (R67): they hold the
line, or they are parked (with results outstanding, once those have arrived, R59), wait for the line's home, or fault together
as the kind of entry says (log 43). -/
def State.enterAlike (s : State) (gid j : Nat) (ls : List Nat) : State :=
  match s.group? gid with
  | none => s
  | some g =>
    match s.team? g.team with
    | none => s
    | some t =>
      let l := g.lane j
      let check : TargetCheck :=
        match l.fetch with
        | .entry => .call
        | _ => .none
      match s.enterLine t.ctx g.core l.pc check with
      | .ok line => (s.cacheLine t.ctx g.core line).mapTheLanes gid ls fun l => { l with fetch := .held line }
      | .absent =>
        let open' := ls.filter fun x => !(g.lane x).pend.isEmpty
        (s.mapTheLanes gid open' fun l => { l with status := .stalled true }).parkPage gid t.ctx
          (ls.filter fun x => !open'.contains x) (lineBase l.pc)
      | .waits place =>
        (ls.foldl (fun s x => s.blockedAt g x l.pc place) s).mapTheLanes gid ls fun l => { l with status := .waiting (.home place) }
      | .bad i => s.raiseEntry gid ls l.fetch i 1

/-- The ready lanes at a program counter whose line is yet to be entered. -/
def Group.entering (g : Group) (pc : DWord) : List Nat :=
  g.readyLanes.filter fun j => decide ((g.lane j).pc = pc) && (match (g.lane j).fetch with
    | .held _ => false
    | _ => true)

/-- The threads of a group about to issue enter their line, those of one kind of entry together (log 43). -/
def State.enterLines (s : State) (gid : Nat) (pc : DWord) : State :=
  match s.group? gid with
  | none => s
  | some g =>
    let ls := g.entering pc
    ls.foldl (fun s j =>
      let alike := ls.filter fun x => decide ((g.lane x).fetch = (g.lane j).fetch)
      if alike.head? = some j then s.enterAlike gid j alike else s) s

/-- The issue at the program counter of a lane (R82): every ready thread there that holds the same line as it does, the
instruction, and its length. -/
def Group.issueOf (g : Group) (j : Nat) : Option (Instr × Issue) :=
  let l := g.lane j
  match l.fetch with
  | .held line =>
    let cs := g.readyLanes.filter fun x => decide ((g.lane x).pc = l.pc ∧ (g.lane x).fetch = l.fetch)
    (line.instrAt l.pc).map fun r => (r.1, { gid := g.id, lanes := maskOf cs, pc := l.pc, len := r.2 })
  | _ => none

/-- The issue of a group (R82): at the program counter of the thread ready longest. -/
def Group.nextIssue (g : Group) : Option (Instr × Issue) := g.longest.bind g.issueOf

/-- The quarter's count of consecutive issues (R81). -/
def State.countIssue (s : State) (core quarter gid : Nat) : State :=
  s.mapCore core fun k =>
    let same := sget none k.lastGroup quarter == some gid
    { k with lastGroup := sput none k.lastGroup quarter (some gid),
             run := sput 0 k.run quarter (if same then sget 0 k.run quarter + 1 else 1) }

/-- A quarter prepares its issue: the chosen group's threads enter their line; then the instruction, with the state in which
it issues; none where no thread of the group is left to issue. -/
def State.prepare (s : State) (core quarter : Nat) : State × Option Instr :=
  match s.pickGroup core quarter with
  | none => (s, none)
  | some g =>
    match g.longest with
    | none => (s, none)
    | some j =>
      let s := s.enterLines g.id (g.lane j).pc
      match s.group? g.id with
      | none => (s, none)
      | some g =>
        match g.nextIssue with
        | none => (s, none)
        | some (i, iss) => ({ s.countIssue core quarter g.id with issue := some iss }, some i)

/-- A single step of the sub-group of a ready lane (R365): its threads enter their line, and issue. -/
def State.prepareSingle (s : State) (gid j : Nat) : State × Option Instr :=
  match s.group? gid with
  | none => (s, none)
  | some g =>
    if !g.readyLanes.contains j then (s, none)
    else
      let s := s.enterLines gid (g.lane j).pc
      match (s.group? gid).bind fun g => if g.readyLanes.contains j then g.issueOf j else none with
      | none => (s, none)
      | some (i, iss) => ({ s with issue := some iss, host := { s.host with stepped := some (gid, iss.lanes) } }, some i)

/-- The least of some numbers. -/
def least (ns : List Nat) : Option Nat := ns.foldl (fun r n => some ((r.map (min n)).getD n)) none

/-- The core and quarter that issue next when the agenda does not say: those with a group to issue take turns, so that each of
them issues once in every round (R81, log 3). -/
def State.nextQuarter (s : State) : Option (Nat × Nat) :=
  let qs := (s.groups.filter s.issuable).map fun g => 4 * g.core + g.quarter
  (match least (qs.filter fun n => decide (s.lastQuarter < n)) with
    | some n => some n
    | none => least qs).map fun n => (n / 4, n % 4)

/-! ## Time -/

/-- Whether the timed waits of a group stand still (R226): it is saved or pre-empted, or a debugger has halted a group of its
team. -/
def State.timeHeld (s : State) (g : Group) : Bool :=
  !g.resident || (s.groups.any fun x => x.team == g.team && x.halted) ||
    (match s.team? g.team with
     | some t => t.stopped
     | none => true)

/-- A timed wait that stands still for some cycles. -/
def Lane.holdTimer (l : Lane) (cycles : Nat) : Lane :=
  { l with timer := l.timer.map fun t => { t with deadline := t.deadline + cycles } }

/-- The cycles of a step (R29, R54, log 7). -/
def State.cycles (s : State) : Nat := if s.running then 1 + Config.extraCycles s.now else 0

/-- The step's own bookkeeping: its number, the real time, and the cycle counter while the clocks run (log 5). -/
def State.tick (s : State) : State :=
  { s with now := s.now + 1, real := s.real + Config.realTime s.now,
           clk := s.clk + BitVec.ofNat 64 s.cycles,
           groups := s.groups.map fun g => if s.timeHeld g then g.mapLanes fun _ l => l.holdTimer s.cycles else g }

end Sys2Proof.Machine
end

