-- ==== Sys2Proof/Machine/Spill.lean ====
section
/-! DEFINITION. The events of threads, groups and the spill engine: results (R57), timed waits (R226), the run cap (R81),
spills and refills (R95 to R102), group save and resumption (R103, R104, R350). -/

namespace Sys2Proof.Machine

/-! ## Results and waits -/

/-- A thread after one of its outstanding results has arrived: ready when its stall is over (R57, R79). -/
def Lane.unstall (l : Lane) (stamp : Nat) : Lane :=
  match l.status with
  | .stalled true => if l.pend.isEmpty ∧ l.faulting.isNone then { l with status := .ready, stamp } else l
  | .stalled false => if l.pend.any fun q => q.left == 0 then l else { l with status := .ready, stamp }
  | _ => l

/-- Whether no lane of an instruction whose requests share one counter still waits for one (R193). -/
def Group.counted (g : Group) (q : Pending) : Bool :=
  !q.joint || (List.range 32).all fun x => (g.lane x).pend.all fun y => y.id != q.id || y.waits == 0

/-- The oldest outstanding result of a thread that waits for no access and for no other lane's scalar result. -/
def Group.arrived (g : Group) (j : Nat) : Option Pending :=
  (g.lane j).pend.find? fun q => q.waits == 0 && g.counted q && (match q.lead with
    | some x => !(g.lane x).pend.any fun y => y.id == q.id
    | none => true)

/-- RESULT_ARRIVAL (R57, R79, R160, R193): the results of one instruction are written, and a saturation that comes with them
sets the group's flags. A fault that waited for the last of them takes the trap path (R59). -/
def execResultArrival (gid lane : Nat) (s : State) : Host.Outcome State Fault Refusal :=
  match s.group? gid with
  | none => .next s
  | some g =>
    match g.arrived lane with
    | none => .next s
    | some q =>
      let s := s.mapGroup gid fun g =>
        { g.mapLane lane (fun l =>
            ({ l with pend := l.pend.filter fun x => !(x.id == q.id) }.putAll g.budget q.results).unstall s.clk.toNat) with
          scalars := putScalars g.scalars q.results }
      .next ((s.saturate gid q.sat.isSome (q.sat.getD false)).resumeFault gid lane).wakeAll

/-- TIMED_WAIT_EXPIRY (R226, R250): a timed wait whose limit has expired reports 1. -/
def execTimedWaitExpiry (gid lane : Nat) (s : State) : Host.Outcome State Fault Refusal :=
  match s.group? gid with
  | none => .next s
  | some g =>
    let l := g.lane lane
    match l.status, l.timer with
    | .waiting w, some _ =>
      if s.timeHeld g ∨ !l.overtime s.clk.toNat then .next s
      else .next (s.mapLane gid lane fun l => l.leave w true s.clk.toNat)
    | _, _ => .next s

/-- ISSUE_RUN_CAP (R81): a quarter whose group has issued 256 times in a row turns to the oldest other group that can issue. -/
def execIssueRunCap (core quarter : Nat) (s : State) : Host.Outcome State Fault Refusal :=
  let k := s.core core
  let last := sget none k.lastGroup quarter
  let others := s.groups.filter fun g => g.core == core && g.quarter == quarter && s.issuable g && some g.id != last
  if sget 0 k.run quarter < 256 then .next s
  else
    match oldest others with
    | none => .next s
    | some g => .next (s.mapCore core fun k =>
        { k with lastGroup := sput none k.lastGroup quarter (some g.id), run := sput 0 k.run quarter 0 })

/-! ## Spills -/

/-- Whether the spill engine serves lane j of a group: resident, and its team neither relaunched nor stopped, but for a trap
entry under way (R362). -/
def State.spillable (s : State) (g : Group) (j : Nat) : Bool :=
  g.resident && !g.ended && (match s.team? g.team with
    | some t => !t.relaunch && (!t.stopped || (match (g.lane j).status with
        | .waiting (.handler _ _ _) => true
        | _ => false))
    | none => false)

/-- Whether an instruction of a lane has asked for a refill and is not over yet: FFILL while it waits, RET and RETT until they
complete (R108, R118, R331). -/
def Lane.refilling (l : Lane) : Bool :=
  l.filling || (match l.status with
    | .waiting (.fill _) => true
    | _ => false)

/-- Whether a lane's lowest frame is to be spilled (R95, R96, R117): free space below the watermark (unless a refill that an
instruction has asked for is under way or about to be used), an ENTER or a trap entry that needs the space, or a request of
FSPILL; never the current frame, and no other frame while one waits for its translation. -/
def Lane.spillDue (l : Lane) (g : Group) : Bool :=
  decide (1 < l.spillFrames.length) && !l.spillBlocked && l.arenaFault.isNone && !decide (l.status = .exited) &&
    ((decide (l.free g.budget < g.spillMark) && !l.refilling) ||
      (match l.status with
       | .waiting (.spill top) => decide (g.budget < top - l.lo)
       | .waiting (.handler _ _ _) => decide (g.budget < l.hi + 16 - l.lo)
       | _ => false) ||
      (match l.spillTo with
       | some x => decide (l.lo < x)
       | none => false))

/-- The lowest resident frame of a lane that may be spilled: base, depth and the base of the frame above it (R95). -/
def Lane.lowestFrame (l : Lane) : Option (Nat × Nat × Nat) :=
  match l.spillFrames.reverse with
  | (a, d) :: (b, _) :: _ => some (a, d, b)
  | _ => none

/-- Whether a lane has a refill to make (R97, R118, R331), and whether an instruction waits for it. -/
def Lane.refillDue (l : Lane) : Option Bool :=
  match l.status with
  | .waiting (.refill base link) => if base < l.lo ∨ link < l.linkLo then some true else none
  | .waiting (.fill _) => some true
  | _ => if l.background ∧ !decide (l.status = .exited) then some false else none

/-- Whether the spill engine has something to do for lane j of a group. -/
def State.engineDue (s : State) (g : Group) (j : Nat) : Bool :=
  s.spillable g j && ((g.lane j).spillDue g || (g.lane j).refillDue.isSome)

/-- Whether the spill engine serves lane i of group h before lane j of group g (R98): less free space, then the lower group
slot, then the lower lane. -/
def servedBefore (h g : Group) (i j : Nat) : Bool :=
  let a := (h.lane i).free h.budget
  let b := (g.lane j).free g.budget
  decide (a < b ∨ (a = b ∧ (h.slot < g.slot ∨ (h.slot = g.slot ∧ i < j))))

/-- Whether it is the turn of lane j of a group with the spill engine of its core (R98). -/
def State.engineTurn (s : State) (g : Group) (j : Nat) : Bool :=
  s.engineDue g j && (s.groups.filter fun h => h.core == g.core).all fun h =>
    (List.range 32).all fun i => !s.engineDue h i || !servedBefore h g i j

/-- A spill that another device's unreachable memory has kept for a second is over (R405): an ENTER that waits for it faults, a
trap entry that does is a double trap, and otherwise a record is written and the frame stays (log 44). -/
def State.failSpill (s : State) (g : Group) (t : Team) (lane : Nat) (va : DWord) : State :=
  let l := g.lane lane
  match l.status with
  | .waiting (.spill _) => s.raiseFault g.id [lane] (unreachable va) 2
  | .waiting (.handler i _ _) => s.doubleTrap g.id lane (unreachable va) l.pc i.kind
  | _ => s.addRecord (s.faultRecord g t (maskOf [lane]) (unreachable va) 0 0 false false)

/-- The lowest resident frame of a lane goes to the arena with its link entry; a page that is not there or not writable leaves
it resident and asks for translation (R95, R101). -/
def State.spillLane (s : State) (gid lane : Nat) : State :=
  match s.group? gid with
  | none => s
  | some g =>
    match s.team? g.team, (g.lane lane).lowestFrame with
    | some t, some (a, d, b) =>
      let vas := g.spillAddrs t.rst lane a b d
      match s.reach t.ctx g.core vas 1 with
      | .ok =>
        let s := (s.notAway (.spill gid lane)).spillAll gid t.ctx g.core t.rst (g.spillItems lane a b d)
        let s := s.mapLane gid lane fun l => { l with lo := b, linkLo := d + 1, links := sdrop l.links d }.settleSpill
        s.wakeLane gid lane
      | .waits =>
        match s.awayOf t.ctx g.core vas 1 with
        | some va => s.awayTurn (.spill gid lane) fun s => s.failSpill g t lane va
        | none => s
      | .absent va => (s.mapLane gid lane fun l => { l with spillBlocked := true }).requestMove t.ctx va
      | .denied _ => s.mapLane gid lane fun l => { l with spillBlocked := true }
    | _, _ => s

/-- Whether the frames that two lanes spill share an absolute register. -/
def Lane.sharesRegister (l m : Lane) : Bool :=
  match l.lowestFrame, m.lowestFrame with
  | some (a, _, b), some (a', _, b') => decide (a < b' ∧ a' < b)
  | _, _ => false

/-- The lanes of a group that spill together with a lane (R98): those with a spill to make that shares an absolute register with
its. -/
def State.spillsWith (s : State) (g : Group) (lane : Nat) : List Nat :=
  (List.range 32).filter fun j => j == lane || (s.spillable g j && (g.lane j).spillDue g && (g.lane lane).sharesRegister (g.lane j))

/-- FRAME_SPILL (R95, R98, R101): the lane whose turn it is and the lanes of its group that spill the same registers write them
together. -/
def spillEvent (gid lane : Nat) (s : State) : Host.Outcome State Fault Refusal :=
  match s.group? gid with
  | none => .next s
  | some g =>
    if !(g.lane lane).spillDue g then .next (s.notAway (.spill gid lane))
    else if !s.engineTurn g lane then .next s
    else .next ((s.spillsWith g lane).foldl (fun s j => s.spillLane gid j) s)

/-- SPILL_TRANSLATION_REPLY (R101): the translation a spill asked for is resolved, or the page is reported invalid or read-only:
then an ENTER that waits for the space faults now, a trap entry that does is a double trap (log 21), and otherwise the next
ENTER that needs it faults. -/
def execSpillTranslationReply (gid lane : Nat) (bad : Bool) (s : State) : Host.Outcome State Fault Refusal :=
  match s.group? gid with
  | none => .next s
  | some g =>
    let l := g.lane lane
    if !l.spillBlocked then .next s
    else if !bad then .next (s.mapLane gid lane fun l => { l with spillBlocked := false })
    else
      let va := match l.lowestFrame, s.team? g.team with
        | some (a, d, b), some t => (g.spillAddrs t.rst lane a b d).headD 0
        | _, _ => 0
      match l.status with
      | .waiting (.spill _) =>
        .next ((s.mapLane gid lane fun l => { l with spillBlocked := false }).raiseFault gid [lane]
          { kind := arenaFault, addr := va } 2)
      | .waiting (.handler i _ _) =>
        .next ((s.mapLane gid lane fun l => { l with spillBlocked := false }).doubleTrap gid lane
          { kind := arenaFault, addr := va } l.pc i.kind)
      | _ => .next (s.mapLane gid lane fun l => { l with arenaFault := some va })

/-- Whether a background refill of the frame from a base still leaves the free space of R97. -/
def Lane.backgroundFits (l : Lane) (g : Group) (base : Nat) : Bool :=
  decide (l.fp - l.lo < 16 * g.rfwm) && decide (g.spillMark + (l.hi - base) ≤ g.budget)

/-- FRAME_REFILL (R97, R98, R102): the frame below the lowest resident one comes back with its link entry. A page that is not
present parks the waiting lane, an invalid one raises ArenaFault; a background refill is abandoned then. -/
def refillEvent (gid lane : Nat) (s : State) : Host.Outcome State Fault Refusal :=
  match s.group? gid with
  | none => .next s
  | some g =>
    let l := g.lane lane
    let d := l.lowDepth
    let base := frameBelow l.lo (l.link d)
    match s.team? g.team, l.refillDue with
    | some t, some waits =>
      if !s.engineTurn g lane then .next s
      else if d == 0 || decide (g.budget < l.hi - base) || (!waits && !l.backgroundFits g base) then
        .next (s.mapLane gid lane fun l => { l with background := false })
      else
        let vas := g.refillAddrs t.rst lane base l.lo (d - 1)
        match s.reach t.ctx g.core vas 0 with
        | .ok =>
          let s := (s.notAway (.refill gid lane)).mapLane gid lane fun l =>
            { s.refillLane g t.ctx g.core t.rst lane base l.lo (d - 1) l with
              lo := base, linkLo := d - 1, background := false, filling := waits }
          .next (s.wakeLane gid lane)
        | .waits =>
          match s.awayOf t.ctx g.core vas 0 with
          | none => .next s
          | some va => .next (s.awayTurn (.refill gid lane) fun s =>
              if waits then s.raiseFault gid [lane] (unreachable va) 2
              else (s.mapLane gid lane fun l => { l with background := false }).addRecord
                (s.faultRecord g t (maskOf [lane]) (unreachable va) 0 0 false false))
        | .absent va => .next (if waits then s.parkPage gid t.ctx [lane] va
                               else s.mapLane gid lane fun l => { l with background := false })
        | .denied va => .next (if waits then s.raiseFault gid [lane] { kind := arenaFault, addr := va } 2
                               else s.mapLane gid lane fun l => { l with background := false })
    | _, _ => .next (s.notAway (.refill gid lane))

/-! ## Group save and resumption -/

/-- Whether a group is to be saved (R103, R352, R256): a thread parked on a page or a service call and every other one parked
or waiting, or a group that YIELD gave up (log 35). -/
def Group.saveDue (g : Group) : Bool :=
  g.resident && !g.ended && !g.live.isEmpty &&
    (g.yielding ||
      ((g.live.all fun j => (g.lane j).idle && (g.lane j).drained) &&
        g.live.any fun j => match (g.lane j).status with
          | .parked (.page _) => true
          | .parked (.service _) => true
          | _ => false))

/-- What a save writes for a lane: resident registers and resident link entries (R103). -/
def Group.saveItems (g : Group) (j : Nat) : List (Nat × Nat × List Byte) :=
  let l := g.lane j
  g.spillItems j l.lo l.hi 0 ++
    ((List.range (l.depth + 1)).filter fun d => decide (1 ≤ d ∧ l.linkLo ≤ d)).flatMap fun d => g.spillItems j 0 0 d

/-- The arena addresses a save of a lane writes. -/
def Group.saveAddrs (g : Group) (rst : Bool) (j : Nat) : List DWord :=
  (g.saveItems j).flatMap fun i => g.lineTargets rst i.1 i.2.1

/-- The resume ember of a saved group, in the sector of the core on which it was saved (R103, R256). -/
def State.queueResume (s : State) (g : Group) (t : Team) : State :=
  if s.embers.any fun x => decide (x.kind = .resume g.id) then s
  else s.enqueue { id := 0, ctx := t.ctx, sector := coreSector g.core, pri := t.pri, kind := .resume g.id, place := .chip,
                   arrival := 0, first := s.clk.toNat, born := s.real, keys := [] }

/-- The registers and link entries of a group written to the arena, as in a save (R103, R345) (log 35). -/
def State.saveRegisters (s : State) (g : Group) (t : Team) : State :=
  g.live.foldl (fun s j => s.spillAll g.id t.ctx g.core t.rst (g.saveItems j)) s

/-- What of the save area holds a lane's block, and what belongs to no lane (R350). -/
def Group.blockPage (g : Group) (j : Nat) : List DWord := piecePages g.saveArea [(0x100 + 0x80 * j, List.replicate 0x80 0)]

/-- The addresses a save of a group writes for each lane, then those that belong to no lane (R103). -/
def Group.saveTargets (g : Group) (t : Team) : List (Nat × List DWord) :=
  g.live.map fun j => (j, g.saveAddrs t.rst j ++ g.blockPage j)

/-- The lanes whose part of a save cannot be written, with the addresses (R103); a bad page that holds no lane's part concerns them
all (log 35). -/
def State.saveBad (s : State) (g : Group) (t : Team) : List (Nat × DWord) :=
  let denied (vas : List DWord) : Option DWord := vas.find? fun a => decide (s.reachOne t.ctx g.core a 1 = .denied a)
  let own := (g.saveTargets t).filterMap fun e => (denied e.2).map fun va => (e.1, va)
  if !own.isEmpty then own
  else match denied (piecePages g.saveArea (g.savePieces t)) with
    | some va => g.live.map fun j => (j, va)
    | none => []

/-- A fault on a lane whose part of a save or a resumption cannot be made (R103, R104): a submission it waits with is left
undone. -/
def State.raiseSaved (s : State) (gid j : Nat) (i : FaultInfo) (m : Nat) : State :=
  (s.mapLane gid j Lane.withdraw).raiseFault gid [j] i m

/-- The lanes whose part of a save lies on a device without a usable port, with the addresses (R405); one where no lane's part lies
concerns them all. -/
def State.saveAway (s : State) (g : Group) (t : Team) : List (Nat × DWord) :=
  match (g.saveTargets t).filterMap fun e => (s.awayOf t.ctx g.core e.2 1).map fun va => (e.1, va) with
  | [] =>
    match s.awayOf t.ctx g.core (piecePages g.saveArea (g.savePieces t)) 1 with
    | some va => g.live.map fun j => (j, va)
    | none => []
  | own => own

/-- GROUP_SAVE (R103): every resident frame and link entry goes to the arena and the rest to the save area; the slot is freed. A
page that is not present is waited for; one that is unmapped or read-only abandons the save, and each lane it concerns raises
ArenaFault; the save is not attempted again while the same pages stand in its way. One on a device that cannot be reached
abandons it after 1 s (R405). -/
def saveEvent (gid : Nat) (s : State) : Host.Outcome State Fault Refusal :=
  match s.group? gid with
  | none => .next s
  | some g =>
    match s.team? g.team with
    | none => .next s
    | some t =>
      if !g.saveDue || t.stopped then .next (s.notAway (.save gid))
      else
        let bad := s.saveBad g t
        let fresh := bad.filter fun e => !g.saveFailed.contains e.2
        if !bad.isEmpty then
          let s := s.mapGroup gid fun g =>
            { g with saveFailed := (g.saveFailed ++ fresh.map fun e => e.2).eraseDups, yielding := false }
          .next (if fresh.isEmpty then s else
            bad.foldl (fun s e => s.raiseSaved gid e.1 { kind := arenaFault, addr := e.2 } (g.lane e.1).words) s)
        else
          match s.reach t.ctx g.core (piecePages g.saveArea (g.savePieces t) ++ (g.saveTargets t).flatMap fun e => e.2) 1 with
          | .absent va => .next (s.requestMove t.ctx va)
          | .waits =>
            match s.saveAway g t with
            | [] => .next s
            | away => .next (s.awayTurn (.save gid) fun s =>
                away.foldl (fun s e => s.raiseSaved gid e.1 (unreachable e.2) (g.lane e.1).words)
                  (s.mapGroup gid fun g => { g with yielding := false }))
          | _ =>
            let s := (s.notAway (.save gid)).saveRegisters g t
            let s := match s.group? gid with
              | some g => s.writePieces t.ctx g.core g.saveArea (g.savePieces t)
              | none => s
            let s := s.mapGroup gid fun x =>
              { x.mapLanes (fun _ l => { l with ring := [], links := [], lastPage := none, background := false }) with
                resident := false, yielding := false }
            .next (if g.yielding then s.queueResume g t else s)

/-- Whether a core has a free group slot for a group, and the slot (R238). -/
def State.freeGroupSlot (s : State) (core quarter : Nat) : Option Nat :=
  let used := (s.groups.filter fun g => s.occupies g core).map fun g => g.slot
  ((List.range 256).map fun i => 4 * i + quarter).find? fun n => !used.contains n

/-- The ring rows in use in a quarter (R92, R238). -/
def State.rowsUsed (s : State) (core quarter : Nat) : Nat :=
  ((s.groups.filter fun g => s.occupies g core && g.quarter == quarter).map fun g => g.budget).foldl (· + ·) 0

/-- The place of one group of a team on a core: its own quarter (R20), where that has a free slot and ring rows (R103, R238). -/
def State.placeGroup (s : State) (core : Nat) (g : Group) : Option (Nat × Nat) :=
  if s.rowsUsed core g.quarter + g.budget ≤ 8192 then (s.freeGroupSlot core g.quarter).map fun n => (g.quarter, n) else none

/-- The latest release time of a key (R177). -/
def State.releaseTime (s : State) (c : Nat) (key : Word) : Nat :=
  ((s.releases.find? fun e => e.1 == c && e.2.1 == key).map fun e => e.2.2).getD 0

/-- The view drop of R177 for the keys a team holds. -/
def State.keyDrop (s : State) (tid : Nat) : State :=
  s.mapTeam tid fun t =>
    { t with view := t.view.filter fun e => match e.2 with
        | some l => t.keys.all fun k => decide (s.releaseTime t.ctx k ≤ l.time)
        | none => false }

/-- A saved lane back on a core: its current frame and its link entry refilled, lo = fp (R103). -/
def State.resumeLane (s : State) (g : Group) (t : Team) (core j : Nat) (l : Lane) : Lane :=
  if l.status = .exited then l
  else
    let l := { s.refillLane g t.ctx core t.rst j l.fp l.hi l.depth l with
      lo := l.fp, linkLo := l.depth, fetch := .resume, filling := false }.settleSpill
    match l.status with
    | .ready => { l with stamp := s.clk.toNat }
    | _ => l

/-- Where a device without a usable port keeps a lane's frame from being refilled (R405). -/
def State.resumeAway (s : State) (g : Group) (t : Team) (core j : Nat) : Option DWord :=
  s.awayOf t.ctx core (g.refillAddrs t.rst j (g.lane j).fp (g.lane j).hi (g.lane j).depth) 0

/-- The fault of a lane whose frame cannot be refilled (R104, R405). -/
def State.resumeBad (s : State) (g : Group) (t : Team) (core j : Nat) : Option FaultInfo :=
  match s.reach t.ctx core (g.refillAddrs t.rst j (g.lane j).fp (g.lane j).hi (g.lane j).depth) 0 with
  | .denied va => some { kind := arenaFault, addr := va }
  | .waits => (s.resumeAway g t core j).map unreachable
  | _ => none

/-- The lanes of a group raise the faults of their refills. -/
def State.raiseResumed (s : State) (gid : Nat) (bad : List (Nat × FaultInfo)) : State :=
  bad.foldl (fun s e => s.raiseSaved gid e.1 e.2 1) s

/-- The lanes of a group whose frames cannot be refilled. -/
def State.resumeFaults (s : State) (g : Group) (t : Team) (core : Nat) : List (Nat × FaultInfo) :=
  g.live.filterMap fun j => (s.resumeBad g t core j).map fun i => (j, i)

/-- A saved group placed on a core (R103, R177): where its arena cannot be read yet the page is asked for; a lane whose arena
page is not readable raises ArenaFault. -/
def State.resumeGroup (s : State) (g : Group) (t : Team) (core quarter slot : Nat) : State :=
  let fc := (s.ctx t.ctx).framectl.toNat
  let r := s.mapGroup g.id fun x =>
    { x.mapLanes (fun j l => s.resumeLane g t core j l) with
      core := core, quarter := quarter, slot := slot, resident := true, age := s.clk.toNat, saveFailed := [],
      spwm := bitsOf fc 0 4, rfwm := bitsOf fc 4 4 }
  (r.keyDrop t.id).raiseResumed g.id (s.resumeFaults g t core)

/-- What a resumption still waits for, if anything. -/
def State.resumeAbsent (s : State) (g : Group) (t : Team) (core : Nat) : Option (Option DWord) :=
  g.live.findSome? fun j =>
    (s.reach t.ctx core (g.refillAddrs t.rst j (g.lane j).fp (g.lane j).hi (g.lane j).depth) 0).blocked

end Sys2Proof.Machine
end

