-- ==== Sys2Proof/Machine/Embers.lean ====
section
/-! DEFINITION. Embers (R230 to R233), their queues (R236, R237), lock keys (R242 to R245), placement (R238, R241, R398) and the
start of teams and clusters (R88, R177, R240, R241). -/

namespace Sys2Proof.Machine

/-! ## Fields -/

/-- The 64-bit fields of an ember's 64 bytes (R230). -/
def emberEntry (b : List Byte) : Nat := field b 0x00 8

def emberArg (b : List Byte) : Nat := field b 0x08 8

def emberJoin (b : List Byte) : Nat := field b 0x10 8

/-- SHAPE (R231): zero acts as one in INUM, CX and CY. -/
def emberInum (b : List Byte) : Nat := max 1 (bitsOf (field b 0x28 8) 16 24)

def emberCy (b : List Byte) : Nat := max 1 (bitsOf (field b 0x28 8) 12 4)

def emberCx (b : List Byte) : Nat := max 1 (bitsOf (field b 0x28 8) 8 4)

def emberTsz (b : List Byte) : Nat := bitsOf (field b 0x28 8) 0 7

/-- FLAGS (R232). -/
def emberFlag (b : List Byte) (lo n : Nat) : Nat := bitsOf (field b 0x30 8) lo n

def emberRole (b : List Byte) : Nat := emberFlag b 5 2

def emberPri (b : List Byte) : Nat := emberFlag b 0 2

/-- The distinct keys of an ember, ascending (R230, R232, R243). -/
def emberKeys (b : List Byte) : List Word :=
  let ks := ((List.range (emberFlag b 2 3)).map fun i => BitVec.ofNat 32 (field b (0x18 + 4 * i) 4)).eraseDups
  ks.foldl (fun (acc : List Word) k =>
    (acc.filter fun x => decide (x.toNat < k.toNat)) ++ k :: acc.filter fun x => decide (k.toNat < x.toNat)) []

/-- The checks of ENQ and PUTQ on an ember, for a launch record of some roles (R233) (log 40). -/
def emberBad (roles : Nat) (b : List Byte) : Bool :=
  let e := emberEntry b
  let c := emberCx b * emberCy b
  bitOf e 0 || decide (e / 2 ^ 56 ≠ 0) || (emberRole b < 3 && (emberTsz b == 0 || decide (64 < emberTsz b))) ||
    decide (5 ≤ emberFlag b 2 3) || (emberRole b < 3 && decide (roles ≤ emberRole b)) ||
    decide (8 < emberCx b ∨ 6 < emberCy b) || (decide (1 < c) && decide (emberInum b % c ≠ 0)) || decide (12 < c)

/-- The 64 bytes a grid launch's teams start from (R394): the argument, no join counter and no keys, the record's cluster
rectangle and flags. -/
def gridEmber (r : Record) (arg : DWord) : List Byte :=
  leBytes 8 ((r.roles.head?.map fun x => x.entry.toNat).getD 0) ++ leBytes 8 arg.toNat ++ List.replicate 24 0 ++
    leBytes 8 (4096 * r.cy + 256 * r.cx) ++ leBytes 8 (r.pri + 96 + 128 * natOf r.aud + 256 * natOf r.rst) ++
    List.replicate 8 0

/-! ## Instances and queues -/

/-- A new instance of an ember (R240), with its identity. -/
def State.newInstance (s : State) (ctx : Nat) (r : Record) (b : List Byte) : Nat × State :=
  (s.ids, { s with ids := s.ids + 1,
                   instances := s.instances ++ [{ id := s.ids, ctx, record := r, grid := false, ember := b,
                                                  partition := (s.ctx ctx).partition, total := emberInum b }] })

/-- An ember joins a sector's queue (R236). -/
def State.submit (s : State) (ctx sector : Nat) (r : Record) (b : List Byte) (payload : List Nat) : State :=
  let p := s.newInstance ctx r b
  p.2.enqueue { id := 0, ctx, sector, pri := emberPri b, kind := .fresh p.1, place := .chip, arrival := 0,
                first := s.clk.toNat, born := s.real, keys := emberKeys b, payload }

/-- The embers of a sector's queues, on chip and in memory. -/
def State.sectorEmbers (s : State) (sector : Nat) : List Ember :=
  s.embers.filter fun e => e.sector == sector && (match e.place with
    | .slot _ => false
    | _ => true)

/-- The contexts of the embers that PUTQs have been accepted for in a sector and that wait for their units (R253). -/
def State.comingEmbers (s : State) (sector : Nat) : List Nat :=
  s.ops.filterMap fun o => match o.access with
    | .putEmber _ n inst _ => if n = sector then (s.instance? inst).map fun i => i.ctx else none
    | _ => none

/-- Refusal for back-pressure of ENQ and PUTQ (R237): embers that have been accepted and are still to come count (log 34). -/
def State.refused (s : State) (ctx sector : Nat) : Bool :=
  let here := s.sectorEmbers sector
  let coming := s.comingEmbers sector
  let own := coming.countP fun c => c == ctx
  let x := s.ctx ctx
  let qlim := bitsOf x.embqctl.toNat 0 16
  let chip := here.countP fun e => decide (e.place = .chip)
  (qlim != 0 && decide (qlim ≤ (here.countP fun e => e.ctx == ctx) + own)) ||
    (decide (256 ≤ chip + coming.length) &&
      decide (2 ^ x.emberLog ≤ (here.countP fun e => e.ctx == ctx && decide (e.place = .ring)) + (own - (256 - chip))))

/-- The least loaded sector in service of a partition, the lowest of equals (R252). -/
def State.leastLoaded (s : State) (partition : Nat) (dflt : Nat) : Nat :=
  let load (n : Nat) : Nat := (s.sectorEmbers n).length
  ((s.partitionSectors partition).foldl (fun (r : Option Nat) n => match r with
    | none => some n
    | some m => if load n < load m then some n else some m) none).getD dflt

/-! ## Keys -/

/-- The exclusive-OR of the sixteen 2-bit fields of a number (R242). -/
def foldPairs (x : Nat) : Nat := (List.range 16).foldl (fun h i => h ^^^ bitsOf x (2 * i) 2) 0

/-- The home die of a key of a context (R242). -/
def keyDie (ctx : Nat) (k : Word) : Nat := foldPairs k.toNat ^^^ foldPairs ctx

/-- The key table entry of a key. -/
def State.keyEntry (s : State) (ctx : Nat) (k : Word) : Option Key := s.keys.find? fun e => e.ctx == ctx && e.key == k

/-- Whether an ember that has reserved some keys can reserve another (R243): no holder, no other ember's mark, room in its home
table. -/
def State.keyFree (s : State) (ctx ember : Nat) (reserved : List Word) (k : Word) : Bool :=
  let unclaimed := match s.keyEntry ctx k with
    | some e => e.holder.isNone && (e.mark.isNone || e.mark == some ember)
    | none => true
  unclaimed && decide ((s.keys.countP fun e => e.holder.isSome && keyDie e.ctx e.key == keyDie ctx k) +
    (reserved.countP fun x => keyDie ctx x == keyDie ctx k) < 4096)

/-- Keys held by a holder; an ember's marks on them end (R243, R244). -/
def State.holdKeys (s : State) (ctx holder : Nat) (ks : List Word) : State :=
  { s with keys := (s.keys.filter fun e => !(e.ctx == ctx && ks.contains e.key)) ++
             ks.map fun k => { ctx, key := k, holder := some holder, mark := none } }

/-- Whether ember a arrived before ember b: embers of one step count in the order in which the step enqueued them (R252). -/
def Ember.arrivedBefore (a b : Ember) : Bool := decide (a.arrival < b.arrival ∨ (a.arrival = b.arrival ∧ a.id < b.id))

/-- Whether aged ember a comes before aged ember b (R244): by aging time, sector number, arrival. -/
def Ember.before (a b : Ember) : Bool :=
  match a.aged, b.aged with
  | some x, some y =>
    decide (x < y ∨ (x = y ∧ (a.sector < b.sector ∨ (a.sector = b.sector ∧ a.arrivedBefore b))))
  | some _, none => true
  | _, _ => false

/-- The priority marks an aged ember places at a failed attempt (R244), in ascending key order. -/
def State.placeMarks (s : State) (e : Ember) : State :=
  if e.aged.isNone then s
  else e.keys.foldl (fun s k =>
    match s.keyEntry e.ctx k with
    | none => { s with keys := s.keys ++ [{ ctx := e.ctx, key := k, holder := none, mark := some e.id }] }
    | some x =>
      let wins := match x.mark.bind fun m => s.embers.find? fun y => y.id == m with
        | some other => e.before other
        | none => true
      if wins then
        { s with keys := s.keys.map fun y => if y.ctx = e.ctx ∧ y.key = k then { y with mark := some e.id } else y }
      else s) s

/-! ## The plan of a team -/

/-- The groups of a team of an instance (R238, R393, R394): role entry and first instruction of each. -/
def Instance.plan (i : Instance) : List (Role × DWord) :=
  let entry : DWord := BitVec.ofNat 64 (emberEntry i.ember)
  if i.grid then i.record.roles.flatMap fun r => List.replicate r.groups (r, r.entry)
  else if emberRole i.ember = 3 then i.record.roles.flatMap fun r => List.replicate r.groups (r, entry)
  else
    match i.record.roles[emberRole i.ember]? with
    | some r => List.replicate (emberTsz i.ember) (r, entry)
    | none => []

/-- The tile count of a team (R291). -/
def Instance.tiles (i : Instance) : Nat := (i.plan.map fun p => p.1.tiles).foldl max 0

/-- The cluster rectangle of an instance (R240, R392). -/
def Instance.cx (i : Instance) : Nat := emberCx i.ember

def Instance.cy (i : Instance) : Nat := emberCy i.ember

/-- The teams whose slices, allotments and tiles a core holds: resident ones, and exited members of a cluster that is not
done (R191, R206, R291). -/
def State.coreTeams (s : State) (core : Nat) : List Team :=
  s.teams.filter fun t => t.core == core && !t.relaunch && !(s.ctx t.ctx).swapped &&
    (!decide (t.exit = .gone) || (match t.cluster.bind s.cluster? with
      | some k => !s.clusterDone k
      | none => false))

/-- The lowest team slot of a core that no team there has (R266, R292). -/
def State.freeTeamSlot (s : State) (core : Nat) : Nat :=
  let used := (s.coreTeams core).map fun t => t.teamSlot
  ((List.range (used.length + 1)).find? fun n => !used.contains n).getD 0

/-- Whether a member of a cluster other than team tid stands on a core (R20). -/
def State.membersAt (s : State) (cluster : Option Nat) (tid core : Nat) : Bool :=
  cluster.isSome && (s.coreTeams core).any fun m => m.id != tid && m.cluster == cluster

/-- The core of a rank of a cluster's rectangle (R240, R241). -/
def Cluster.coreOf (k : Cluster) (rank : Nat) : Nat := coreAt k.die (k.x0 + rank % k.cx) (k.y0 + rank / k.cx)

/-- Whether a cluster keeps a core for a member that has not started (R241). -/
def Cluster.keeps (k : Cluster) (core : Nat) : Bool :=
  (List.range (k.cx * k.cy)).any fun r => k.coreOf r == core && !k.members.any fun e => e.1 == r

/-- Whether another member of a team's cluster stands on a core, or is to start on it (R20). -/
def State.memberOn (s : State) (t : Team) (core : Nat) : Bool :=
  s.membersAt t.cluster t.id core || ((t.cluster.bind s.cluster?).map fun k => k.keeps core).getD false

/-- The quarter in which group 0 of a team stands, or would stand (R238), by one of its groups. -/
def Group.firstQuarter (g : Group) : Nat := (g.quarter + 4 - g.grp % 4) % 4

/-- Whether a core has a free slice, allotment and tiles of some sizes (R180, R191, R238, R291). -/
def State.coreRoom (s : State) (core slice allotment tiles : Nat) : Bool :=
  let ts := s.coreTeams core
  let sum (f : Team → Nat) : Nat := (ts.map f).foldl (· + ·) 0
  decide (sum (fun t => t.sliceSize) + slice ≤ 524288 ∧ sum (fun t => t.allotment) + allotment ≤ 65536 ∧
    sum (fun t => t.tiles) + tiles ≤ 4)

/-- Group slots for groups of a team, each with its number and its budget (R20, R238): quarter and slot of each, group g in quarter
(q + g) mod 4, where slots and ring rows suffice. -/
def State.placeGroups (s : State) (core q : Nat) (gs : List (Nat × Nat)) : Option (List (Nat × Nat)) :=
  let used := (s.groups.filter fun g => s.occupies g core).map fun g => g.slot
  (List.range gs.length).foldl (fun (r : Option (List (Nat × Nat))) i =>
    match r with
    | none => none
    | some acc =>
      let quarter := (q + (gs.getD i (0, 0)).1) % 4
      let rows := (((gs.take (i + 1)).filter fun g => (q + g.1) % 4 == quarter).map fun g => g.2).foldl (· + ·) 0
      match ((List.range 256).map fun i => 4 * i + quarter).find? fun n =>
          !used.contains n && !(acc.any fun a => a.2 == n) with
      | some n => if s.rowsUsed core quarter + rows ≤ 8192 then some (acc ++ [(quarter, n)]) else none
      | none => none) (some [])

/-- The quarters to try for group 0 (R232, R238): the hint first, then in order. -/
def hintedQuarters (b : List Byte) : List Nat := (if emberFlag b 11 1 = 1 then [emberFlag b 9 2] else []) ++ [0, 1, 2, 3]

/-- Whether a core takes part in a pre-emption (R362). -/
def State.preempting (s : State) (core : Nat) : Bool :=
  s.preempts.any fun p => decide (p.stage ≠ .requested) && (match p.purpose with
    | .test n => coreSector core == n
    | .swap partition _ _ => bitOf (s.partitionMask partition) (coreSector core)
    | .brown => true)

/-- A core may take a team or a member: in service, not pre-empted, its sector ready, in the partition, and not kept for the
members of another cluster, first one aside, while some have not started (R37, R241). -/
def State.coreOpen (s : State) (partition core : Nat) (cluster : Option Nat) : Bool :=
  s.coreInService core && !s.preempting core && s.sectorReady (coreSector core) && bitOf (s.partitionMask partition) (coreSector core) &&
    !(s.sector (coreSector core)).fenced && !(s.sector (coreSector core)).testing &&
    !s.clusters.any fun k => some k.id != cluster && decide (k.members.length < k.cx * k.cy) &&
      k.die == coreDie core && decide (k.x0 ≤ coreX core ∧ coreX core < k.x0 + k.cx ∧ k.y0 ≤ coreY core ∧
        coreY core < k.y0 + k.cy ∧ k.first ≠ coreX core - k.x0 + k.cx * (coreY core - k.y0))

/-! ## Pool areas -/

/-- A size rounded up to 4 KiB. -/
def pageUp (n : Nat) : Nat := (n + 4095) / 4096 * 4096

/-- The lowest free range of a context's pool (R398), and the context with it taken. -/
def Context.allocate (x : Context) (n : Nat) : Option (Nat × Context) :=
  let base := x.pool.toNat
  let starts := base :: x.poolUsed.map fun e => e.1 + e.2
  let fits (a : Nat) : Bool :=
    decide (base ≤ a ∧ a + n ≤ base + x.poolSize) && !x.poolUsed.any fun e => decide (a < e.1 + e.2 ∧ e.1 < a + n)
  let best := (starts.filter fits).foldl (fun (r : Option Nat) a => match r with
    | none => some a
    | some b => some (min a b)) none
  best.map fun a => (a, { x with poolUsed := x.poolUsed ++ [(a, n)] })

/-- The areas of one group (R93, R345, R350): frame arena, save area, phase arena. -/
def Context.allocateGroup (x : Context) (kmax : Nat) (rst : Bool) : Option ((Nat × Nat × Nat) × Context) :=
  match x.allocate (pageUp (136 * kmax)) with
  | none => none
  | some (a, x) =>
    match x.allocate (pageUp (0x4000 + kmax / 2)) with
    | none => none
    | some (b, x) =>
      if rst then (x.allocate (pageUp (136 * kmax))).map fun r => ((a, b, r.1), r.2) else some ((a, b, 0), x)

/-- The areas of the groups of a plan, in order. -/
def Context.allocateAll (x : Context) (ks : List Nat) (rst : Bool) : Option (List (Nat × Nat × Nat) × Context) :=
  ks.foldl (fun r k => match r with
    | none => none
    | some (acc, x) => (x.allocateGroup k rst).map fun p => (acc ++ [p.1], p.2)) (some ([], x))

/-! ## Starting a team -/

/-- A lane as it starts (R88): the argument in a0:a1. -/
def startLane (entry : DWord) (arg now : Nat) : Lane :=
  { status := .ready, stamp := now, pc := entry, fetch := .entry,
    ring := sputAll 0 [] [(0, BitVec.ofNat 32 arg), (1, BitVec.ofNat 32 (arg / 2 ^ 32))] }

/-- The fields of a descriptor that a launch record sets (R196, R392): EMPTY, no write pointer. -/
def launchBuffer (d : DWord) : DWord := if descV d then d &&& 0x01F0000038FFFFFF#64 else 0

/-- Team coordinates of an index (R240). -/
def Instance.coords (i : Instance) (index : Nat) : Nat × Nat × Nat :=
  if i.grid then
    (index % i.record.gx, index / i.record.gx % i.record.gy, index / (i.record.gx * i.record.gy))
  else (index, 0, 0)

/-- The slice size in bytes of a launch (R392), and its store buffer allotment (R180). -/
def Record.sliceBytes (r : Record) : Nat := 4096 * r.slice

def Record.allotment (r : Record) : Nat := 1024 * (if r.sba = 0 then 4 else r.sba)

/-- Whether and how a team of an instance fits on a core (R238, R398): slots of its groups, areas, and the context. -/
def State.fitTeam (s : State) (i : Instance) (core : Nat) :
    Option (List (Nat × Nat) × List (Nat × Nat × Nat) × Context) :=
  let plan := i.plan
  let rst := emberFlag i.ember 8 1 == 1
  if plan.isEmpty || !s.coreRoom core i.record.sliceBytes i.record.allotment i.tiles then none
  else
    match (hintedQuarters i.ember).findSome? fun q => s.placeGroups core q (plan.mapIdx fun g p => (g, p.1.budget)) with
    | none => none
    | some slots =>
      ((s.ctx i.ctx).allocateAll (plan.map fun p => p.1.kmax) rst).map fun r => (slots, r.1, r.2)

/-- The groups of a new team. -/
def newGroups (i : Instance) (tid core first now fc : Nat) (slots : List (Nat × Nat))
    (areas : List (Nat × Nat × Nat)) : List Group :=
  (i.plan.zip (slots.zip areas)).mapIdx fun g e =>
    let r := e.1.1
    let area := e.2.2
    { id := first + g, team := tid, grp := g, role := r.kind, budget := r.budget, kmax := r.kmax, core := core,
      quarter := e.2.1.1, slot := e.2.1.2, age := now, arena := BitVec.ofNat 64 area.1,
      saveArea := BitVec.ofNat 64 area.2.1, phaseArena := BitVec.ofNat 64 area.2.2,
      spwm := bitsOf fc 0 4, rfwm := bitsOf fc 4 4,
      lanes := List.replicate 32 (startLane e.1.2 (emberArg i.ember) now) }

/-- The view a team starts with when it is dispatched (R177): the named lines of other teams of its core, as far as the core's view
cache has room (R13). -/
def State.inheritedView (s : State) (core : Nat) (named : List (Nat × Nat)) : Sparse (Option ViewLine) :=
  (named.take (viewCapacity - (s.coreLines core).length)).foldl (fun v e =>
    match s.team? e.1 with
    | some t => if t.core = core then sput none v e.2 (sget none t.view e.2) else v
    | none => v) []

/-- The phase records of a restartable team written into its save areas (R344): one whose page is not there is written once it
is, and one on a device that cannot be reached is given up after 1 s (R405). -/
def State.writePhase (s : State) (t : Team) : State :=
  match t.phase with
  | none => s
  | some ph =>
    let s := s.mapTeam t.id fun t => { t with unwritten := [] }
    (ph.groups.filter fun g => !g.ended).foldl (fun s g =>
      let ps := g.phasePieces t ph
      let r := s.reach t.ctx g.core (piecePages g.saveArea ps) 1
      let later (s : State) : State := s.mapTeam t.id fun t => { t with unwritten := t.unwritten ++ [g.id] }
      match r.blocked, s.awayOf t.ctx g.core (piecePages g.saveArea ps) 1 with
      | some _, some va => (later s).awayTurn (.phase g.id) fun s =>
          (s.mapTeam t.id fun t => { t with unwritten := t.unwritten.filter fun x => x != g.id }).addRecord
            (s.eventRecord t (unreachable va) false)
      | some page, none => (later s).askFor t.ctx page
      | none, _ => if r = .ok then s.writePieces t.ctx g.core g.saveArea ps else s) s

/-- The phase records that wait for their pages, tried again (R344). -/
def State.retryPhases (s : State) : State :=
  s.teams.foldl (fun s t => if t.unwritten.isEmpty then s else s.writePhase t) s

/-- A team of an instance starts on a core (R88, R177, R238, R344): index, rank and cluster given. The spec does not say what
its slice holds where an earlier team's stood: the model starts every slice empty, so that it reads 0 (DESIGN CHOICE, log 2). -/
def State.startTeam (s : State) (i : Instance) (index rank cid core : Nat) (slots : List (Nat × Nat))
    (areas : List (Nat × Nat × Nat)) (x : Context) (named : List (Nat × Nat)) (payload : List Nat) : State :=
  let tid := s.ids
  let c := i.coords index
  let rst := emberFlag i.ember 8 1 == 1
  let view := (s.inheritedView core named).filter fun e => !payload.contains e.1
  let t : Team :=
    { id := tid, ctx := i.ctx, inst := i.id, index := index, teamx := c.1, teamy := c.2.1, teamz := c.2.2, rank := rank,
      cluster := some cid, core := core, sector := coreSector core, teamSlot := s.freeTeamSlot core,
      entry := BitVec.ofNat 64 (emberEntry i.ember), arg := BitVec.ofNat 64 (emberArg i.ember),
      join := BitVec.ofNat 64 (emberJoin i.ember), keys := emberKeys i.ember, pri := emberPri i.ember, rst,
      aud := emberFlag i.ember 7 1 == 1, priv := i.record.priv,
      pipe := if i.grid then i.record.pipe else emberRole i.ember == 3, journal := i.journal,
      sliceSize := i.record.sliceBytes, allotment := i.record.allotment, tiles := i.tiles,
      buffers := (i.record.buffers.mapIdx fun n d => (n, launchBuffer d)).foldl (fun m e => sput 0 m e.1 e.2) [],
      view, ringLow := s.clk.toNat }
  let gs := newGroups i tid core (tid + 1) s.clk.toNat x.framectl.toNat slots areas
  let s := { s with ids := tid + 1 + gs.length, teams := s.teams ++ [t], groups := s.groups ++ gs }
  let s := s.mapCtx i.ctx fun _ => x
  let s := s.mapCluster cid fun k => { k with members := sput 0 k.members rank tid }
  let s := (s.keyDrop tid).visit (coreSector core) i.ctx
  if !rst then s
  else
    let s := s.mapTeam tid fun t => { t with phase := some (s.makePhase t) }
    match s.team? tid with
    | some t => s.writePhase t
    | none => s

/-- The rectangle of a new cluster whose first member starts on a core (R241): of the rectangles of cx by cy cores of the
partition in service that hold it, the lowest all of whose cores have room now, else the lowest (log 28). -/
def State.rectangle (s : State) (i : Instance) (core : Nat) : Option (Nat × Nat) :=
  let d := coreDie core
  let all (p : Nat × Nat) (ok : Nat → Bool) : Bool := (List.range (i.cx * i.cy)).all fun r =>
    ok (coreAt d (p.1 + r % i.cx) (p.2 + r / i.cx))
  let fits := ((List.range 6).flatMap fun y => (List.range 8).map fun x => (x, y)).filter fun p =>
    decide (p.1 ≤ coreX core ∧ coreX core < p.1 + i.cx ∧ p.1 + i.cx ≤ 8 ∧ p.2 ≤ coreY core ∧ coreY core < p.2 + i.cy ∧
      p.2 + i.cy ≤ 6) && all p fun c => s.coreOpen i.partition c none
  match fits.find? fun p => all p fun c => (s.fitTeam i c).isSome with
  | some p => some p
  | none => fits.head?

/-- The first member of the next cluster of an instance, or its next team, starts on a core (R240, R241), with its keys held;
none where it does not fit. A team outside a cluster is a cluster of one. -/
def State.startNext (s : State) (i : Instance) (core : Nat) (named : List (Nat × Nat)) (payload : List Nat) :
    Option State :=
  if i.total ≤ i.next then none
  else
    match s.fitTeam i core, s.rectangle i core with
    | some (slots, areas, x), some (x0, y0) =>
      let cid := s.ids
      let rank := coreX core - x0 + i.cx * (coreY core - y0)
      let k : Cluster := { id := cid, inst := i.id, base := i.next, cx := i.cx, cy := i.cy, die := coreDie core, x0, y0, first := rank,
                           keys := emberKeys i.ember, payload }
      let s := { s with ids := cid + 1, clusters := s.clusters ++ [k] }
      let s := s.mapInstance i.id fun i => { i with next := i.next + i.cx * i.cy }
      let s := s.holdKeys i.ctx cid (emberKeys i.ember)
      some (s.startTeam i (i.next + rank) rank cid core slots areas x named payload)
    | _, _ => none

/-- A core with room for k teams or clusters starts min(k, n) of an instance, with consecutive indices (R240); the first of them
with the first list of inherited lines, and so on. -/
def State.pull (s : State) (iid core n : Nat) (named : List (List (Nat × Nat))) (payload : List Nat) : State :=
  (List.range n).foldl (fun s x =>
    match s.instance? iid with
    | none => s
    | some i => (s.startNext i core (named.getD x []) payload).getD s) s

end Sys2Proof.Machine
end

