-- ==== Sys2Proof/Machine/Address.lean ====
section
/-! DEFINITION. Where an access leads: the checks of generic addresses and buffer operands in the order of R164, R168, R197,
R205 and R221, and the delivery of results that come back from memory (R57, R193). -/

namespace Sys2Proof.Machine

/-- Where an access leads. -/
inductive Reached where
  /-- A global location, with the translation that found it. -/
  | memory (place : Nat) (page : PageEntry)
  /-- Bytes of a team's slice. -/
  | scratch (spot : Spot)
  | fault (i : FaultInfo)
  /-- A fault after a translation that succeeded. -/
  | failed (i : FaultInfo) (page : PageEntry)
  | park (va : DWord)
  /-- A global location whose home is not ready yet. -/
  | notReady (place : Nat) (page : PageEntry)
  | wait (w : Wait)
  deriving DecidableEq, Repr

/-- A fault that carries an address and an access code (R19, R339). -/
def addressed (kind : Nat) (a : DWord) (access : Nat) : FaultInfo :=
  { kind, addr := a, info := BitVec.ofNat 32 access }

/-- A global address translated for an access of a lane (R168): 0 read, 1 write, 3 atomic. -/
def reachGlobal (e : Env) (j : Nat) (a : DWord) (access : Nat) : Reached :=
  match e.s.translate e.t.ctx e.g.core (e.g.lane j).lastPage a access with
  | .denied => .fault (addressed accessViolation a access)
  | .absent => .park a
  | .waits place => .wait (.home place)
  | .ok place page => .memory place page

/-- An access that passes its checks goes to its home, where it waits or fails with the function there (R37, R19). -/
def homeChecked (e : Env) (a : DWord) (access : Nat) (r : Reached) : Reached :=
  match r with
  | .memory place page =>
    match e.s.home place with
    | .ready => r
    | .waiting => .notReady place page
    | .failed => .failed (addressed accessViolation a access) page
  | _ => r

/-- The buffer access a generic access makes (R200). -/
def genericAccess (access : Nat) : BufferAccess :=
  match access with
  | 0 => .read
  | 1 => .write
  | _ => .atomic

/-- A slice offset of a team for a generic access (R197). -/
def reachSlice (e : Env) (t : Team) (offset w access : Nat) (a : DWord) (remote : Bool) : Reached :=
  match checkOffset ((e.s.team? t.id).getD t) offset w (genericAccess access) a with
  | some i => .fault i
  | none => .scratch { team := t.id, offset, remote }

/-- A member of the team's cluster by rank: it is there, or has not started (R206). -/
def Env.memberTeam (e : Env) (rank : Nat) : Except Wait Team :=
  match (e.s.member e.t rank).bind e.s.team? with
  | some t => .ok t
  | none => .error (.member (e.t.cluster.getD 0) rank)

/-- The checks of a generic address for w bytes with an alignment, in the order class, alignment, translation or buffer (R164, R168,
R197); globalOnly turns the scratchpad and window classes away as unused (R211, R254). -/
def reachAddress (e : Env) (j : Nat) (a : DWord) (w align access : Nat) (globalOnly : Bool) : Reached :=
  match e.s.classOf e.t a with
  | .unused => .fault (addressed addressFault a access)
  | .global =>
    if a.toNat % align ≠ 0 then .fault (addressed misaligned a access) else reachGlobal e j a access
  | .scratchpad o =>
    if globalOnly then .fault (addressed addressFault a access)
    else if a.toNat % align ≠ 0 then .fault (addressed misaligned a access)
    else reachSlice e e.t o w access a false
  | .window rank o =>
    if globalOnly then .fault (addressed addressFault a access)
    else if a.toNat % align ≠ 0 then .fault (addressed misaligned a access)
    else
      match e.memberTeam rank with
      | .ok t => reachSlice e t o w access a true
      | .error w => .wait w

/-- Where a generic address leads (R164, R168, R197, R37). -/
def reachGeneric (e : Env) (j : Nat) (a : DWord) (w align access : Nat) (globalOnly : Bool) : Reached :=
  homeChecked e a access (reachAddress e j a w align access globalOnly)

/-- The offset operand of a buffer-relative form (R197, R205): register B plus the signed immediate. -/
def Env.offset (e : Env) (f : Fields) (j : Nat) : Int := (e.reg j f.b).toNat + f.imm.toInt

/-- A buffer operand of the team itself (R197). -/
def reachBuffer (e : Env) (n : Nat) (o : Int) (w : Nat) (a : BufferAccess) : Reached :=
  match checkBuffer e.t n o w a with
  | .ok offset => .scratch { team := e.t.id, offset }
  | .error i => .fault i

/-- A buffer operand of a cluster member (R205, R206). Where c names no member the spec does not say whose STATE and WP the
BufferBounds record carries, nor the ADDR of the AddressFault of a rank out of range: the model puts those of an empty
descriptor, and c (DESIGN CHOICE, log 29). -/
def reachRemote (e : Env) (n : Nat) (c : Int) (w : Nat) (a : BufferAccess) : Reached :=
  if c < 0 ∨ 2 ^ 24 ≤ c then .fault (bufferFault bufferBounds 0 n a c 0)
  else
    let rank := c.toNat / 2 ^ 20
    if e.s.clusterSize e.t ≤ rank then .fault (addressed addressFault (BitVec.ofInt 64 c) a.info.toNat)
    else
      match e.memberTeam rank with
      | .error w => .wait w
      | .ok t =>
        match checkBuffer t n (c.toNat % 2 ^ 20 : Nat) w a with
        | .ok offset => .scratch { team := t.id, offset, remote := true }
        | .error i => .fault i

/-! ## Lanes that do not get there -/

/-- What becomes of a lane whose access does not lead anywhere now; none where it does. -/
def Reached.stops (r : Reached) : Option LaneOut :=
  match r with
  | .fault i => some { fault := some i }
  | .failed i _ => some { fault := some i }
  | .notReady place _ => some { flow := .wait (.home place) none }
  | .park va => some { flow := .park (.page va) }
  | .wait w => some { flow := .wait w none }
  | _ => none

/-- What translation does outside the lanes: the last-page register and the TLB reloaded, or a move of the page asked for
(R166, R168). -/
def reachEffect (e : Env) (j : Nat) (r : Reached) (s : State) : State :=
  match r with
  | .memory _ page => s.reload e.g.id j e.g.core page
  | .park va => s.requestMove e.t.ctx va
  | .failed _ page => s.reload e.g.id j e.g.core page
  | .notReady place page => (s.blockedAt e.g j (BitVec.ofNat 64 place) place).reload e.g.id j e.g.core page
  | _ => s

/-- The lanes whose accesses lead somewhere; the lowest of them supplies scalar destinations (R120). -/
def reaching (ls : List Nat) (r : Nat → Reached) : List Nat := ls.filter fun j => (r j).stops.isNone

/-- Destinations without the scalar ones, for a lane that is not the lowest. -/
def ownPlaces (lead : Bool) (ps : List Place) : List Place :=
  if lead then ps
  else ps.filter fun p => match p with
    | .scalar _ => false
    | _ => true

/-! ## Results -/

/-- A loaded value of w bytes as the writes of its destination (R184, R214). -/
def valueWords (w : Nat) (signed : Bool) (v : Nat) : List Word :=
  if w = 8 then [BitVec.ofNat 32 v, BitVec.ofNat 32 (v / 2 ^ 32)]
  else
    let x : BitVec 64 := BitVec.ofNat 64 v
    [if signed then (match w with
        | 1 => (x.extractLsb' 0 8).signExtend 32
        | 2 => (x.extractLsb' 0 16).signExtend 32
        | _ => x.extractLsb' 0 32)
      else x.extractLsb' 0 32]

/-- Places with the words that go to them. -/
def placeWords (ps : List Place) (ws : List Word) : List Write :=
  (ps.zip ws).map fun e => { place := e.1, value := e.2 }

/-- The results of an access delivered to one of the threads it serves. -/
def State.deliverTo (s : State) (o : Op) (j : Nat) (ws : List Write) : State :=
  match o.pend with
  | none => s
  | some pid => s.mapLane o.gid j fun l => l.deliver pid ws

/-- The results of an access delivered to the thread that made it. -/
def State.deliver (s : State) (o : Op) (ws : List Write) : State := s.deliverTo o o.lane ws

end Sys2Proof.Machine
end

