-- ==== Sys2Proof/Machine/Global.lean ====
section
/-! DEFINITION. The global memory instructions of major 0x1A (R183 to R190): LD, ST, PHASE, FENCE, INVV, PREF, CVTA. -/

namespace Sys2Proof.Machine

/-! ## LD and ST -/

/-- The width in bytes of MOD[1:0] (R183, R213). -/
def widthOf (f : Fields) : Nat := 2 ^ modBits f 0 2

/-- The 4-byte words of an access of w bytes at an offset, as the offset within the access and the bytes of each (R192): one, or two
for 8 bytes. -/
def wordsOf (w : Nat) : List (Nat × Nat) := if w = 8 then [(0, 4), (4, 4)] else [(0, w)]

/-- A read request of an access extended by what one more lane of its instruction takes from the word; none for another access. -/
def Access.withReading (a : Access) (spot : Spot) (r : Reading) : Option Access :=
  match a with
  | .read p rs => if p = spot then some (.read p (rs ++ [r])) else none
  | _ => none

/-- A write request extended by the bytes of one more lane of its instruction. -/
def Access.withBytes (a : Access) (spot : Spot) (bs : List (Nat × Byte)) : Option Access :=
  match a with
  | .write p cs => if p = spot then some (.write p (cs ++ bs)) else none
  | _ => none

/-- A request of lane j for a word of a slice: the one that a lower lane of the same instruction made for the word, extended, or
a new one (R192). -/
def State.joinOp (s : State) (e : Env) (j : Nat) (pend : Option Nat) (join : Access → Option Access) (access : Access) : State :=
  let mine (o : Op) : Bool := o.gid == e.g.id && o.issued == e.s.now && (join o.access).isSome
  if s.ops.any mine then
    { s with ops := s.ops.map fun o => match join o.access with
        | some a => if mine o then { o with others := if o.lanes.contains j then o.others else o.others ++ [j], access := a } else o
        | none => o }
  else s.addOp e j pend 0 access

/-- Scratchpad reads of w bytes for the destinations of a lane: one request per word, which the lanes of the instruction share
(R192, R193). -/
def State.addReads (s : State) (e : Env) (j : Nat) (at' : Spot) (w : Nat) (signed : Bool) (stale : Option Nat)
    (dests : List Place) : State :=
  (wordsOf w).foldl (fun s x =>
    let o := at'.offset + x.1
    let spot : Spot := { at' with offset := o / 4 * 4 }
    let r : Reading := { lane := j, inner := o % 4, bytes := x.2, signed, dests := dests[x.1 / 4]?.toList, stale }
    s.joinOp e j (some e.pid) (fun a => a.withReading spot r) (.read spot [r])) s

/-- Scratchpad writes of a value of w bytes: one request per word, which the lanes of the instruction share (R192, R194). -/
def State.addWrites (s : State) (e : Env) (j : Nat) (at' : Spot) (w value : Nat) : State :=
  (wordsOf w).foldl (fun s x =>
    let o := at'.offset + x.1
    let spot : Spot := { at' with offset := o / 4 * 4 }
    let bs := (leBytes x.2 (value / 2 ^ (8 * x.1))).mapIdx fun i b => (o + i, b)
    s.joinOp e j none (fun a => a.withBytes spot bs) (.write spot bs)) s

/-- The lines of w bytes at a place that a plain load takes from the view (R173 rule 3). -/
def State.viewLines (s : State) (t : Team) (place w : Nat) : List Nat :=
  (((List.range w).map fun i => place + i).filter fun p => s.usesView t p).map viewLineOf |>.eraseDups

/-- Byte i of what a plain load of a lane at an address returns (R173): in the group's own arena a free value (R98, log 8). -/
def Env.loadedByte (e : Env) (j : Nat) (a : DWord) (place i : Nat) : Byte :=
  if e.g.inArena e.t.rst (a + BitVec.ofNat 64 i) then Config.freeByte e.s.now (8 * j + i) else e.s.loadByte e.t (place + i)

/-- Byte i of a .live load where its value is free: in the group's own arena (R98, log 8). -/
def Env.arenaByte (e : Env) (j : Nat) (a : DWord) (i : Nat) : Option Byte :=
  if e.g.inArena e.t.rst (a + BitVec.ofNat 64 i) then some (Config.freeByte e.s.now (8 * j + i)) else none

/-- What a load does outside the lanes once its access leads somewhere: the view's line is filled, or a request is made
(log 22). -/
def loadEffect (e : Env) (j : Nat) (r : Reached) (a : DWord) (w : Nat) (signed live : Bool) (stale : Option Nat) (dests : List Place)
    (s : State) : State :=
  match r with
  | .memory place _ =>
    if live then
      s.addOp e j (some e.pid) a (.live place ((List.range w).map fun i => e.arenaByte j a i) signed dests)
    else (e.s.viewLines e.t place w).foldl (fun s l => s.fillShared e.t.id l) s
  | .scratch spot => s.addReads e j spot w signed stale dests
  | _ => s

/-- What a load does to its lane (log 22). -/
def loadLane (e : Env) (j : Nat) (r : Reached) (a : DWord) (w : Nat) (signed live : Bool) (dests : List Place) : LaneOut :=
  match r with
  | .memory place _ =>
    if live then { places := dests, waits := 1 }
    else { writes := placeWords dests (valueWords w signed (leNat ((List.range w).map fun i => e.loadedByte j a place i))) }
  | .scratch _ => { places := dests, waits := (wordsOf w).length, joint := true }
  | r => r.stops.getD {}

/-- A load of w bytes by lanes that lead to locations: the lowest lane that gets there supplies scalar destinations. -/
def loadBody (f : Fields) (signed live : Bool) (stale : Env → Nat → Option Nat) (address : Env → Nat → DWord)
    (reach : Env → Nat → Reached) : Body := fun e ls s =>
  let w := widthOf f
  let lead := (reaching ls (reach e)).head?
  let dests (j : Nat) : List Place := ownPlaces (lead == some j) (e.destPlaces j f.d (w == 8))
  (ls.foldl (fun s j =>
      reachEffect e j (reach e j) (loadEffect e j (reach e j) (address e j) w signed live (stale e j) (dests j) s)) s,
   fun j => loadLane e j (reach e j) (address e j) w signed live (dests j))

/-- Whether a lane's address is in the global class. -/
def globalAddress (f : Fields) (e : Env) (j : Nat) : Bool := decide (e.s.classOf e.t (e.address f j) = .global)

/-- The value a store form takes from register or pair n: w bytes. -/
def storeValue (e : Env) (j : Nat) (n : BitVec 7) (w : Nat) : Nat :=
  if w = 8 then (e.pair j n).toNat else (e.reg j n).toNat % 2 ^ (8 * w)

/-- A global store of one lane issues (R170, R174), unless it needs an overflow line beyond the quota (R181). -/
def State.issueStore (s : State) (e : Env) (j place w value : Nat) (a : DWord) : State × Option FaultInfo :=
  let bs := placed place (leBytes w value)
  match s.team? e.t.id with
  | none => (s, none)
  | some t =>
    if s.overQuota t bs then (s, some { kind := shadowQuota, addr := a })
    else (s.addOp e j none a (.enter bs), none)

/-- One lane of ST: the state after it, and what becomes of the lane. -/
def storeLane (e : Env) (j : Nat) (r : Reached) (a : DWord) (w value : Nat) (s : State) : State × LaneOut :=
  match r with
  | .memory place page =>
    let p := s.issueStore e j place w value a
    (p.1.reload e.g.id j e.g.core page, { fault := p.2 })
  | .scratch spot => (s.addWrites e j spot w value, {})
  | r => (reachEffect e j r s, r.stops.getD {})

/-- A body whose lanes act one after another, each on the state the lower ones leave. -/
def inTurn (act : Env → Nat → State → State × LaneOut) : Body := fun e ls s =>
  let r := ls.foldl (fun (p : State × List (Nat × LaneOut)) j =>
    let q := act e j p.1
    (q.1, p.2 ++ [(j, q.2)])) (s, [])
  (r.1, fun j => ((r.2.find? fun e => e.1 == j).map fun e => e.2).getD {})

/-- ST (R184, R174, R181). -/
def execSt (f : Fields) (s : State) : Host.Outcome State Fault Refusal :=
  .next (runCore (.st f) f (inTurn fun e j s =>
    let a := e.address f j
    storeLane e j (reachGeneric e j a (widthOf f) (widthOf f) 1 false) a (widthOf f) (storeValue e j f.b (widthOf f)) s) s)

/-! ## PHASE and FENCE -/

/-- PHASE (R185): SATA is checked, the thread's stores enter, and the thread waits for the commit of its team. -/
def execPhase (f : Fields) (s : State) : Host.Outcome State Fault Refusal :=
  .next (runCore (.phase f) f (checkSata (afterStores (perLane fun _ _ =>
    { flow := .wait (.commit f.sc.toNat false false) none }))) s)

/-- The least scope code of FENCE that waits for an access of a thread on a core (R186, R283, R309, R320): 2 team, 3 cluster, 4 die,
5 device, 6 system; none where no FENCE does. -/
def State.fenceScope (s : State) (core : Nat) (o : Op) : Option Nat :=
  let local' (spot : Spot) : Option Nat := some (if spot.team = o.team then 2 else 3)
  let home (place : Nat) : Option Nat :=
    some (if !s.isLocal place then 6 else if homeDie place = coreDie core then 4 else 5)
  match o.access with
  | .localAtomic spot _ _ _ _ _ _ => local' spot
  | .barrierInit spot _ => local' spot
  | .barrierArrive spot _ _ _ => local' spot
  | .write spot _ => if spot.remote then some 3 else none
  | .live place _ _ _ => home place
  | .atomic place _ _ _ _ _ _ => home place
  | .ranked _ place _ _ _ _ _ _ => home place
  | .signal place _ => home place
  | .joinDec place _ _ _ => home place
  | .drainAdd _ scope => some scope
  | .accordDrop _ _ _ _ => some 5
  | .published _ _ => some 5
  | _ => none

/-- What a FENCE of a scope still waits for on a lane (R186). -/
def State.fenceWaits (s : State) (g : Group) (j scope : Nat) : List Nat :=
  (s.ops.filter fun o => o.isOf g.id j && ((s.fenceScope g.core o).map fun n => decide (n ≤ scope)).getD false).map fun o => o.id

/-- FENCE on a lane, after its stores have entered. -/
def fenceLane (f : Fields) (e : Env) (j : Nat) : LaneOut :=
  let w := e.s.fenceWaits e.g j f.sc.toNat
  if w.isEmpty then {} else { flow := .wait (.fence w (modBit f 0)) none }

/-- FENCE (R186): a lane with nothing outstanding goes on at once, and .acq drops the view. -/
def execFence (f : Fields) (s : State) : Host.Outcome State Fault Refusal :=
  .next (runCore (.fence f) f (afterStores fun e ls s =>
    (if modBit f 0 && ls.any fun j => decide ((fenceLane f e j).flow = .next) then s.dropView e.t.id else s,
     fun j => fenceLane f e j)) s)

/-! ## INVV and PREF -/

/-- The teams that the scope of an INVV covers (R187). -/
def Env.covered (e : Env) (scope : Nat) : List Nat :=
  let same (t : Team) : Bool :=
    match scope with
    | 2 => t.id == e.t.id
    | 3 => t.id == e.t.id || (t.cluster.isSome && t.cluster == e.t.cluster)
    | 4 => coreDie t.core == coreDie e.g.core
    | _ => t.ctx == e.t.ctx
  (e.s.teams.filter same).map fun t => t.id

/-- The view lines that overlap n bytes at a global virtual address of a context, page by page of 4 KiB (R187). -/
def State.linesOfRange (s : State) (c : Nat) (va : DWord) (n : Nat) : List Nat :=
  if n = 0 ∨ va.toNat / 2 ^ 56 ≠ 0 then []
  else
    let first := va.toNat / 4096
    let last := min (va.toNat + n - 1) (2 ^ 56 - 1) / 4096
    (List.range (last - first + 1)).flatMap fun i =>
      let lo := max va.toNat (4096 * (first + i))
      let hi := min (va.toNat + n - 1) (4096 * (first + i) + 4095)
      match s.walk c (BitVec.ofNat 64 lo) with
      | none => []
      | some l =>
        let place := placeUnder { asid := 0, generation := 0, page := 0, size := l.size, entry := l.entry }
          (BitVec.ofNat 64 lo)
        (List.range ((place + (hi - lo)) / 128 - place / 128 + 1)).map fun k => place / 128 + k

/-- The body of INVV. -/
def invvBody (f : Fields) : Body := fun e ls s =>
  let teams := e.covered f.sc.toNat
  let s :=
    if ls.isEmpty then s
    else if modBit f 0 then
      let lines := ls.flatMap fun j => e.s.linesOfRange e.t.ctx (e.pair j f.a) (e.reg j f.b).toNat
      teams.foldl (fun s t => lines.foldl (fun s l => s.dropLine t l) s) s
    else teams.foldl (fun s t => s.dropView t) s
  (s, fun _ => {})

/-- INVV (R187). -/
def execInvv (f : Fields) (s : State) : Host.Outcome State Fault Refusal :=
  .next (runCore (.invv f) f (invvBody f) s)

/-- The line PREF fills for a lane (R188): none for an address that is not global, mapped, readable, present and ready, and none
under .slice, since a slice holds no state of its own. -/
def prefLine (f : Fields) (e : Env) (j : Nat) : Option Nat :=
  let a := e.address f j
  if modBit f 0 ∨ e.s.classOf e.t a ≠ .global then none
  else
    match e.s.translate e.t.ctx e.g.core (e.g.lane j).lastPage a 0 with
    | .ok place _ => if e.s.home place = .ready then some (viewLineOf place) else none
    | _ => none

/-- PREF (R188). -/
def execPref (f : Fields) (s : State) : Host.Outcome State Fault Refusal :=
  .next (runCore (.pref f) f (fun e ls s =>
    (ls.foldl (fun s j => match prefLine f e j with
        | some l => s.fillShared e.t.id l
        | none => s) s, fun _ => {})) s)

/-! ## CVTA -/

/-- The kind word of an address (R189). -/
def kindOfAddress (e : Env) (p : DWord) : Word :=
  match e.s.classOf e.t p with
  | .global => 0
  | .scratchpad _ => 1
  | .window rank _ => BitVec.ofNat 32 (2 + 256 * bitsOf rank 0 4)
  | .unused => 3

/-- The cluster window address of CVTA .clu (R189). -/
def clusterAddress (e : Env) (p : DWord) (rank : Nat) : DWord :=
  let o := match e.s.classOf e.t p with
    | .scratchpad o => some o
    | .window _ o => some o
    | _ => none
  match o with
  | some o =>
    if rank < e.s.clusterSize e.t ∧ o < e.s.memberSlice e.t rank then
      BitVec.ofNat 64 (0x0101000000000000 + rank * 2 ^ 20 + o)
    else 0
  | none => 0

/-- The tier of a leaf (R190): 0 HBM, 1 peat tier, 2 host memory, 3 remote device. A remote entry that names the device's own number
has no frame to tell its tier by: 0 (DESIGN CHOICE, log 29). -/
def tierCode (s : State) (e : DWord) : Nat :=
  if entryRem e then (if entryDevice e = s.hub.devnum.toNat then 0 else 3)
  else
    match targetOf (entryFrame e) with
    | .hbm => 0
    | .peat => 1
    | _ => 2

/-- Whether a move of the page is in progress or its hold-down runs (R190). -/
def State.migrating (s : State) (c : Nat) (va : DWord) : Bool :=
  let space (c : Nat) : Nat := (s.ctx c).asid
  (s.moves.any fun m => space m.ctx == space c && m.started &&
      decide (va.toNat / pageBytes m.size = m.va.toNat / pageBytes m.size)) ||
    s.holds.any fun h => space h.ctx == space c && decide (va.toNat / pageBytes h.size = h.va.toNat / pageBytes h.size)

/-- The probe word of an address (R190), by the last-page register, the TLB and the page table. -/
def probeWord (e : Env) (j : Nat) (p : DWord) : Word :=
  let word (size : Nat) (entry : DWord) (present : Bool) : Word :=
    BitVec.ofNat 32 (natOf present + 2 * natOf (entryR entry) + 4 * natOf (entryW entry) + 8 * natOf (entryX entry) +
      16 * natOf (e.s.migrating e.t.ctx p) + 64 * tierCode e.s entry + 256 * size)
  if e.s.classOf e.t p ≠ .global then 0
  else
    match ((e.g.lane j).lastPage.toList ++ (e.s.core e.g.core).tlb).find? (e.s.pageHit (e.s.ctx e.t.ctx).asid p) with
    | some x => word x.size x.entry true
    | none =>
      match e.s.walk e.t.ctx p with
      | none => 0
      | some l => word l.size l.entry (entryP l.entry)

/-- CVTA by mode (R189). -/
def cvtaWrites (f : Fields) (e : Env) (j : Nat) : List Write :=
  let p := e.pair j f.a
  match f.mod.toNat with
  | 0 => e.setReg j f.d (kindOfAddress e p)
  | 1 => e.setPair j f.d (clusterAddress e p (e.reg j f.b).toNat)
  | _ => e.setReg j f.d (probeWord e j p)

/-- CVTA (R189). -/
def execCvta (f : Fields) (s : State) : Host.Outcome State Fault Refusal :=
  .next (runCore (.cvta f) f (perLane fun e j => { writes := cvtaWrites f e j }) s)

end Sys2Proof.Machine
end

