-- ==== Sys2Proof/Machine/Real.lean ====
section
/-! DEFINITION. Float formats and values: decoding, rounding, not-a-number results (R138 to R141), the element formats and
saturation (R155, R157), and the roots and transcendentals (R148). -/

namespace Sys2Proof.Machine

/-! ## Formats and values -/

/-- Which codes of a format are no finite values (R155): infinities and NaNs at the largest exponent, only the NaN at all
ones, or none. -/
inductive Specials where
  | ieee
  | nanOnly
  | none
  deriving DecidableEq, Repr

/-- A float format (R155): exponent and fraction bits, bias, special codes. The sign is the bit above. -/
structure FloatFormat where
  exp : Nat
  frac : Nat
  bias : Nat
  specials : Specials := .ieee
  deriving DecidableEq, Repr

abbrev f32 : FloatFormat := { exp := 8, frac := 23, bias := 127 }

abbrev f64 : FloatFormat := { exp := 11, frac := 52, bias := 1023 }

abbrev bf16 : FloatFormat := { exp := 8, frac := 7, bias := 127 }

abbrev f16 : FloatFormat := { exp := 5, frac := 10, bias := 15 }

abbrev e5m2 : FloatFormat := { exp := 5, frac := 2, bias := 15 }

abbrev e4m3 : FloatFormat := { exp := 4, frac := 3, bias := 7, specials := .nanOnly }

abbrev e3m2 : FloatFormat := { exp := 3, frac := 2, bias := 3, specials := .none }

abbrev e2m3 : FloatFormat := { exp := 2, frac := 3, bias := 1, specials := .none }

abbrev e2m1 : FloatFormat := { exp := 2, frac := 1, bias := 1, specials := .none }

/-- A decoded value: a finite one is a sign and the exact magnitude num / den, den positive. -/
inductive Value where
  | nan
  | inf (neg : Bool)
  | fin (neg : Bool) (num den : Nat)
  deriving DecidableEq, Repr

/-- The width of a format without its sign bit. -/
def FloatFormat.low (f : FloatFormat) : Nat := f.exp + f.frac

/-- The bits of a code below the sign, and the sign. -/
def FloatFormat.magnitude (f : FloatFormat) (code : Nat) : Nat := code % 2 ^ f.low

def FloatFormat.sign (f : FloatFormat) (code : Nat) : Bool := bitOf code f.low

/-- The code of the largest finite magnitude (R155). -/
def FloatFormat.maxCode (f : FloatFormat) : Nat :=
  match f.specials with
  | .ieee => (2 ^ f.exp - 1) * 2 ^ f.frac - 1
  | .nanOnly => 2 ^ f.low - 2
  | .none => 2 ^ f.low - 1

/-- The code of the infinity of a format that has one. -/
def FloatFormat.infCode (f : FloatFormat) : Nat := (2 ^ f.exp - 1) * 2 ^ f.frac

/-- A code is a NaN (R155). -/
def FloatFormat.isNan (f : FloatFormat) (code : Nat) : Bool :=
  match f.specials with
  | .ieee => decide (f.infCode < f.magnitude code)
  | .nanOnly => decide (f.magnitude code = 2 ^ f.low - 1)
  | .none => false

/-- The code of a magnitude code with a sign. -/
def FloatFormat.withSign (f : FloatFormat) (neg : Bool) (magnitude : Nat) : Nat := natOf neg * 2 ^ f.low + magnitude

/-- The magnitude of a finite code: (2^(E - bias)) times 1.f, or the subnormal 2^(1 - bias) times 0.f, as a fraction. -/
def FloatFormat.finite (f : FloatFormat) (neg : Bool) (m : Nat) : Value :=
  let e := m / 2 ^ f.frac
  let t := m % 2 ^ f.frac
  if e = 0 then .fin neg t (2 ^ (f.bias + f.frac - 1))
  else if f.bias + f.frac ≤ e then .fin neg ((2 ^ f.frac + t) * 2 ^ (e - f.bias - f.frac)) 1
  else .fin neg (2 ^ f.frac + t) (2 ^ (f.bias + f.frac - e))

/-- Decode(F, code) (R11, R155). -/
def FloatFormat.decode (f : FloatFormat) (code : Nat) : Value :=
  let m := f.magnitude code
  if f.isNan code then .nan
  else if f.specials = .ieee ∧ m = f.infCode then .inf (f.sign code)
  else f.finite (f.sign code) m

/-- FIZ: a subnormal code read as a zero of its sign (R140). -/
def FloatFormat.flushIn (f : FloatFormat) (fiz : Bool) (code : Nat) : Nat :=
  if fiz ∧ f.magnitude code < 2 ^ f.frac then f.withSign (f.sign code) 0 else code

/-- FOZ: a nonzero result below the smallest normal becomes a zero of its sign (R140). -/
def FloatFormat.flushOut (f : FloatFormat) (foz : Bool) (code : Nat) : Nat := f.flushIn foz code

/-! ## Rounding -/

/-- The rounding modes (R139). -/
inductive Rounding where
  | rne
  | rtz
  | rup
  | rdn
  deriving DecidableEq, Repr

/-- The rounding mode of the code of RM. -/
def roundingOf (rm : Nat) : Rounding :=
  match rm with
  | 0 => .rne
  | 1 => .rtz
  | 2 => .rup
  | _ => .rdn

/-- An integer quotient rounded under a mode, for a magnitude with a sign. -/
def roundQuotient (r : Rounding) (neg : Bool) (num den : Nat) : Nat :=
  let q := num / den
  let t := num % den
  let up : Bool :=
    match r with
    | .rne => decide (den < 2 * t ∨ (2 * t = den ∧ q % 2 = 1))
    | .rtz => false
    | .rup => decide (t ≠ 0) && !neg
    | .rdn => decide (t ≠ 0) && neg
  if up then q + 1 else q

/-- ⌊log₂(num / den)⌋ of a positive fraction. -/
def floorLog (num den : Nat) : Int :=
  let l : Int := (Nat.log2 num : Int) - Nat.log2 den
  let le : Bool := if 0 ≤ l then decide (den * 2 ^ l.toNat ≤ num) else decide (den ≤ num * 2 ^ (-l).toNat)
  if le then l else l - 1

/-- The magnitude code nearest a positive fraction, with the exponent range unbounded above: a code beyond maxCode says
that the value is too large (R155, R138). -/
def FloatFormat.rawCode (f : FloatFormat) (r : Rounding) (neg : Bool) (num den : Nat) : Nat :=
  if num = 0 then 0
  else
    let e := max (floorLog num den) (1 - (f.bias : Int))
    let q := e - f.frac
    let m := if 0 ≤ q then roundQuotient r neg num (den * 2 ^ q.toNat) else roundQuotient r neg (num * 2 ^ (-q).toNat) den
    (e + f.bias - 1).toNat * 2 ^ f.frac + m

/-- Round(v, F, m) of a finite value, for a format with infinities (R11): overflow goes to infinity or to the largest finite
value, as IEEE 754 says for the mode. -/
def FloatFormat.round (f : FloatFormat) (r : Rounding) (neg : Bool) (num den : Nat) : Nat :=
  let c := f.rawCode r neg num den
  if c ≤ f.maxCode then f.withSign neg c
  else
    match r, neg with
    | .rne, _ => f.withSign neg f.infCode
    | .rup, false => f.withSign neg f.infCode
    | .rdn, true => f.withSign neg f.infCode
    | _, _ => f.withSign neg f.maxCode

/-! ## Not-a-number results -/

/-- The quiet bit of a format. -/
def FloatFormat.quiet (f : FloatFormat) : Nat := 2 ^ (f.frac - 1)

/-- The canonical NaN (R141). -/
def FloatFormat.canonical (f : FloatFormat) : Nat :=
  match f.specials with
  | .ieee => f.infCode + f.quiet
  | _ => 2 ^ f.low - 1

/-- A NaN operand of one format as a result in another (R141): quieted, sign kept, the highest fraction bits that fit or
zeros appended; the canonical NaN under CNAN. -/
def nanFrom (cnan : Bool) (g f : FloatFormat) (code : Nat) : Nat :=
  if cnan then f.canonical
  else
    let t := code % 2 ^ g.frac
    let t := if g.frac ≤ f.frac then t * 2 ^ (f.frac - g.frac) else t / 2 ^ (g.frac - f.frac)
    f.withSign (g.sign code) (f.infCode + (t ||| f.quiet))

/-! ## Modes and exact arithmetic -/

/-- The FP mode of an operation: the lane's register with the rounding mode in force (R139, R140). -/
structure FpMode where
  cnan : Bool
  foz : Bool
  fiz : Bool
  rm : Rounding
  deriving DecidableEq, Repr

/-- A value negated. -/
def Value.neg (v : Value) : Value :=
  match v with
  | .nan => .nan
  | .inf n => .inf (!n)
  | .fin n a b => .fin (!n) a b

/-- The signed numerator of a finite magnitude. -/
def signed (neg : Bool) (n : Nat) : Int := if neg then -(n : Int) else n

/-- The exact sum (R140, R144); a NaN stands for an invalid operation too. The sign of an exact zero follows the mode. -/
def Value.add (r : Rounding) (x y : Value) : Value :=
  match x, y with
  | .nan, _ => .nan
  | _, .nan => .nan
  | .inf a, .inf b => if a = b then .inf a else .nan
  | .inf a, _ => .inf a
  | _, .inf b => .inf b
  | .fin s a b, .fin t c d =>
    let z := signed s (a * d) + signed t (c * b)
    if z = 0 then .fin (if s = t then s else decide (r = .rdn)) 0 1 else .fin (decide (z < 0)) z.natAbs (b * d)

/-- The exact product. -/
def Value.mul (x y : Value) : Value :=
  match x, y with
  | .nan, _ => .nan
  | _, .nan => .nan
  | .inf a, .inf b => .inf (a != b)
  | .inf a, .fin t c _ => if c = 0 then .nan else .inf (a != t)
  | .fin s a _, .inf b => if a = 0 then .nan else .inf (s != b)
  | .fin s a b, .fin t c d => .fin (s != t) (a * c) (b * d)

/-- The exact quotient, with the IEEE 754 special cases (R161). -/
def Value.div (x y : Value) : Value :=
  match x, y with
  | .nan, _ => .nan
  | _, .nan => .nan
  | .inf _, .inf _ => .nan
  | .inf a, .fin t _ _ => .inf (a != t)
  | .fin s _ _, .inf b => .fin (s != b) 0 1
  | .fin s a b, .fin t c d =>
    if c = 0 then (if a = 0 then .nan else .inf (s != t)) else .fin (s != t) (a * d) (b * c)

/-- The code of a result that is no operand's NaN: rounded, flushed; the canonical NaN for an invalid operation (R140,
R141). -/
def FloatFormat.encode (f : FloatFormat) (m : FpMode) (v : Value) : Nat :=
  match v with
  | .nan => f.canonical
  | .inf n => f.withSign n f.infCode
  | .fin n a b => f.flushOut m.foz (f.round m.rm n a b)

/-- An operation on operands of one format (R138 to R141): inputs flushed under FIZ; the first NaN operand, else the exact
result rounded once. -/
def FloatFormat.compute (f : FloatFormat) (m : FpMode) (codes : List Nat) (op : List Value → Value) : Nat :=
  let codes := codes.map fun c => f.flushIn m.fiz c
  match codes.find? f.isNan with
  | some c => nanFrom m.cnan f f c
  | none => f.encode m (op (codes.map f.decode))

/-- The sign bit of a code flipped, for a NaN too (R144). -/
def FloatFormat.flip (f : FloatFormat) (c : Bool) (code : Nat) : Nat :=
  if c then f.withSign (!f.sign code) (f.magnitude code) else code

/-- Whether one value is less than another, neither a NaN; −0 equals +0 (R147). -/
def Value.less (x y : Value) : Bool :=
  match x, y with
  | .inf true, .inf b => !b
  | .inf true, .fin _ _ _ => true
  | .fin _ _ _, .inf b => !b
  | .fin s a b, .fin t c d => decide (signed s (a * d) < signed t (c * b))
  | _, _ => false

/-- The relation of two values (R147): 0 less, 1 equal, 2 greater, 3 unordered. -/
def Value.relation (x y : Value) : Nat :=
  if x = .nan ∨ y = .nan then 3 else if x.less y then 0 else if y.less x then 2 else 1

/-- The sign of a value; that of a NaN is false. -/
def Value.negative (x : Value) : Bool :=
  match x with
  | .nan => false
  | .inf n => n
  | .fin n _ _ => n

/-- FMIN and FMAX on two codes (R145): −0 below +0; a NaN is missing, or gives the NaN result with .nan. -/
def FloatFormat.extreme (f : FloatFormat) (m : FpMode) (greatest propagate : Bool) (a b : Nat) : Nat :=
  let a := f.flushIn m.fiz a
  let b := f.flushIn m.fiz b
  let less (x y : Nat) : Bool :=
    let r := (f.decode x).relation (f.decode y)
    r == 0 || (r == 1 && f.sign x && !f.sign y)
  if f.isNan a ∧ (propagate ∨ f.isNan b) then nanFrom m.cnan f f a
  else if f.isNan b ∧ propagate then nanFrom m.cnan f f b
  else if f.isNan a then b
  else if f.isNan b then a
  else if greatest then (if less a b then b else a)
  else if less b a then b else a

/-- A value rounded to an integer under a mode (R150): none for a NaN, an infinity as a bound far outside. -/
def Value.toInteger (r : Rounding) (v : Value) : Option Int :=
  match v with
  | .nan => none
  | .inf n => some (signed n (2 ^ 64))
  | .fin n a b => some (signed n (roundQuotient r n a b))

/-! ## Elements and scales -/

/-- An element format (R155): a float format, or an integer of some bits. -/
inductive Element where
  | float (f : FloatFormat)
  | int (isSigned : Bool) (bits : Nat)
  deriving DecidableEq, Repr

/-- The element format of a code (R155); none for 12 to 15. -/
def elementOf (code : Nat) : Option Element :=
  match code with
  | 0 => some (.float f32)
  | 1 => some (.float bf16)
  | 2 => some (.float f16)
  | 3 => some (.float e5m2)
  | 4 => some (.float e4m3)
  | 5 => some (.float e3m2)
  | 6 => some (.float e2m3)
  | 7 => some (.float e2m1)
  | 8 => some (.int true 8)
  | 9 => some (.int false 8)
  | 10 => some (.int true 4)
  | 11 => some (.int false 4)
  | _ => none

/-- The width of an element in bits (R155). -/
def Element.bits (e : Element) : Nat :=
  match e with
  | .float f => f.low + 1
  | .int _ n => n

/-- The bits of memory an element takes (R156): the 6-bit formats stand in bytes of their own. -/
def Element.stored (e : Element) : Nat := if e.bits = 6 then 8 else e.bits

/-- The value of an element code; bits above its width are ignored (R156, R162). -/
def Element.decode (e : Element) (code : Nat) : Value :=
  let c := code % 2 ^ e.bits
  match e with
  | .float f => f.decode c
  | .int s n =>
    if s ∧ 2 ^ (n - 1) ≤ c then .fin true (2 ^ n - c) 1 else .fin false c 1

/-- Max(F), the largest finite value (R155, R161). -/
def Element.max (e : Element) : Value :=
  match e with
  | .float f => f.finite false f.maxCode
  | .int s n => .fin false (if s then 2 ^ (n - 1) - 1 else 2 ^ n - 1) 1

/-- Emax(F) (R161). -/
def Element.emax (e : Element) : Int :=
  match e.max with
  | .fin _ a b => floorLog a b
  | _ => 0

/-- The code of the largest finite value with a sign. -/
def Element.largest (e : Element) (neg : Bool) : Nat :=
  match e with
  | .float f => f.withSign neg f.maxCode
  | .int true n => if neg then 2 ^ (n - 1) else 2 ^ (n - 1) - 1
  | .int false n => if neg then 0 else 2 ^ n - 1

/-- SatRound(v, F) (R11, R155): the code, and whether it saturated. -/
def Element.satRound (e : Element) (v : Value) : Nat × Bool :=
  match e, v with
  | .float f, .nan => if f.specials = .none then (0, true) else (f.canonical, false)
  | .int _ _, .nan => (0, true)
  | e, .inf n => (e.largest n, true)
  | .float f, .fin n a b =>
    let c := f.rawCode .rne n a b
    if c ≤ f.maxCode then (f.withSign n c, false) else (f.withSign n f.maxCode, true)
  | .int s k, .fin n a b =>
    let z := signed n (roundQuotient .rne n a b)
    let lo : Int := if s then -(2 ^ (k - 1) : Int) else 0
    let hi : Int := if s then 2 ^ (k - 1) - 1 else 2 ^ k - 1
    if z < lo then ((lo % 2 ^ k).toNat, true)
    else if hi < z then (hi.toNat, true)
    else ((z % 2 ^ k).toNat, false)

/-- The value of a scale code of a kind (R157): none, E8M0, E4M3, FP32 tensor. -/
def scaleValue (kind code : Nat) : Value :=
  match kind with
  | 0 => .fin false 1 1
  | 1 =>
    let e := code % 256
    if e = 255 then .nan else if 127 ≤ e then .fin false (2 ^ (e - 127)) 1 else .fin false 1 (2 ^ (127 - e))
  | 2 => e4m3.decode (code % 256)
  | _ => f32.decode (code % 2 ^ 32)

/-! ## Roots -/

/-- The integer square root, below 2^n. -/
def isqrt (n x : Nat) : Nat :=
  match n with
  | 0 => 0
  | k + 1 =>
    let s := isqrt k (x / 4)
    if (2 * s + 1) * (2 * s + 1) ≤ x then 2 * s + 1 else 2 * s

/-- A fraction that rounds to nearest as the square root of num / den does: 120 bits of the root, and half a unit more
where the root is not exact. -/
def rootOf (num den : Nat) : Value :=
  let y := num * 2 ^ 240 / den
  let s := isqrt 256 y
  .fin false (2 * s + natOf (num * 2 ^ 240 % den ≠ 0 ∨ s * s ≠ y)) (2 ^ 121)

/-! ## Transcendental functions

Fixed-point numbers scaled by 2^256. Every series below is summed with an error of fewer than 2^20 units: at most 300 terms,
each off by at most two units, and the error of its argument. Where the two ends of the error interval round to one FP32 code,
that code is the correctly rounded one; elsewhere the result is Config.transcendental (log 9). -/

/-- The scale of the fixed-point numbers. -/
def unitScale : Nat := 2 ^ 256

/-- ln 2 as the sum of 1 / (k 2^k). -/
def lnTwo : Nat := (List.range 256).foldl (fun v i => v + unitScale / ((i + 1) * 2 ^ (i + 1))) 0

/-- arctan(1 / n), alternating. -/
def arcTanInverse (n : Nat) : Int :=
  (List.range 58).foldl (fun v i =>
    let t : Int := (unitScale / ((2 * i + 1) * n ^ (2 * i + 1)) : Nat)
    if i % 2 = 0 then v + t else v - t) 0

/-- π by Machin's formula. -/
def piFixed : Nat := (16 * arcTanInverse 5 - 4 * arcTanInverse 239).toNat

/-- e^x for 0 ≤ x < 1. -/
def expFixed (x : Nat) : Nat :=
  ((List.range 64).foldl (fun (p : Nat × Nat) i => (p.1 + p.2, p.2 * x / unitScale / (i + 1))) (0, unitScale)).1

/-- sin x for 0 ≤ x ≤ π / 2. -/
def sinFixed (x : Nat) : Nat :=
  let sq := x * x / unitScale
  ((List.range 40).foldl (fun (p : Int × Nat) i =>
    (if i % 2 = 0 then p.1 + p.2 else p.1 - p.2, p.2 * sq / unitScale / ((2 * i + 2) * (2 * i + 3)))) ((0 : Int), x)).1.toNat

/-- ln of a fraction between 1 and 2, by twice the area tangent of (num - den) / (num + den). -/
def lnFixed (num den : Nat) : Nat :=
  let z := (num - den) * unitScale / (num + den)
  let sq := z * z / unitScale
  2 * ((List.range 84).foldl (fun (p : Nat × Nat) i => (p.1 + p.2 / (2 * i + 1), p.2 * sq / unitScale)) (0, z)).1

/-- The FP32 code of a fixed-point number times num / den with a sign, where its error interval settles the rounding. -/
def settled (fn : Nat) (a : Word) (neg : Bool) (x num den : Nat) : Nat :=
  let lo := f32.round .rne neg ((x - 2 ^ 20) * num) (unitScale * den)
  let hi := f32.round .rne neg ((x + 2 ^ 20) * num) (unitScale * den)
  if lo = hi then lo else (Config.transcendental fn a).toNat

/-- 2^(±num / den) (R148). -/
def powerOfTwo (a : Word) (neg : Bool) (num den : Nat) : Nat :=
  let q := num / den
  let r := num % den
  if r = 0 then (if neg then f32.round .rne false 1 (2 ^ q) else f32.round .rne false (2 ^ q) 1)
  else if !neg then settled 3 a false (expFixed (lnTwo * r / den)) (2 ^ q) 1
  else settled 3 a false (expFixed (lnTwo * (den - r) / den)) 1 (2 ^ (q + 1))

/-- log₂(num / den) (R148). -/
def logTwo (a : Word) (num den : Nat) : Nat :=
  let e := floorLog num den
  let n := if 0 ≤ e then num else num * 2 ^ (-e).toNat
  let d := if 0 ≤ e then den * 2 ^ e.toNat else den
  if n = d then f32.round .rne (decide (e < 0)) e.natAbs 1
  else
    let x : Int := e * unitScale + (lnFixed n d * unitScale / lnTwo : Nat)
    settled 4 a (decide (x < 0)) x.natAbs 1 1

/-- sin(π num / den) with a sign, for a fraction that is no integer (R148). -/
def sinPi (fn : Nat) (a : Word) (neg : Bool) (num den : Nat) : Nat :=
  let turn := num % (2 * den)
  let second := decide (den < turn)
  let t := if second then turn - den else turn
  let t := if den < 2 * t then den - t else t
  if 2 * t = den then f32.withSign (neg != second) 0x3F800000
  else settled fn a (neg != second) (sinFixed (piFixed * t / den)) 1 1

/-- An FP32 result of FRCP, FSQRT, FRSQ, FEX2, FLG2, FSINP or FCOSP, by number 0 to 6, of a finite nonzero argument
(R148). -/
def transcendentalOf (fn : Nat) (a : Word) (neg : Bool) (num den : Nat) : Nat :=
  match fn with
  | 0 => f32.round .rne neg den num
  | 1 =>
    match neg, rootOf num den with
    | false, .fin _ x y => f32.round .rne false x y
    | _, _ => f32.canonical
  | 2 =>
    match neg, rootOf den num with
    | false, .fin _ x y => f32.round .rne false x y
    | _, _ => f32.canonical
  | 3 => if 200 * den < num then (if neg then 0 else f32.infCode) else powerOfTwo a neg num den
  | 4 => if neg then f32.canonical else logTwo a num den
  | 5 => if num % den = 0 then f32.withSign neg 0 else sinPi 5 a neg num den
  | _ =>
    -- cos(π a) = sin(π (|a| + 1/2))
    if (2 * num + den) % (2 * den) = 0 then 0 else sinPi 6 a false (2 * num + den) (2 * den)

/-- Its results for zeros and infinities (R148). -/
def transcendentalSpecial (fn : Nat) (v : Value) : Nat :=
  match v with
  | .inf n =>
    match fn with
    | 0 => f32.withSign n 0
    | 1 => if n then f32.canonical else f32.infCode
    | 2 => if n then f32.canonical else 0
    | 3 => if n then 0 else f32.infCode
    | 4 => if n then f32.canonical else f32.infCode
    | _ => f32.canonical
  | .fin n _ _ =>
    match fn with
    | 0 => f32.withSign n f32.infCode
    | 1 => f32.withSign n 0
    | 2 => f32.withSign n f32.infCode
    | 3 => 0x3F800000
    | 4 => f32.withSign true f32.infCode
    | 5 => f32.withSign n 0
    | _ => 0x3F800000
  | .nan => f32.canonical

/-- A transcendental on an FP32 code, rounded to nearest even; FIZ, FOZ and CNAN apply (R148). -/
def transcendental (fn : Nat) (m : FpMode) (a : Word) : Nat :=
  let c := f32.flushIn m.fiz a.toNat
  if f32.isNan c then nanFrom m.cnan f32 f32 c
  else
    match f32.decode c with
    | .fin n (x + 1) y => f32.flushOut m.foz (transcendentalOf fn (BitVec.ofNat 32 c) n (x + 1) y)
    | v => transcendentalSpecial fn v

end Sys2Proof.Machine
end

