-- ==== Sys2Proof/Machine/Perform.lean ====
section
/-! DEFINITION. Performing an access: the atomic operations (R209, R210), the order in which pending accesses may be performed
(R175, R194, R207, R224, R228), and what each does at its bank or its home (R194, R222 to R228). -/

namespace Sys2Proof.Machine

/-! ## Atomic operations -/

/-- A float result at memory (R210): RNE, .fz, .cn and .si from the control bits 0 to 2, o the first operand. -/
def memoryAdd (ft : FloatFormat) (control o v : Nat) : Nat :=
  let m : FpMode := { cnan := bitOf control 1, foz := bitOf control 0, fiz := bitOf control 0, rm := .rne }
  let r := ft.compute m [o, v] fun vs =>
    match vs with
    | [x, y] => x.add .rne y
    | _ => .nan
  let finite (c : Nat) : Bool := !ft.isNan c && ft.magnitude c != ft.infCode
  if bitOf control 2 ∧ finite o ∧ finite v ∧ ft.magnitude r = ft.infCode then ft.withSign (ft.sign r) ft.maxCode else r

/-- A tile element added to a destination of a format (R309): Round(Decode(F, o) + v, F, RNE), v an FP32 code, under .fz, .cn
and .si. -/
def drainSum (ft : FloatFormat) (control o v : Nat) : Nat :=
  let fz := bitOf control 0
  let o := ft.flushIn fz o
  let v := f32.flushIn fz v
  if ft.isNan o then nanFrom (bitOf control 1) ft ft o
  else if f32.isNan v then nanFrom (bitOf control 1) f32 ft v
  else
    let r := ft.encode { cnan := bitOf control 1, foz := fz, fiz := fz, rm := .rne } ((ft.decode o).add .rne (f32.decode v))
    let finite : Bool := ft.magnitude o != ft.infCode && f32.magnitude v != f32.infCode
    if bitOf control 2 ∧ finite ∧ ft.magnitude r = ft.infCode then ft.withSign (ft.sign r) ft.maxCode else r

/-- The minimum or maximum of floats at memory (R209, R210). -/
def memoryExtreme (ft : FloatFormat) (greatest : Bool) (control o v : Nat) : Nat :=
  ft.extreme { cnan := bitOf control 1, foz := false, fiz := bitOf control 0, rm := .rne } greatest false o v

/-- Signed order of n-bit numbers. -/
def signedLess (n a b : Nat) : Bool := (BitVec.ofNat n a).slt (BitVec.ofNat n b)

/-- The new value of an atomic with n-bit old value o and operand v (R209); 16 is compare and swap with the swap value x
(R221). -/
def atomicResult (op control n o v x : Nat) : Nat :=
  let ft := if n = 64 then f64 else f32
  let halves (f : FloatFormat) : Nat :=
    memoryAdd f control (o % 65536) (v % 65536) + 65536 * memoryAdd f control (o / 65536) (v / 65536)
  match op with
  | 0 => (o + v) % 2 ^ n
  | 1 => if signedLess n v o then v else o
  | 2 => if signedLess n o v then v else o
  | 3 => min o v
  | 4 => max o v
  | 5 => o &&& v
  | 6 => o ||| v
  | 7 => o ^^^ v
  | 8 => v
  | 9 => if v ≤ o then 0 else o + 1
  | 10 => if o = 0 ∨ v < o then v else o - 1
  | 11 => memoryAdd ft control o v
  | 12 => memoryExtreme ft false control o v
  | 13 => memoryExtreme ft true control o v
  | 14 => halves f16
  | 15 => halves bf16
  | _ => if o = v then x else o

/-! ## The slice -/

/-- n bytes of a slice as a number. -/
def Team.sliceNat (t : Team) (offset n : Nat) : Nat :=
  leNat ((List.range n).map fun i => sget (0 : Byte) t.slice (offset + i))

/-- Whether some thread or matrix operation may still read a scratchpad value that is no longer current (R228, R297). -/
def State.keepsPast (s : State) : Bool :=
  (s.groups.any fun g => g.lanes.any fun l => l.stale.isSome || l.arrivals.any fun a => a.2.since) ||
    s.teams.any fun t => t.matrix.queue.any fun m => m.started

/-- Bytes written into a team's slice by offset, by lanes of a group where a thread writes; the bytes they replace are remembered
while a thread may still load them (R228). -/
def State.writeSliceBy (s : State) (tid gid : Nat) (lanes : List Nat) (bs : List (Nat × Byte)) : State :=
  s.mapTeam tid fun t =>
    { t with slice := sputAll 0 t.slice bs,
             past := if s.keepsPast then t.past ++ bs.map fun e =>
                       { step := s.now, offset := e.1, byte := sget 0 t.slice e.1, gid, lanes }
                     else [] }

/-- Bytes written into a team's slice. -/
def State.writeSlice (s : State) (tid offset : Nat) (bs : List Byte) : State :=
  s.writeSliceBy tid 0 [] (bs.mapIdx fun i b => (offset + i, b))

/-- The byte of a slice at an offset as it was in a step: what the first write from then on replaced, else what stands there. -/
def Team.byteAt (t : Team) (step offset : Nat) : Byte :=
  match t.past.find? fun p => p.offset == offset && decide (step ≤ p.step) with
  | some p => p.byte
  | none => sget 0 t.slice offset

/-- The first step whose values of a word a thread may load: since its CBARV (R228), and not before its own last write there
(R194). -/
def Team.freshFrom (t : Team) (gid j since offset : Nat) : Nat :=
  t.past.foldl (fun n p => if p.offset / 4 = offset / 4 ∧ p.gid = gid ∧ j ∈ p.lanes then max n (p.step + 1) else n) since

/-- The word a thread takes from its slice request: the one that stands there, or freely one that stood there since its CBARV (R228)
(log 23). -/
def Team.loaded (t : Team) (now gid offset : Nat) (r : Reading) : Nat :=
  match r.stale with
  | none => t.sliceNat (offset + r.inner) r.bytes
  | some since =>
    let first := t.freshFrom gid r.lane since offset
    let step := first + Config.staleMoment now r.lane offset % (now + 1 - first)
    leNat ((List.range r.bytes).map fun i => t.byteAt step (offset + r.inner + i))

/-- Whether two accesses come from one thread. -/
def Op.sameThread (a b : Op) : Bool := a.gid == b.gid && a.lanes.any b.lanes.contains

/-- Whether two accesses come from one instruction. -/
def Op.sameIssue (a b : Op) : Bool := a.gid == b.gid && a.issued == b.issued

/-- Whether an access goes to a slice as to a member of the cluster (R206). -/
def Op.isRemote (o : Op) : Bool :=
  match o.access with
  | .read p _ => p.remote
  | .write p _ => p.remote
  | .localAtomic p _ _ _ _ _ _ => p.remote
  | _ => false

/-- Whether the requests x and o of one thread to one slice are performed in order: those to a bank (R194); of those where one
goes to a member of the cluster, stores to overlapping bytes (R206). -/
def Op.inOrder (x o : Op) : Bool :=
  if x.isRemote || o.isRemote then
    match x.access, o.access with
    | .write p a, .write q b => p.remote && q.remote && a.any fun e => b.any fun y => y.1 == e.1
    | _, _ => false
  else
    match x.span, o.span with
    | some a, some b => sharesBank a.2 b.2
    | _, _ => false

/-- Whether access x has to be performed before scratchpad access o: a thread's requests to one slice as above, and the lanes of one
instruction on one word, in order (R194, R206, R207); an arrival after every earlier access of its thread to the slice (R224), or to
any slice with release (R228). -/
def Op.before (x o : Op) : Bool :=
  decide (x.id < o.id) &&
    (match o.access, x.span, o.span with
     | .clusterArrive _ release, some _, _ => release && x.sameThread o
     | .barrierArrive _ _ _ _, some a, some b =>
       a.1 == b.1 && (x.sameThread o || (x.sameIssue o && sharesWord a.2 b.2))
     | _, some a, some b =>
       a.1 == b.1 && ((x.sameThread o && x.inOrder o) || (x.sameIssue o && sharesWord a.2 b.2))
     | _, _, _ => false)

/-- Whether a scratchpad access may be performed now (R27, R192, R194, R207, R224, R228). -/
def State.scratchReady (s : State) (o : Op) : Bool := s.inBankQueue o && !s.ops.any fun x => x.before o

/-- Whether an access may be performed at its home now (R175, R207, R37). -/
def State.homeReady (s : State) (o : Op) : Bool :=
  match o.homeSpan with
  | none => false
  | some (p, n) =>
    decide (s.home p = .ready) && !s.ops.any fun x =>
      decide (x.id < o.id) && (x.sameThread o || x.sameIssue o) && x.touches p n

/-! ## Barrier words and cluster barriers -/

/-- The barrier word of R222: PH, EXP, PEND. -/
def barrierWord (ph : Bool) (exp pend : Nat) : List Byte := leBytes 2 pend ++ leBytes 2 exp ++ leBytes 4 (natOf ph)

/-- The record of an event of an access, with its instruction (R337, R338). -/
def State.opRecord (s : State) (o : Op) (t : Team) (i : FaultInfo) : ErrorRecord :=
  { s.eventRecord t i false with
    pc := o.pc, lanes := maskOf [o.lane],
    whereWord := ((s.group? o.gid).map fun g => g.whereWord).getD (BitVec.ofNat 32 t.core) }

/-- The ring of a pipeline team's launch (R246): the slice offset of its first full word and its stage count. -/
def State.ring (s : State) (t : Team) : Option (Nat × Nat) :=
  let r := s.record t
  let d : DWord := sget 0 t.buffers (bitsOf r.ringCtl.toNat 0 5)
  if t.pipe ∧ r.ringCtl.getLsbD 15 then some (descBase d + r.ringOff.toNat, bitsOf r.ringCtl.toNat 8 4 + 1) else none

/-- The occupancy of a team's ring (R246). -/
def Team.occupancy (t : Team) : Nat := t.ringFull - t.ringEmpty

/-- A completed phase of the word at an offset counted, where it is a full or an empty word of the ring (R246). -/
def State.noteRing (s : State) (tid offset : Nat) : State :=
  match s.team? tid with
  | none => s
  | some t =>
    match s.ring t with
    | none => s
    | some (base, n) =>
      let isFull := decide (base ≤ offset ∧ offset < base + 8 * n)
      let isEmpty := decide (base + 8 * n ≤ offset ∧ offset < base + 16 * n)
      let h := bitsOf (s.record t).ringTh.toNat 0 8
      s.mapTeam tid fun t =>
        let r := { t with ringFull := t.ringFull + natOf isFull, ringEmpty := t.ringEmpty + natOf isEmpty }
        if h ≤ t.occupancy ∧ r.occupancy < h then { r with ringLow := s.clk.toNat } else r

/-- An arrival of a weight on the barrier word at an offset of a team's slice (R223): the excess, and the state after it. -/
def State.arrive (s : State) (tid offset weight : Nat) : Nat × State :=
  match s.team? tid with
  | none => (0, s)
  | some t =>
    let pend := t.sliceNat offset 2
    let exp := t.sliceNat (offset + 2) 2
    let ph := t.phaseBit offset
    if weight = 0 then (0, s)
    else if weight < pend then (0, s.writeSlice tid offset (barrierWord ph exp (pend - weight)))
    else (weight - pend, (s.writeSlice tid offset (barrierWord (!ph) exp exp)).noteRing tid offset)

/-- BarrierOverrun's record for an excess (R223, R339). -/
def overrun (x buffer inner : Nat) : FaultInfo :=
  { kind := barrierOverrun, info := BitVec.ofNat 32 x, aux := BitVec.ofNat 64 inner, aux2 := BitVec.ofNat 64 buffer }

/-! ## Performing -/

/-- A scratchpad access acts on its bank (R194, R209, R222 to R228). -/
def State.performScratch (s : State) (o : Op) : State :=
  let s := s.dropOp o.id
  match o.access with
  | .read p readings =>
    readings.foldl (fun s r =>
      s.deliverTo o r.lane (match s.team? p.team with
        | none => []
        | some t => placeWords r.dests (valueWords r.bytes r.signed (t.loaded s.now o.gid p.offset r)))) s
  | .write p bs => (s.writeSliceBy p.team o.gid o.lanes bs).wakeAll
  | .localAtomic p op control wide operand swap dests =>
    match s.team? p.team with
    | none => s.deliver o []
    | some t =>
      let n := atomicBytes wide
      let old := t.sliceNat p.offset n
      let new := atomicResult op control (8 * n) old operand.toNat swap.toNat
      let bytes := (leBytes n new).mapIdx fun i b => (p.offset + i, b)
      ((s.writeSliceBy p.team o.gid o.lanes bytes).deliver o (placeWords dests (valueWords n false old))).wakeAll
  | .barrierInit p count => (s.writeSlice p.team p.offset (barrierWord false count count)).wakeAll
  | .barrierTest p parity dests =>
    match s.team? p.team with
    | none => s.deliver o []
    | some t =>
      let turned := t.phaseBit p.offset != parity
      (if turned then s.mapLane o.gid o.lane Lane.acquire else s).deliver o (placeWords dests [BitVec.ofNat 32 (natOf turned)])
  | .barrierArrive p weight buffer inner =>
    let r := s.arrive p.team p.offset weight
    let s := r.2
    let s := match s.team? o.team with
      | some t => if r.1 = 0 then s else s.addRecord (s.opRecord o t (overrun r.1 buffer inner))
      | none => s
    s.wakeAll
  | .clusterArrive c _ =>
    let flag (l : Lane) : Lane :=
      let a : Arrival := sget {} l.arrivals c
      { l with arrivals := sput {} l.arrivals c { a with flag := true } }
    ((s.mapLane o.gid o.lane flag).clusterArrive o.team c).wakeAll
  | _ => s

/-- Some pending scratchpad accesses performed, with those that have to be before them, in issue order (log 23). -/
def State.performFirst (s : State) (wanted : Op → Bool) : State :=
  (s.ops.foldr (fun o acc => if wanted o || acc.any (fun y => o.before y) then o :: acc else acc) []).foldl
    (fun s o => s.performScratch o) s

/-- A thread reads n bytes of its team's slice at an offset: its earlier accesses to their banks come first (R194) (log 23). -/
def State.beforeRead (s : State) (e : Env) (j offset n : Nat) : State :=
  s.performFirst fun o => o.isOf e.g.id j && o.hits e.t.id offset n

/-- The state of a buffer is about to change: every lane access to it that issued before comes first (R201). -/
def State.settleBuffer (s : State) (tid b : Nat) : State :=
  match s.team? tid with
  | some t => s.performFirst fun o => o.within tid (descBase (t.buffer b)) (descSize (t.buffer b))
  | none => s

/-- A signal word raised to a maximum in M in one step: threads that wait for it are woken, and so is the host where system
software has registered the word (R254). -/
def State.raiseWord (s : State) (place v : Nat) : State :=
  let s := s.writeNat place 8 (max (s.readNat place 8) v)
  let s := if s.host.signalWords.contains place then
    { s with host := { s.host with signalled := s.host.signalled ++ [place] } } else s
  s.wakeAll

/-- An access acts on M at its home, join decrements and ranked contributions aside (R172 Perform, R173, R207, R254). -/
def State.performHome (s : State) (o : Op) : State :=
  let s := s.dropOp o.id
  match o.access with
  | .live p known signed dests =>
    let read (place : Nat) : Byte :=
      match s.team? o.team with
      | some t => s.liveByte t place
      | none => s.byte place
    let bs := known.mapIdx fun i k => k.getD (read (p + i))
    s.deliver o (placeWords dests (valueWords bs.length signed (leNat bs)))
  | .atomic p op control wide operand swap dests =>
    let n := atomicBytes wide
    let old := s.readNat p n
    let new := atomicResult op control (8 * n) old operand.toNat swap.toNat
    ((s.writeNat p n new).deliver o (placeWords dests (valueWords n false old))).wakeAll
  | .signal p v => s.raiseWord p v.toNat
  | _ => s

end Sys2Proof.Machine
end

