-- ==== Sys2Proof/Machine/Scratch.lean ====
section
/-! DEFINITION. The scratchpad instructions of major 0x1B (R214 to R220), and the events in which banks act (R194, R223). -/

namespace Sys2Proof.Machine

/-! ## Loads and stores -/

/-- The local operand of LDS and STS, and the remote one of LDSR and STSR (R197, R205). -/
def localOperand (f : Fields) (a : BufferAccess) (e : Env) (j : Nat) : Reached :=
  reachBuffer e f.c.toNat (e.offset f j) (widthOf f) a

def remoteOperand (f : Fields) (a : BufferAccess) (e : Env) (j : Nat) : Reached :=
  reachRemote e f.c.toNat (e.offset f j) (widthOf f) a

/-- A scratchpad store: every lane's value goes to its bank (R194). -/
def scratchStore (f : Fields) (reach : Env → Nat → Reached) : Body := inTurn fun e j s =>
  storeLane e j (reach e j) 0 (widthOf f) (storeValue e j f.a (widthOf f)) s

/-- LDS (R214). -/
def execLds (f : Fields) (s : State) : Host.Outcome State Fault Refusal :=
  .next (runCore (.lds f) f (loadBody f (modBit f 2) false (fun e j => (e.g.lane j).stale) (fun _ _ => 0) (localOperand f .read)) s)

/-- STS (R214). -/
def execSts (f : Fields) (s : State) : Host.Outcome State Fault Refusal :=
  .next (runCore (.sts f) f (scratchStore f (localOperand f .write)) s)

/-- LDSR (R214). -/
def execLdsr (f : Fields) (s : State) : Host.Outcome State Fault Refusal :=
  .next (runCore (.ldsr f) f (loadBody f (modBit f 2) false (fun e j => (e.g.lane j).stale) (fun _ _ => 0) (remoteOperand f .read)) s)

/-- STSR (R214). -/
def execStsr (f : Fields) (s : State) : Host.Outcome State Fault Refusal :=
  .next (runCore (.stsr f) f (scratchStore f (remoteOperand f .write)) s)

/-! ## The buffer table -/

/-- A BufferState or BufferBounds fault of BDECL or BSET: TABLE set, access code 0, with an offset (R339). -/
def tableFault (kind : Nat) (d : DWord) (n offset : Nat) : FaultInfo :=
  { kind, info := BitVec.ofNat 32 (n + 256 * descState d + 1024), aux := BitVec.ofNat 64 offset,
    aux2 := BitVec.ofNat 64 (descWp d) }

/-- Whether two declared ranges of a slice overlap. -/
def rangesOverlap (a b : DWord) : Bool :=
  decide (descBase a < descBase b + descSize b ∧ descBase b < descBase a + descSize a)

/-- Whether a descriptor may be declared as buffer n of a team (R215) (log 29). -/
def State.declarable (s : State) (t : Team) (n : Nat) (x : DWord) : Bool :=
  let own := t.buffer n
  let held := if descV own && descKind own == 2 then descSlots own else 0
  bitsOf x.toNat 57 7 == 0 && bitsOf x.toNat 30 22 == 0 && bitsOf x.toNat 24 4 == 0 && descKind x != 3 &&
    decide (bitsOf x.toNat 52 3 ≤ 5) && decide (descBase x + descSize x ≤ t.sliceSize) &&
    (List.range 32).all (fun m => m == n || !descV (t.buffer m) || !rangesOverlap x (t.buffer m)) &&
    (descKind x != 2 ||
      (descSlots x % descWays x == 0 && decide (descSlots x + s.tagsUsed t.core ≤ 4096 + held)))

/-- The body of BDECL, once per issue with the lowest guarded lane's operands (R215). -/
def bdeclBody (f : Fields) : Body := fun e ls s =>
  match ls with
  | [] => (s, fun _ => {})
  | low :: _ =>
    let n := f.c.toNat
    let x := e.pair low f.a
    let d := e.t.buffer n
    if descV d && (descEng d || (descKind d != 0 && descState d != 0)) then
      (s, fun _ => { fault := some (tableFault bufferState d n 0), together := true })
    else if modBit f 0 then (s.mapTeam e.t.id fun t => (t.setBuffer n 0).clearTags n, fun _ => {})
    else if !e.s.declarable e.t n x then
      (s, fun _ => { fault := some { kind := bufferDecl, info := BitVec.ofNat 32 (n + 1024) }, together := true })
    else (s.mapTeam e.t.id fun t => (t.setBuffer n (x ||| 0x08000000#64)).clearTags n, fun _ => {})

/-- BDECL (R215). -/
def execBdecl (f : Fields) (s : State) : Host.Outcome State Fault Refusal :=
  .next (runCore (.bdecl f) f (bdeclBody f) s)

/-- The write pointer after BSET to a state, with the register value v (R202, R216): none where v is not allowed. -/
def bsetWp (d : DWord) (state v : Nat) : Option Nat :=
  if descKind d ≠ 1 then some 0
  else
    match state with
    | 0 => some 0
    | 1 => if v % 4 ≠ 0 ∨ descSize d < v ∨ (descState d = 1 ∧ v < descWp d) then none else some v
    | 2 => some (descSize d)
    | _ => some (descWp d)

/-- The body of BSET (R216): the change takes effect after every access to the buffer that issued before (R201). -/
def bsetBody (f : Fields) : Body := fun e ls s =>
  match ls with
  | [] => (s, fun _ => {})
  | low :: _ =>
    let n := f.c.toNat
    let d := e.t.buffer n
    let state := modBits f 0 2
    let v := (e.reg low f.b).toNat
    if !descV d || descEng d then
      (s, fun _ => { fault := some (tableFault bufferState d n (if state = 1 then v else 0)), together := true })
    else
      match bsetWp d state v with
      | none => (s, fun _ => { fault := some (tableFault bufferBounds d n v), together := true })
      | some wp =>
        ((s.settleBuffer e.t.id n).mapTeam e.t.id fun t =>
           t.setBuffer n (withWp (withState d state) wp), fun _ => {})

/-- BSET (R216). -/
def execBset (f : Fields) (s : State) : Host.Outcome State Fault Refusal :=
  .next (runCore (.bset f) f (bsetBody f) s)

/-- The value BQRY reads (R217); an undeclared entry reads 0. -/
def bqryValue (t : Team) (n field : Nat) : DWord :=
  let d := t.buffer n
  if !descV d then 0
  else
    match field with
    | 0 => BitVec.ofNat 64 (descWp d)
    | 1 => BitVec.ofNat 64 (descState d + 4 * natOf (descEng d))
    | 2 => d
    | _ =>
      if descKind d = 2 then BitVec.ofNat 64 ((List.range (descSlots d)).countP fun i => (t.tag n i).isSome) else 0

/-- BQRY (R217). -/
def execBqry (f : Fields) (s : State) : Host.Outcome State Fault Refusal :=
  .next (runCore (.bqry f) f (perLane fun e j =>
    let v := bqryValue e.t f.c.toNat f.mod.toNat
    { writes := if f.mod = 2 then e.setPair j f.d v else e.setReg j f.d (v.extractLsb' 0 32) }) s)

/-! ## Tagged slots -/

/-- The check of a tag operation on buffer n (R197, R200): tagged, declared and FULL. -/
def tagCheck (t : Team) (n : Nat) : Option FaultInfo :=
  let d := t.buffer n
  if descV d && legal d .tag 0 0 then none else some (bufferFault bufferState d n .tag 0 0)

/-- The word TLOOK returns (R218); a buffer too small for one slot has no set, and its word is a free value. -/
def lookup (now : Nat) (t : Team) (n : Nat) (tag : Word) : Word :=
  let d := t.buffer n
  let slots := slotsOfTag d tag
  if descSlots d = 0 then Config.freeWord now tag.toNat
  else
    match slots.find? fun i => t.tag n i == some tag with
    | some i => BitVec.ofNat 32 i
    | none =>
      match slots.find? fun i => (t.tag n i).isNone with
      | some i => BitVec.ofNat 32 (0x80000000 + i)
      | none => BitVec.ofNat 32 (0xC0000000 + slots.headD 0)

/-- TLOOK (R218). -/
def execTlook (f : Fields) (s : State) : Host.Outcome State Fault Refusal :=
  .next (runCore (.tlook f) f (perLane fun e j =>
    let n := f.c.toNat
    match tagCheck e.t n with
    | some i => { fault := some i }
    | none => { writes := e.setReg j f.d (lookup e.s.now e.t n (e.reg j f.a)) }) s)

/-- Tag t in slot i of buffer n: every other slot of the set that holds it becomes invalid (R219). -/
def Team.installTag (t : Team) (n i : Nat) (tag : Word) : Team :=
  let others := (slotsOfTag (t.buffer n) tag).filter fun k => t.tag n k == some tag
  (others.foldl (fun t k => t.setTag n k none) t).setTag n i (some tag)

/-- The fault of a lane of TINST, if any (R219). -/
def installFault (t : Team) (n : Nat) (slot tag : Word) : Option FaultInfo :=
  let d := t.buffer n
  match tagCheck t n with
  | some i => some i
  | none =>
    if descSlots d ≤ slot.toNat then some (bufferFault bufferBounds d n .tag slot.toNat 0)
    else if !(slotsOfTag d tag).contains slot.toNat then some { kind := tagSet }
    else none

/-- TINST (R219): the lanes that pass act in ascending order. -/
def execTinst (f : Fields) (s : State) : Host.Outcome State Fault Refusal :=
  .next (runCore (.tinst f) f (inTurn fun e j s =>
    match installFault e.t f.c.toNat (e.reg j f.a) (e.reg j f.b) with
    | some i => (s, { fault := some i })
    | none => (s.mapTeam e.t.id fun t => t.installTag f.c.toNat (e.reg j f.a).toNat (e.reg j f.b), {})) s)

/-- One lane of TDROP: a slot, or under .tag the slot that holds a tag (R220). -/
def dropTag (byTag : Bool) (n : Nat) (v : Word) (t : Team) : Team :=
  if byTag then
    match (slotsOfTag (t.buffer n) v).find? fun i => t.tag n i == some v with
    | some i => t.setTag n i none
    | none => t
  else t.setTag n v.toNat none

/-- TDROP (R220). -/
def execTdrop (f : Fields) (s : State) : Host.Outcome State Fault Refusal :=
  .next (runCore (.tdrop f) f (inTurn fun e j s =>
    let n := f.c.toNat
    let v := e.reg j f.a
    match tagCheck e.t n with
    | some i => (s, { fault := some i })
    | none =>
      if !modBit f 0 && decide (descSlots (e.t.buffer n) ≤ v.toNat) then
        (s, { fault := some (bufferFault bufferBounds (e.t.buffer n) n .tag v.toNat 0) })
      else (s.mapTeam e.t.id (dropTag (modBit f 0) n v), {})) s)

/-! ## Events -/

/-- Whether an access is an arrival. -/
def Op.isArrival (o : Op) : Bool :=
  match o.access with
  | .barrierArrive _ _ _ _ => true
  | .clusterArrive _ _ => true
  | _ => false

/-- The pending access with a number. -/
def State.op? (s : State) (id : Nat) : Option Op := s.ops.find? fun o => o.id == id

/-- SCRATCHPAD_REQUEST_PERFORM (R193, R194, R207): a bank acts on a request. -/
def scratchEvent (op : Nat) (s : State) : Host.Outcome State Fault Refusal :=
  match s.op? op with
  | none => .next s
  | some o => if o.isScratch && !o.isArrival && s.scratchReady o then .next (s.performScratch o).wakeAll else .next s

/-- BARRIER_ARRIVAL (R223, R224, R227, R228). -/
def arrivalEvent (op : Nat) (s : State) : Host.Outcome State Fault Refusal :=
  match s.op? op with
  | none => .next s
  | some o => if o.isArrival && s.scratchReady o then .next (s.performScratch o) else .next s

end Sys2Proof.Machine
end

