-- ==== Sys2Proof/Machine/Atomics.lean ====
section
/-! DEFINITION. ATOM, ATCAS and RED (R207 to R212, R221), and the ordered reduction by rank. -/

namespace Sys2Proof.Machine

/-! ## Checks -/

/-- The least scope code an address class accepts (R208): 2 team, 3 cluster, 4 die, 6 system. -/
def State.leastScope (s : State) (t : Team) (a : DWord) (r : Reached) : Nat :=
  match r with
  | .memory place _ => if !s.isLocal place || decide (targetOf place = .host) then 6 else 4
  | _ =>
    match s.classOf t a with
    | .window _ _ => 3
    | _ => 2

/-- The scope check of R208 and R221 step 4 on an access that leads somewhere. -/
def scopeChecked (e : Env) (a : DWord) (scope : Nat) (r : Reached) : Reached :=
  let i : FaultInfo := { kind := atomicScope, addr := a }
  if r.stops.isSome || decide (e.s.leastScope e.t a r ≤ scope) then r
  else
    match r with
    | .memory _ page => .failed i page
    | _ => .fault i

/-- The checks of R221, steps 1 to 4, for w bytes with an alignment. -/
def scopedAddress (e : Env) (f : Fields) (j : Nat) (a : DWord) (w align : Nat) (globalOnly : Bool) : Reached :=
  scopeChecked e a f.sc.toNat (reachAddress e j a w align 3 globalOnly)

/-- Where an atomic leads: past its checks, to its home (R221, R37). -/
def reachAtomic (e : Env) (f : Fields) (j : Nat) (a : DWord) (w align : Nat) (globalOnly : Bool) : Reached :=
  homeChecked e a 3 (scopedAddress e f j a w align globalOnly)

/-- The width in bytes of an atomic form (R213). -/
def atomicWidth (f : Fields) : Nat := atomicBytes (wide f)

/-- An operand of an atomic form: register or pair n. -/
def atomicOperand (e : Env) (f : Fields) (j : Nat) (n : BitVec 7) : DWord :=
  if wide f then e.pair j n else (e.reg j n).setWidth 64

/-! ## ATOM, ATCAS, RED -/

/-- The pending access of one lane's atomic at its home or its bank (R207). -/
def State.addAtomic (s : State) (e : Env) (f : Fields) (j : Nat) (r : Reached) (a : DWord) (op control : Nat)
    (swap : DWord) (pend : Option Nat) (dests : List Place) : State :=
  match r with
  | .memory place _ => s.addOp e j pend a (.atomic place op control (wide f) (atomicOperand e f j f.b) swap dests)
  | .scratch spot =>
    s.addOp e j pend a (.localAtomic spot op control (wide f) (atomicOperand e f j f.b) swap dests)
  | _ => s

/-- An atomic that returns the old value (R221). -/
def atomicBody (f : Fields) (op control : Nat) (swap : Env → Nat → DWord) : Body := fun e ls s =>
  let r (j : Nat) : Reached := reachAtomic e f j (e.address f j) (atomicWidth f) (atomicWidth f) false
  let lead := (reaching ls r).head?
  let dests (j : Nat) : List Place := ownPlaces (lead == some j) (e.destPlaces j f.d (wide f))
  (ls.foldl (fun s j =>
      reachEffect e j (r j)
        (s.addAtomic e f j (r j) (e.address f j) op control (swap e j) (some e.pid) (dests j))) s,
   fun j =>
    match (r j).stops with
    | some o => o
    | none => { places := dests j, waits := 1, joint := true })

/-- ATOM (R221). -/
def execAtom (f : Fields) (s : State) : Host.Outcome State Fault Refusal :=
  .next (runCore (.atom f) f (atomicBody f (modBits f 0 4) (modBits f 5 3) fun _ _ => 0) s)

/-- ATCAS (R221): operation 16 compares with B and stores C. -/
def execAtcas (f : Fields) (s : State) : Host.Outcome State Fault Refusal :=
  .next (runCore (.atcas f) f (atomicBody f 16 0 fun e j => atomicOperand e f j f.c) s)

/-- The rank and the count of a rank word (R211). -/
def rankOf (w : Word) : Nat := bitsOf w.toNat 0 12

def countOf (w : Word) : Nat := bitsOf w.toNat 16 12 + 1

/-- The rank check of a ranked access that has passed every other check (R211, R221 step 5). -/
def rankChecked (a : DWord) (w : Word) (r : Reached) : Reached :=
  match r with
  | .memory _ page => if countOf w ≤ rankOf w then .failed { kind := rankInvalid, addr := a } page else r
  | _ => r

/-- Where a lane of RED leads (R221, R37). -/
def reachRed (e : Env) (f : Fields) (j : Nat) (a : DWord) (w : Nat) : Reached :=
  let r := scopedAddress e f j a w w (f.d == 1)
  homeChecked e a 3 (if f.d == 1 then rankChecked a (e.reg j f.c) r else r)

/-- One lane of RED; a ranked one becomes a contribution to its tile (R211, R221). -/
def redLane (f : Fields) (e : Env) (j : Nat) (s : State) : State × LaneOut :=
  let ranked := f.d == 1
  let a := e.address f j
  let r := reachRed e f j a (atomicWidth f)
  let w := e.reg j f.c
  match r.stops, ranked, r with
  | some o, _, _ => (reachEffect e j r s, o)
  | none, true, .memory place page =>
    ((s.addOp e j none a (.ranked e.t.ctx place (modBits f 0 4) (modBits f 5 3) (atomicWidth f) (rankOf w) (countOf w)
        (placed place (leBytes (atomicWidth f) (atomicOperand e f j f.b).toNat)))).reload e.g.id j e.g.core page, {})
  | none, _, _ => (reachEffect e j r (s.addAtomic e f j r a (modBits f 0 4) (modBits f 5 3) 0 none []), {})

/-- RED (R221). -/
def execRed (f : Fields) (s : State) : Host.Outcome State Fault Refusal :=
  .next (runCore (.red f) f (inTurn (redLane f)) s)

/-! ## Ordered reduction -/

/-- The element of a contribution: its width in bytes in memory and in the contribution, and its new value from the old one and
the contributed one. Operations from 32 on are the ranked drains, by element code (R309), whose contributions carry FP32 values:
a value for a 2-byte element has two of its bytes at each byte of the element. -/
def rankWidth (op width : Nat) : Nat :=
  if op < 32 then width else if op = 32 then 4 else 2

def rankCarried (op width : Nat) : Nat := if op < 32 then width else 4

def rankResult (op control width o v : Nat) : Nat :=
  match op with
  | 32 => drainSum f32 control o v
  | 33 => drainSum bf16 control o v
  | 34 => drainSum f16 control o v
  | _ => atomicResult op control (8 * width) o v 0

/-- A list cut into pieces of n, given at least as many steps as pieces. -/
def pieces {α : Type} (steps n : Nat) (l : List α) : List (List α) :=
  match steps, l with
  | 0, _ => []
  | _, [] => []
  | k + 1, l => l.take n :: pieces k n (l.drop n)

/-- One contribution added into M (R211). -/
def State.applyPart (s : State) (op control width : Nat) (bytes : List (Nat × Byte)) : State :=
  let n := rankWidth op width
  (pieces bytes.length (rankCarried op width) bytes).foldl (fun s p =>
    match p.head? with
    | none => s
    | some (place, _) =>
      s.writeNat place n (rankResult op control n (s.readNat place n) (leNat (p.map fun e => e.2)))) s

/-- The contributions of a tile in ascending rank (R211). -/
def RankTile.inOrder (t : RankTile) : List (List (Nat × Byte)) :=
  (List.range t.count).filterMap fun r => (t.parts.find? fun p => p.1 == r).map fun p => p.2

/-- A full tile applied to M in one step, in rank order, and freed (R211). -/
def State.applyTile (s : State) (t : RankTile) : State :=
  (t.inOrder.foldl (fun s b => s.applyPart t.op t.control t.width b) s).wakeAll

/-- The key of a tile (R211) (log 30). -/
def RankTile.hasKey (t : RankTile) (ctx place width : Nat) : Bool := t.ctx == ctx && t.place == place && t.width == width

/-- What becomes of a contribution at its home slice (R211, R212). -/
inductive Contribution where
  | waits
  | mismatch
  | dropped
  | joins (t : RankTile)
  deriving DecidableEq, Repr

/-- The judgement of a contribution against the pending tiles (R211, R212) (log 30). -/
def State.judge (s : State) (ctx place op control width rank count : Nat) (bytes : List (Nat × Byte)) : Contribution :=
  match s.ranks.find? fun t => t.hasKey ctx place width with
  | none =>
    if (sliceOf place).isSome && decide (16 ≤ s.ranks.countP fun t => sliceOf t.place == sliceOf place) then .waits
    else .joins { ctx, place, width, count, op, control, since := s.clk.toNat, parts := [(rank, bytes)] }
  | some t =>
    let mask (bs : List (Nat × Byte)) : List Nat := bs.map fun e => e.1
    if t.count ≠ count ∨ t.op ≠ op ∨ t.control ≠ control ∨ t.parts.any (fun p => mask p.2 != mask bytes) then .mismatch
    else
      match t.parts.find? fun p => p.1 == rank with
      | some p => if p.2 = bytes then .dropped else .mismatch
      | none => .joins { t with parts := t.parts ++ [(rank, bytes)] }

/-- Drains in an add mode are over, as FENCE sees them (R309). -/
def State.endDrains (s : State) (uids : List Nat) : State :=
  { s with ops := s.ops.filter fun o => match o.access with
      | .drainAdd u _ => !uids.contains u
      | _ => true }

/-- Whether ranked contributions of a team's drain are yet to reach their tiles (R309). -/
def State.contributing (s : State) (tid : Nat) : Bool := s.ops.any fun o => o.team == tid && (match o.access with
  | .ranked _ _ _ _ width _ _ _ => width == 256
  | _ => false)

/-- The drain that runs in a team's matrix queue is over, as FENCE sees it, once its last block is performed (R309): its ranked
contributions once their tiles have accepted them (R212). -/
def State.settleAdds (s : State) (tid : Nat) : State :=
  match (s.team? tid).bind fun t => t.matrix.queue.head? with
  | some m => if m.sent && !s.contributing tid then s.endDrains [m.uid] else s
  | none => s

/-- A contribution meets its tile (R211, R212): accepted, discarded with a record, or left waiting; o is the access for the
record. -/
def State.contribute (s : State) (o : Op) (ctx place op control width rank count : Nat) (bytes : List (Nat × Byte)) :
    State :=
  match s.judge ctx place op control width rank count bytes with
  | .waits => s
  | .dropped => ((s.dropOp o.id).settleAdds o.team).wakeAll
  | .mismatch =>
    let s := (s.dropOp o.id).settleAdds o.team
    (match s.team? o.team with
     | some t => s.addRecord (s.opRecord o t { kind := rankMismatch, addr := BitVec.ofNat 64 place })
     | none => s).wakeAll
  | .joins t =>
    let s := (s.dropOp o.id).settleAdds o.team
    let rest := s.ranks.filter fun x => !x.hasKey ctx place width
    if t.parts.length = t.count then ({ s with ranks := rest }).applyTile t
    else ({ s with ranks := rest ++ [{ t with ops := t.ops ++ [o.id] }] }).wakeAll

/-- RANKED_CONTRIBUTION (R211, R212). -/
def rankedEvent (op : Nat) (s : State) : Host.Outcome State Fault Refusal :=
  match s.op? op with
  | none => .next s
  | some o =>
    match o.access with
    | .ranked ctx place code control width rank count bytes =>
      if s.homeReady o then .next (s.contribute o ctx place code control width rank count bytes) else .next s
    | _ => .next s

/-- 100 ms in cycles of the main clock, 2250 to the microsecond (R239). -/
def hundredMs : Nat := 225000000

/-- RANK_STALL_TIMEOUT (R212): a tile pending for 100 ms writes a record, and again every further 100 ms. -/
def execRankStallTimeout (tile : Nat) (s : State) : Host.Outcome State Fault Refusal :=
  match s.ranks[tile]? with
  | none => .next s
  | some t =>
    if s.clk.toNat < t.since + hundredMs then .next s
    else
      let r : ErrorRecord :=
        { ctx := t.ctx, kind := kindWord rankStall 0 false false, addr := BitVec.ofNat 64 t.place, time := s.clk }
      .next ({ s with ranks := s.ranks.set tile { t with since := s.clk.toNat } }.addRecord r)

end Sys2Proof.Machine
end

