-- ==== Sys2Proof/Machine/Sync.lean ====
section
/-! DEFINITION. The barrier instructions of major 0x1D (R222 to R228, R248 to R251), SIGNAL (R254) and ROLE (R246, R255). -/

namespace Sys2Proof.Machine

/-! ## Barrier words -/

/-- The barrier word a form names (R197, R200): buffer N, register B plus the immediate. -/
def barrierOperand (f : Fields) (e : Env) (j : Nat) : Reached := reachBuffer e f.c.toNat (e.offset f j) 8 .barrier

/-- The body of the forms that name a barrier word: what a lane does with the slice offset it reaches. -/
def onBarrier (f : Fields) (act : Env → Nat → Nat → State → State × LaneOut) : Body := inTurn fun e j s =>
  match barrierOperand f e j with
  | .scratch spot => act e j spot.offset s
  | r => (s, r.stops.getD {})

/-- BINIT on a lane (R248). -/
def initLane (f : Fields) (e : Env) (j offset : Nat) (s : State) : State × LaneOut :=
  let n := (e.reg j f.a).toNat
  if n = 0 ∨ 65535 < n then (s, { fault := some { kind := barrierCount } })
  else (s.addOp e j none 0 (.barrierInit { team := e.t.id, offset } n), {})

/-- BINIT (R248). -/
def execBinit (f : Fields) (s : State) : Host.Outcome State Fault Refusal :=
  .next (runCore (.binit f) f (onBarrier f (initLane f)) s)

/-- BARV on a lane (R249): an arrival of weight 1, or of A under .cnt. -/
def arriveLane (f : Fields) (e : Env) (j offset : Nat) (s : State) : State × LaneOut :=
  let weight := if modBit f 0 then (e.reg j f.a).toNat else 1
  (s.addOp e j none 0 (.barrierArrive { team := e.t.id, offset } weight f.c.toNat (e.offset f j).toNat), {})

/-- BARV (R249), after the check of SATA (R160) and the entry of the thread's stores (R224). -/
def execBarv (f : Fields) (s : State) : Host.Outcome State Fault Refusal :=
  .next (runCore (.barv f) f (checkSata (afterStores (onBarrier f (arriveLane f)))) s)

/-- The limit of a timed wait (R226, R250, R376): 64 × 2^j cycles from now. -/
def timerOf (f : Fields) (s : State) : Option Timer :=
  if modBit f 0 then some { pred := f.d.toNat, deadline := s.clk.toNat + 64 * 2 ^ modBits f 1 5 } else none

/-- What a wait reports that is over when it issues (R226). -/
def timedDone (f : Fields) : List Write := if modBit f 0 then setPred f.d.toNat false else []

/-- BWAIT on a lane (R250): the phase is looked at behind the thread's own accesses to the word's banks (R194). -/
def waitLane (f : Fields) (e : Env) (j offset : Nat) (s : State) : State × LaneOut :=
  let parity := (e.reg j f.a).getLsbD 0
  let behind := s.ops.any fun x => x.isOf e.g.id j && x.hits e.t.id offset 8
  let done := ((s.team? e.t.id).map fun t => t.phaseBit offset != parity).getD true && !behind
  (s, if done then { writes := timedDone f, change := Lane.acquire }
      else { flow := .wait (.barrier offset parity) (timerOf f e.s) })

/-- BWAIT (R250), after the check of SATA (R160). -/
def execBwait (f : Fields) (s : State) : Host.Outcome State Fault Refusal :=
  .next (runCore (.bwait f) f (checkSata (onBarrier f (waitLane f))) s)

/-- BTEST on a lane (R250). -/
def testLane (f : Fields) (e : Env) (j offset : Nat) (s : State) : State × LaneOut :=
  let dests : List Place := [.pred f.d.toNat]
  (s.addOp e j (some e.pid) 0 (.barrierTest { team := e.t.id, offset } ((e.reg j f.a).getLsbD 0) dests),
   { places := dests, waits := 1 })

/-- BTEST (R250). -/
def execBtest (f : Fields) (s : State) : Host.Outcome State Fault Refusal :=
  .next (runCore (.btest f) f (onBarrier f (testLane f)) s)

/-! ## Cluster barriers -/

/-- CBARV on a lane: parity and arrival recorded; without .rel the flag is set at once, with it behind the thread's scratchpad
accesses (R228). -/
def clusterArriveLane (f : Fields) (e : Env) (j : Nat) (s : State) : State :=
  let c := f.b.toNat
  let release := modBit f 0
  let parity := e.s.clusterPhase e.t c
  let note (l : Lane) : Lane :=
    let a : Arrival := sget {} l.arrivals c
    { l with arrivals := sput {} l.arrivals c { a with flag := a.flag || !release, parity := parity, since := true, step := s.now } }
  let s := s.mapLane e.g.id j note
  if release then s.addOp e j none 0 (.clusterArrive c true) else s

/-- The body of CBARV; a team whose threads have all arrived arrives (R227). -/
def cbarvBody (f : Fields) : Body := fun e ls s =>
  let s := ls.foldl (fun s j => clusterArriveLane f e j s) s
  (if modBit f 0 then s else (s.clusterArrive e.t.id f.b.toNat).wakeAll, fun _ => {})

/-- CBARV (R251), after the check of SATA (R160) and the entry of the thread's stores (R174). -/
def execCbarv (f : Fields) (s : State) : Host.Outcome State Fault Refusal :=
  .next (runCore (.cbarv f) f (checkSata (afterStores (cbarvBody f))) s)

/-- CBWAIT on a lane (R228): it returns at once where the thread has not arrived since its last CBWAIT. -/
def clusterWaitLane (f : Fields) (e : Env) (j : Nat) : LaneOut :=
  let c := f.b.toNat
  let a : Arrival := sget {} (e.g.lane j).arrivals c
  if !a.since || e.s.clusterPhase e.t c != a.parity then { change := fun l => l.afterCluster c (modBit f 0) }
  else { flow := .wait (.cluster c (modBit f 0)) none }

/-- CBWAIT (R251), after the check of SATA (R160). -/
def execCbwait (f : Fields) (s : State) : Host.Outcome State Fault Refusal :=
  .next (runCore (.cbwait f) f (checkSata (perLane (clusterWaitLane f))) s)

/-! ## SIGNAL -/

/-- One lane of SIGNAL (R254). -/
def signalLane (f : Fields) (e : Env) (j : Nat) (s : State) : State × LaneOut :=
  let a := e.pair j f.a
  let r := reachAtomic e f j a 8 8 true
  let s := reachEffect e j r s
  match r with
  | .memory place _ => (s.addOp e j none a (.signal place (e.pair j f.b)), {})
  | r => (s, r.stops.getD {})

/-- SIGNAL (R254). -/
def execSignal (f : Fields) (s : State) : Host.Outcome State Fault Refusal :=
  .next (runCore (.signal f) f (inTurn (signalLane f)) s)

/-! ## ROLE -/

/-- One microsecond in cycles of the main clock (R239). -/
def microsecond : Nat := 2250

/-- Whether ROLE turns the computer group of an issue into a loader (R246). -/
def Env.reassigns (e : Env) (ls : List Nat) : Bool :=
  let r := e.s.record e.t
  let th := r.ringTh.toNat
  let tau := microsecond * bitsOf th 16 16
  let now := e.s.clk.toNat
  e.g.role == 2 && (e.s.ring e.t).isSome && (e.g.live.all fun j => ls.contains j) &&
    decide (e.t.occupancy < bitsOf th 0 8 ∧ e.t.ringLow + tau ≤ now) &&
    decide ((e.s.teamGroups e.t.id).countP (fun g => g.role == 1) < bitsOf th 8 8) &&
    (match e.t.lastChange with
     | some c => decide (c + tau ≤ now)
     | none => true)

/-- The body of ROLE (R255): code 0 for a team that is not a pipeline team. -/
def roleBody (f : Fields) : Body := fun e ls s =>
  let change := !ls.isEmpty && e.t.pipe && e.reassigns ls
  let code := if !e.t.pipe then 0 else if change then 1 else e.g.role
  let s := if change then (s.mapGroup e.g.id fun g => { g with role := 1 }).mapTeam e.t.id fun t =>
             { t with lastChange := some e.s.clk.toNat } else s
  (s, fun j => { writes := e.setReg j f.d (BitVec.ofNat 32 code) })

/-- ROLE (R255). -/
def execRole (f : Fields) (s : State) : Host.Outcome State Fault Refusal :=
  .next (runCore (.role f) f (roleBody f) s)

end Sys2Proof.Machine
end

