-- ==== Sys2Proof/Machine/Tasks.lean ====
section
/-! DEFINITION. The task instructions of major 0x1D (R233, R234, R237, R252, R253, R256 to R258): ENQ, PUTQ, YIELD, CLAIM and
JDEC, and the step of a join counter. -/

namespace Sys2Proof.Machine

/-! ## ENQ -/

/-- Whether a lane's ember fails R233, for the launch record of its grid. -/
def Env.emberBad (e : Env) (j : Nat) : Bool := Machine.emberBad (e.s.record e.t).roles.length (e.outBytes j)

/-- The partition of the issuing team's context. -/
def Env.partition (e : Env) : Nat := (e.s.ctx e.t.ctx).partition

/-- The sector an ENQ of a lane names (R252): none for a .sector operand that is no sector of the partition in service. -/
def enqTarget (f : Fields) (e : Env) (j : Nat) (s : State) : Option Nat :=
  match modBits f 0 2 with
  | 1 =>
    let n := (e.reg j f.b).toNat
    if (e.s.partitionSectors e.partition).contains n then some n else none
  | 2 => some (s.leastLoaded e.partition (coreSector e.g.core))
  | _ => some (coreSector e.g.core)

/-- An ember taken into a core's empty local dispatch slot (R239). -/
def State.takeSlot (s : State) (ctx core : Nat) (r : Record) (b : List Byte) : State :=
  let p := s.newInstance ctx r b
  { p.2 with ids := p.2.ids + 1,
             embers := p.2.embers ++ [{ id := p.2.ids, ctx, sector := coreSector core, pri := emberPri b, kind := .fresh p.1,
                                        place := .slot core, arrival := s.now, first := s.clk.toNat, born := s.real, keys := emberKeys b }] }

/-- Whether a core's local dispatch slot is empty (R239). -/
def State.slotEmpty (s : State) (core : Nat) : Bool := !s.embers.any fun x => decide (x.place = .slot core)

/-- One lane of ENQ (R252). -/
def enqLane (f : Fields) (e : Env) (j : Nat) (s : State) : State × LaneOut :=
  let b := e.outBytes j
  let r := e.s.record e.t
  if e.emberBad j then (s, { fault := some { kind := emberInvalid } })
  else
    match enqTarget f e j s with
    | none => (s, { fault := some { kind := addressFault } })
    | some n =>
      if s.refused e.t.ctx n then (s, { writes := setPred f.d.toNat true })
      else
        (if modBits f 0 2 = 0 ∧ s.slotEmpty e.g.core then s.takeSlot e.t.ctx e.g.core r b else s.submit e.t.ctx n r b [],
         { writes := setPred f.d.toNat false })

/-- ENQ (R252). -/
def execEnq (f : Fields) (s : State) : Host.Outcome State Fault Refusal :=
  .next (runCore (.enq f) f (inTurn (enqLane f)) s)

/-! ## PUTQ -/

/-- The starts and lengths of the pieces of n bytes at an address, page by page of 4 KiB. -/
def pageSpans (a : DWord) (n : Nat) : List (DWord × Nat) :=
  let first := min n (4096 - a.toNat % 4096)
  let rest := n - first
  (a, first) :: (List.range ((rest + 4095) / 4096)).map fun i =>
    (a + BitVec.ofNat 64 (first + 4096 * i), min 4096 (rest - 4096 * i))

/-- The places of n bytes at a global address that a lane accesses (R168), with the last translation: the first trouble of a page
stands for all. -/
def reachPlaces (e : Env) (j : Nat) (a : DWord) (n access : Nat) : Except Reached (List Nat × Option PageEntry) :=
  (pageSpans a n).foldl (fun r p =>
    match r, reachGeneric e j p.1 4 4 access true with
    | .error x, _ => .error x
    | .ok acc, .memory place page => .ok (acc.1 ++ (List.range p.2).map fun i => place + i, some page)
    | .ok _, x => .error x) (.ok ([], none))

/-- One lane of PUTQ (R253). The unit of the payload is no unit of the team's own, and neither it nor the ember ends with the
team. -/
def putqLane (f : Fields) (e : Env) (j : Nat) (s : State) : State × LaneOut :=
  let n := 4 * (modBits f 0 6 + 1)
  let b := e.outBytes j
  if e.emberBad j then (s, { fault := some { kind := emberInvalid } })
  else
    match reachPlaces e j (e.address f j) n 1, checkSpan e.t f.c.toNat (e.reg j f.b).toNat n 4 .read with
    | .error r, _ => (reachEffect e j r s, r.stops.getD {})
    | .ok _, .error i => (s, { fault := some i })
    | .ok (places, page), .ok offset =>
      let s := match page with
        | some p => s.reload e.g.id j e.g.core p
        | none => s
      let sector := if modBit f 6 then s.leastLoaded e.partition (coreSector e.g.core) else coreSector e.g.core
      if s.refused e.t.ctx sector then (s, { writes := setPred f.d.toNat true })
      else
        let s := s.beforeRead e j offset n
        let slice := ((s.team? e.t.id).map fun t => t.slice).getD []
        let p := s.publishUnit 0 (places.mapIdx fun i place => (place, sget 0 slice (offset + i))) []
        let q := p.2.newInstance e.t.ctx (e.s.record e.t) b
        let o : Op := { id := q.2.ids, gid := 0, lane := j, team := 0, pend := none, va := e.address f j,
                        pc := (e.g.lane j).pc, issued := s.now, since := s.real,
                        access := .putEmber p.1 sector q.1 (places.map viewLineOf).eraseDups }
        ({ q.2 with ops := q.2.ops ++ [o], ids := q.2.ids + 1 }, { writes := setPred f.d.toNat false })

/-- PUTQ (R253). -/
def execPutq (f : Fields) (s : State) : Host.Outcome State Fault Refusal :=
  .next (runCore (.putq f) f (inTurn (putqLane f)) s)

/-- The embers of PUTQs whose units are applied everywhere join their queues (R253). -/
def State.putEmbers (s : State) : State :=
  s.ops.foldl (fun s o =>
    match o.access with
    | .putEmber unit sector inst payload =>
      if !s.unitApplied unit true then s
      else
        match s.instance? inst with
        | none => s.dropOp o.id
        | some i => (s.dropOp o.id).enqueue
            { id := 0, ctx := i.ctx, sector, pri := emberPri i.ember, kind := .fresh inst, place := .chip, arrival := 0,
              first := s.clk.toNat, born := s.real, keys := emberKeys i.ember, payload }
    | _ => s) s

/-! ## YIELD and CLAIM -/

/-- YIELD (R256): a wait for a commit at team scope, after the check of SATA and the entry of the thread's stores. -/
def execYield (f : Fields) (s : State) : Host.Outcome State Fault Refusal :=
  .next (runCore (.yield f) f (checkSata (afterStores (perLane fun _ _ =>
    { flow := .wait (.commit 2 true (modBit f 0)) none }))) s)

/-- The central counter of an instance: value and total, in whole clusters (R240). -/
def Instance.counter (i : Instance) : Nat × Nat := (i.next / (i.cx * i.cy), i.total / (i.cx * i.cy))

/-- The body of CLAIM, once per issue (R257). -/
def claimBody (f : Fields) : Body := fun e ls s =>
  match ls with
  | [] => (s, fun _ => {})
  | low :: _ =>
    let n := (e.reg low f.a).toNat
    if n = 0 ∨ 64 < n then (s, fun _ => { fault := some { kind := illegalInstruction }, together := true })
    else
      let c := ((s.instance? e.t.inst).map fun i => i.counter).getD (0, 0)
      let k := min n (c.2 - c.1)
      (s.mapInstance e.t.inst fun i => { i with next := i.next + k * (i.cx * i.cy) },
       fun j => { writes := e.setReg j f.d (BitVec.ofNat 32 c.1) ++ e.setReg j (f.d + 1) (BitVec.ofNat 32 k) })

/-- CLAIM (R257). -/
def execClaim (f : Fields) (s : State) : Host.Outcome State Fault Refusal :=
  .next (runCore (.claim f) f (claimBody f) s)

/-! ## Join counters -/

/-- One lane of JDEC: the access that decrements at the counter's home (R258). -/
def jdecLane (f : Fields) (e : Env) (j : Nat) (lead : Bool) (s : State) : State × LaneOut :=
  let a := e.address f j
  let r := reachAtomic e f j a 4 8 true
  let dests := ownPlaces lead (e.destPlaces j f.d false)
  let s := reachEffect e j r s
  match r with
  | .memory place _ => (s.addOp e j (some e.pid) a (.joinDec place a (e.reg j f.b) dests), { places := dests, waits := 1 })
  | r => (s, r.stops.getD {})

/-- JDEC (R258); the lowest lane that gets there supplies a scalar destination. -/
def execJdec (f : Fields) (s : State) : Host.Outcome State Fault Refusal :=
  .next (runCore (.jdec f) f (fun e ls s =>
    let low := (reaching ls fun j => reachAtomic e f j (e.address f j) 4 8 true).head?
    inTurn (fun e j s => jdecLane f e j (low == some j) s) e ls s) s)

/-- The place of byte i of the continuation of a join counter (R234): the 64 bytes from J + 8 on, past the end of J's page where the
context's translation puts them. Where that translation fails the spec names no place; the model takes the bytes that follow in the
frame (DESIGN CHOICE, log 34). -/
def State.continuationPlace (s : State) (t : Team) (place : Nat) (va : DWord) (i : Nat) : Nat :=
  let a := va + BitVec.ofNat 64 (8 + i)
  if a.toNat / 4096 = va.toNat / 4096 then place + 8 + i
  else
    match s.translate t.ctx t.core none a 0 with
    | .ok p _ => p
    | _ => place + 8 + i

/-- Byte i of the continuation of a join counter (R234). -/
def State.continuationByte (s : State) (t : Team) (place : Nat) (va : DWord) (i : Nat) : Byte :=
  s.byte (s.continuationPlace t place va i)

/-- Whether a decrement by v has to wait for the homes of the continuation (R37): only the one that brings the counter to 0
reads it. One that is late, by 1 s, no longer waits for another device (R405). -/
def State.continuationWaits (s : State) (t : Team) (place : Nat) (va : DWord) (v : Nat) (late : Bool) : Bool :=
  let c := s.readNat place 4
  let ps := ((List.range 64).map (s.continuationPlace t place va)).filter fun p => !late || !isRemote p
  !decide (c = 0 ∨ v < c) && ps.any fun p => decide (s.home p = .waiting)

/-- The record of a continuation that cannot be read (R19, R37, R405): a failed home, or a device that is not reached (log 34). -/
def State.continuationFault (s : State) (t : Team) (place : Nat) (va : DWord) : FaultInfo :=
  let failed := ((List.range 64).map (s.continuationPlace t place va)).any fun p => decide (s.home p = .failed)
  { kind := accessViolation, addr := va + 8, info := if failed then 0 else 4 }

/-- A join counter at a place decremented by v for a team, in one step (R234): the old value and the state after it; note
makes a record of an event. Where the continuation cannot be read nothing is enqueued, and a record says so (R37, log 34). -/
def State.joinStep (s : State) (t : Team) (place : Nat) (va : DWord) (v : Nat) (note : FaultInfo → ErrorRecord) :
    Nat × State :=
  let c := s.readNat place 4
  if v = 0 then (c, s)
  else if c = 0 then (c, s.addRecord (note { kind := joinUnderflow, addr := va }))
  else
    let s := s.writeNat place 4 (c - v)
    if v < c then (c, s.wakeAll)
    else
      let b := (List.range 64).map (s.continuationByte t place va)
      let r := s.record t
      (c, (if s.homesOf ((List.range 64).map (s.continuationPlace t place va)) ≠ .ready then
             s.addRecord (note (s.continuationFault t place va))
           else if emberBad r.roles.length b then s.addRecord (note { kind := emberInvalid, addr := va + 8 })
           else s.submit t.ctx t.sector r b []).wakeAll)

end Sys2Proof.Machine
end

