-- ==== Sys2Proof/Machine/Place.lean ====
section
/-! DEFINITION. Dispatch (R236 to R245): embers to cores, resumed groups, relaunched teams, grids and cluster members, the
memory rings, the local slots and ageing. -/

namespace Sys2Proof.Machine

/-! ## Whether an ember can go -/

/-- Whether a context takes part in dispatch (R342, R363). -/
def State.contextOpen (s : State) (c : Nat) : Bool := (s.ctx c).live && !(s.ctx c).halted && !(s.ctx c).swapped

/-- The slots of a relaunched team's groups on a core (R20, R238, R346), the quarter in which its group 0 stood tried first. -/
def State.relaunchSlots (s : State) (t : Team) (core : Nat) : Option (List (Nat × Nat)) :=
  let gs := s.teamGroups t.id
  if !s.coreOpen (s.ctx t.ctx).partition core t.cluster || s.memberOn t core ||
      !s.coreRoom core t.sliceSize t.allotment t.tiles then none
  else [(gs.head?.map Group.firstQuarter).getD 0, 0, 1, 2, 3].findSome? fun q =>
    s.placeGroups core q (gs.map fun g => (g.grp, g.budget))

/-- Whether a saved group may go to a core now (R103). -/
def State.resumeSlot (s : State) (g : Group) (t : Team) (core : Nat) : Option (Nat × Nat) :=
  if g.resident || g.ended || t.stopped || t.relaunch || s.preempting core || !s.coreInService core || !s.sectorReady (coreSector core) ||
      (s.sector (coreSector core)).testing then none
  else s.placeGroup core g

/-- Whether what an ember stands for fits on a core (R238). -/
def State.emberFits (s : State) (e : Ember) (core : Nat) : Bool :=
  match e.kind with
  | .fresh iid =>
    match s.instance? iid with
    | none => false
    | some i => decide (i.next < i.total) && s.coreOpen i.partition core none && (s.fitTeam i core).isSome &&
        (s.rectangle i core).isSome
  | .resume gid =>
    match s.group? gid with
    | none => false
    | some g => ((s.team? g.team).bind fun t => s.resumeSlot g t core).isSome
  | .relaunch tid => ((s.team? tid).bind fun t => s.relaunchSlots t core).isSome

/-- Whether an ember's keys can all be reserved, one after another (R243). -/
def State.keysFree (s : State) (e : Ember) : Bool :=
  (e.keys.foldl (fun (r : Bool × List Word) k => (r.1 && s.keyFree e.ctx e.id r.2 k, r.2 ++ [k])) (true, [])).1

/-- The cores of a sector. -/
def sectorCores (n : Nat) : List Nat := (List.range 192).filter fun c => coreSector c == n

/-- The cores on which an ember may be dispatched: that of its local slot, else those of its sector (R236, R239). -/
def Ember.cores (e : Ember) : List Nat :=
  match e.place with
  | .slot c => [c]
  | _ => sectorCores e.sector

/-- Whether an ember can be dispatched on some core (R236, R239). -/
def State.dispatchable (s : State) (e : Ember) : Bool :=
  s.contextOpen e.ctx && s.keysFree e && e.cores.any fun c => s.emberFits e c

/-- The state in which the marks that an aged ember is to replace at its next attempt are its own (R244). -/
def State.marked (s : State) (e : Ember) : State := if s.keysFree e then s else s.placeMarks e

/-- Whether an aged ember has marks to place at its next failed attempt (R244). -/
def State.hasMarks (s : State) (e : Ember) : Bool := e.aged.isSome && !s.keysFree e && s.placeMarks e != s

/-- Whether ember a comes before ember b in the order of their sector's queues (R236): priority, then arrival. -/
def Ember.precedes (a b : Ember) : Bool := decide (b.pri < a.pri ∨ (a.pri = b.pri ∧ a.arrivedBefore b))

/-- Whether the chip places of a sector have room. -/
def State.chipRoom (s : State) (sector : Nat) : Bool :=
  decide ((s.embers.filter fun x => x.sector == sector).countP (fun x => decide (x.place = .chip)) < 256)

/-- Whether two embers share a key. -/
def Ember.shares (a b : Ember) : Bool := a.ctx == b.ctx && a.keys.any b.keys.contains

/-- Whether an ember on chip is the first that its sector's controller can dispatch (R236): one in a ring that is about to move
to a free chip place goes first where it comes first, so does one that its next attempt would rid of the marks of later embers
(R244), and one that shares a key in the local slot of a core, where it has arrived before (R239, R260) (log 34). -/
def State.firstOf (s : State) (e : Ember) : Bool :=
  !s.embers.any fun x => x.sector == e.sector &&
    (match x.place with
     | .slot _ => x.arrivedBefore e && x.shares e && s.dispatchable x
     | .chip => x.precedes e && (s.dispatchable x || (s.marked x).dispatchable x)
     | _ => s.chipRoom e.sector && x.precedes e && s.dispatchable x)

/-! ## Leaving and requeueing -/

/-- The marks of an ember end (R244). -/
def State.dropMarks (s : State) (id : Nat) : State :=
  { s with keys := (s.keys.map fun k => if k.mark = some id then { k with mark := none } else k).filter
                     fun k => k.holder.isSome || k.mark.isSome }

/-- An ember leaves its queue. -/
def State.removeEmber (s : State) (id : Nat) : State :=
  { s with embers := s.embers.filter fun x => !(x.id == id) }.dropMarks id

/-- An ember whose reservation fails goes to the tail of its queue and keeps its arrival time; an aged one marks its keys
(R236, R244). -/
def State.requeue (s : State) (e : Ember) : State :=
  let s := s.placeMarks e
  { s with embers := (s.embers.filter fun x => !(x.id == e.id)) ++ s.embers.filter fun x => x.id == e.id }

/-- An ember of a local slot passes to its sector's queue with its arrival time (R239). -/
def State.passSlot (s : State) (e : Ember) : State :=
  let rest := { s with embers := s.embers.filter fun x => !(x.id == e.id) }
  rest.standEmber { e with place := rest.queuePlace e.ctx e.sector }

/-! ## Starting -/

/-- A thread of a relaunched team (R346): its registers come back as the commit left them, and a thread that waited in the commit
is released past it; a team that never committed starts anew from its ember. -/
def State.relaunchLane (s : State) (g : Group) (t : Team) (core j : Nat) (l : Lane) : Lane :=
  if l.status = .exited then l
  else if t.commits = 0 then { l with stamp := s.clk.toNat }
  else
    let l := s.resumeLane g t core j l
    match l.status with
    | .waiting (.commit _ _ _) => { (l.advance 2) with status := .ready, stamp := s.clk.toNat, fetch := .resume }
    | _ => l

/-- A rolled-back team placed on a core (R346, R177). -/
def State.relaunchTeam (s : State) (t : Team) (core : Nat) (slots named : List (Nat × Nat)) : State :=
  let gs := (s.teamGroups t.id).zip slots
  let bad := if t.commits = 0 then [] else gs.map fun e => (e.1.id, s.resumeFaults e.1 t core)
  let fc := (s.ctx t.ctx).framectl.toNat
  let place (r : State) (e : Group × (Nat × Nat)) : State := r.mapGroup e.1.id fun g =>
    { g.mapLanes (fun j l => s.relaunchLane e.1 t core j l) with
      core := core, quarter := e.2.1, slot := e.2.2, resident := true, age := s.clk.toNat, saveFailed := [], yielding := false,
      spwm := bitsOf fc 0 4, rfwm := bitsOf fc 4 4 }
  let s := gs.foldl place s
  let place := s.freeTeamSlot core
  let s := s.mapTeam t.id fun t => { t with view := [] }
  let view := s.inheritedView core named
  let s := s.mapTeam t.id fun t => { t with core := core, teamSlot := place, sector := coreSector core, relaunch := false, view }
  bad.foldl (fun s e => s.raiseResumed e.1 e.2) ((s.keyDrop t.id).visit (coreSector core) t.ctx)

/-- Whether a relaunch is kept by a device without a usable port (R405). -/
def State.relaunchAway (s : State) (t : Team) (core : Nat) : Bool :=
  decide (t.commits ≠ 0) && (s.teamGroups t.id).any fun g => g.live.any fun j => (s.resumeAway g t core j).isSome

/-- What a relaunch still waits for, if anything. -/
def State.relaunchAbsent (s : State) (t : Team) (core : Nat) : Option (Option DWord) :=
  if t.commits = 0 then none else (s.teamGroups t.id).findSome? fun g => s.resumeAbsent g t core

/-- What an ember stands for starts on a core: a new team or the first member of a cluster, or a relaunched team. The ember
leaves its queue once the indices it stands for are all claimed (R240, R257). An ember with keys yields one team or cluster at a
time (R245), one without as many as the core has room for, up to 64. -/
def State.startEmber (s : State) (e : Ember) (core : Nat) (named : List (Nat × Nat)) : State :=
  match e.kind with
  | .fresh iid =>
    match s.instance? iid with
    | none => s.removeEmber e.id
    | some i =>
      let r := s.pull iid core (if (emberKeys i.ember).isEmpty then 64 else 1) [named] e.payload
      if ((r.instance? iid).map fun i => decide (i.total ≤ i.next)).getD true then r.removeEmber e.id else r
  | .relaunch tid =>
    match s.team? tid with
    | none => s.removeEmber e.id
    | some t =>
      match s.relaunchSlots t core, s.relaunchAbsent t core with
      | some slots, some page =>
        if s.relaunchAway t core then
          s.awayTurn (.team tid) fun s => (s.removeEmber e.id).relaunchTeam t core slots named
        else s.askFor t.ctx page
      | some slots, none => ((s.notAway (.team tid)).removeEmber e.id).relaunchTeam t core slots named
      | none, _ => s
  | .resume gid =>
    match s.group? gid with
    | none => s.removeEmber e.id
    | some g =>
      match s.team? g.team with
      | none => s.removeEmber e.id
      | some t =>
        match s.resumeSlot g t core, s.resumeAbsent g t core with
        | some (q, n), some page =>
          if g.live.any fun j => (s.resumeAway g t core j).isSome then
            s.awayTurn (.resume gid) fun s => (s.removeEmber e.id).resumeGroup g t core q n
          else s.askFor t.ctx page
        | some (q, n), none => ((s.notAway (.resume gid)).removeEmber e.id).resumeGroup g t core q n
        | none, _ => s

/-- Whether an ember stands for nothing any more: its instance's indices are exhausted (R257), or its team or group is gone. -/
def State.spent (s : State) (e : Ember) : Bool :=
  match e.kind with
  | .fresh iid => ((s.instance? iid).map fun i => decide (i.total ≤ i.next)).getD true
  | .resume gid => ((s.group? gid).map fun g => g.ended || g.resident).getD true
  | .relaunch tid => ((s.team? tid).map fun t => decide (t.exit = .gone) || !t.relaunch).getD true

/-- An attempt to dispatch an ember on a core (R236, R243, R244). -/
def State.attempt (s : State) (e : Ember) (core : Nat) (named : List (Nat × Nat)) : State :=
  if s.spent e then s.removeEmber e.id
  else if !s.contextOpen e.ctx then s
  else
    match e.place with
    | .slot c =>
      if c ≠ core then s
      else if s.emberFits e core && s.keysFree e then s.startEmber e core named
      else s.passSlot e
    | .chip =>
      if coreSector core ≠ e.sector ∨ !s.firstOf e ∨ !s.emberFits e core then s
      else if s.keysFree e then s.startEmber e core named
      else s.requeue e
    | _ => s

/-! ## Events -/

/-- The ember with a number. -/
def State.ember? (s : State) (id : Nat) : Option Ember := s.embers.find? fun x => x.id == id

/-- EMBER_DISPATCH (R236, R239, R243, R346): an attempt of a sector controller or of a local slot. -/
def dispatchEvent (ember core : Nat) (inherited : List (Nat × Nat)) (s : State) : Host.Outcome State Fault Refusal :=
  match s.ember? ember with
  | none => .next s
  | some e =>
    match e.kind with
    | .resume _ => .next s
    | _ => .next (s.attempt e core inherited)

/-- GROUP_RESUME (R103): a dispatch slot of a core of the resume ember's sector takes the saved group. -/
def resumeEvent (gid core : Nat) (s : State) : Host.Outcome State Fault Refusal :=
  match s.embers.find? fun x => decide (x.kind = .resume gid) with
  | none => .next s
  | some e => .next (s.attempt e core [])

/-- EMBER_RING_MOVE (R236, R237): the oldest ember of a sector that is not on chip moves to a free place there, or one held by
the controller to its context's ring. -/
def execEmberRingMove (ember : Nat) (s : State) : Host.Outcome State Fault Refusal :=
  match s.ember? ember with
  | none => .next s
  | some e =>
    let place := if s.chipRoom e.sector then .chip else s.ringPlace e.ctx e.sector
    let first := !s.embers.any fun x => x.sector == e.sector && x.outside && x.arrivedBefore e &&
      (decide (place = .chip) || x.ctx == e.ctx && decide (x.place = .held))
    let useful := decide (place = .chip) || (decide (e.place = .held) && decide (place = .ring))
    if e.outside && first && useful then
      .next ({ s with embers := s.embers.filter fun x => !(x.id == e.id) }.standEmber { e with place := place })
    else .next s

/-- LOCAL_SLOT_TIMEOUT (R239): after 2250 cycles the slot's ember passes to the sector's queue. -/
def execLocalSlotTimeout (core : Nat) (s : State) : Host.Outcome State Fault Refusal :=
  match s.embers.find? fun x => decide (x.place = .slot core) with
  | none => .next s
  | some e => if s.clk.toNat < e.first + microsecond then .next s else .next (s.passSlot e)

/-- EMBER_AGED (R244): 20 µs after it was first enqueued, resumed or relaunched an ember is aged. -/
def execEmberAged (ember : Nat) (s : State) : Host.Outcome State Fault Refusal :=
  match s.ember? ember with
  | none => .next s
  | some e =>
    let t := e.born + 20000
    if e.aged.isSome ∨ s.real < t then .next s
    else .next { s with embers := s.embers.map fun x => if x.id = e.id then { x with aged := some t } else x }

/-- The ember of an instance that is still queued. -/
def State.instanceEmber (s : State) (iid : Nat) : Option Ember := s.embers.find? fun x => decide (x.kind = .fresh iid)

/-- Whether a core may pull indices of an instance (R240, R245): a grid, or an ember without keys after its first dispatch
(log 34). -/
def State.pulls (s : State) (i : Instance) (core : Nat) : Bool :=
  s.contextOpen i.ctx && s.coreOpen i.partition core none && (emberKeys i.ember).isEmpty &&
    (i.grid || decide (0 < i.next))

/-- GRID_CLAIM (R240, R177): a core with room for k teams or clusters starts min(k, 64) of an instance, with consecutive
indices; the nth of them with the nth list of inherited lines. -/
def execGridClaim (grid core : Nat) (inherited : List (List (Nat × Nat))) (s : State) : Host.Outcome State Fault Refusal :=
  match s.instance? grid with
  | none => .next s
  | some i =>
    if !s.pulls i core then .next s
    else
      .next (s.pull grid core 64 inherited (((s.instanceEmber grid).map fun e => e.payload).getD []))

/-- CLUSTER_MEMBER_START (R241, R177): a member starts on its own core of the rectangle once that core has room. -/
def execClusterMemberStart (cluster : Nat) (member : Member) (s : State) : Host.Outcome State Fault Refusal :=
  let rank := member.rank
  match s.cluster? cluster with
  | none => .next s
  | some k =>
    match s.instance? k.inst with
    | none => .next s
    | some i =>
      let core := k.coreOf rank
      if k.cx * k.cy ≤ rank || s.membersAt (some cluster) s.ids core || (k.members.any fun e => e.1 == rank) || !s.contextOpen i.ctx ||
          !s.coreOpen i.partition core (some cluster) then .next s
      else
        match s.fitTeam i core with
        | none => .next s
        | some (slots, areas, x) => .next ((s.startTeam i (k.base + rank) rank cluster core slots areas x member.inherited
          k.payload).wakeAll)

end Sys2Proof.Machine
end

