-- ==== Sys2Proof/Machine/Commit.lean ====
section
/-! DEFINITION. The steps of the phase machine (R172): fills and drops, the entry of stores, commits (R185, R256, R344, R345, R348,
R349), units, their arrival and application, the performing of accesses, and the end of teams (R112, R235). -/

namespace Sys2Proof.Machine

/-! ## Units -/

/-- The 64 bytes of a commit log entry (R358). -/
def LogEntry.bytes (e : LogEntry) : List Byte :=
  leBytes 8 e.lseq ++ leBytes 4 e.ctx ++ leBytes 4 e.team ++ leBytes 8 e.time.toNat ++ leBytes 8 e.low.toNat ++
    leBytes 8 e.high.toNat ++ leBytes 4 e.devices.length ++ leBytes 4 0 ++
    ((List.range 3).flatMap fun i => leBytes 4 (e.devices.getD i 0)) ++ leBytes 4 0

/-- A free doubleword (log 37): an address of a unit that writes nothing. -/
def freeDouble (now : Nat) : DWord := Config.freeWord now 1 ++ Config.freeWord now 0

/-- The entry of a sector's commit log for a unit (R358); one that writes nothing has no lowest and no highest address, which are
free values (log 37). -/
def unitEntry (s : State) (t : Team) (bs : List (Nat × Byte)) (lseq : Nat) : LogEntry :=
  let addrs := bs.map fun e => e.1 % 2 ^ 64
  { lseq, ctx := t.ctx, team := t.index, time := s.clk,
    low := if bs.isEmpty then freeDouble s.now else BitVec.ofNat 64 (addrs.foldl min (addrs.headD 0)),
    high := if bs.isEmpty then freeDouble (s.now + 1) else BitVec.ofNat 64 (addrs.foldl max 0),
    devices := ((s.unitDevices bs).filter fun d => d != 0).map fun d => d - 1 }

/-- The commit log of the sector in which a team was dispatched takes one more entry, of the last 4096 (R358). -/
def State.logUnit (s : State) (t : Team) (bs : List (Nat × Byte)) : State :=
  s.mapSector t.sector fun c =>
    let log := c.log ++ [unitEntry s t bs c.lseq]
    { c with lseq := c.lseq + 1, log := log.drop (log.length - 4096) }

/-- A unit of a team published and logged (R172, R358). -/
def State.publishTeam (s : State) (t : Team) (bs : List (Nat × Byte)) (lines : List Nat) : Nat × State :=
  (s.logUnit t bs).publishUnit t.id bs lines

/-- The lines of a view that bytes touch, as units of a queue's commands up to a number have touched them (R276). -/
def touchedLines (number : Nat) (bs : List (Nat × Byte)) : List (Nat × Nat) :=
  ((bs.map fun e => viewLineOf e.1).eraseDups).map fun l => (number, l)

/-- The unpublished shadow lines of an engine queue, or of the matrix queue as queue 5, become one unit (R172 Publish, R274,
R294); number is the last command whose results the unit holds. -/
def State.publishQueue (s : State) (tid q number : Nat) : Nat × State :=
  match s.team? tid with
  | none => (0, s)
  | some t =>
    let shadow := if q = 5 then t.matrix.shadow else (t.engine q).shadow
    let lines := if q = 5 then t.matrix.lines else (t.engine q).lines
    let p := if shadow.isEmpty then s.publishUnit t.id [] [] else s.publishTeam t (unitBytes shadow) lines
    let mark := touchedLines number shadow
    (p.1, p.2.mapTeam tid fun t =>
      if q = 5 then { t with matrix := { t.matrix with shadow := [], lines := [], touched := t.matrix.touched ++ mark } }
      else t.mapEngine q fun e =>
        { e with shadow := [], lines := [], touched := e.touched ++ mark, queue := e.queue.map fun c => { c with kept := [] } })

/-- The number up to which a queue's commands have ended. -/
def Team.ended (t : Team) (q : Nat) : Nat := if q = 5 then t.matrix.seqc else (t.engine q).seqc

/-- The unit of a team's store buffer (R172 Commit): the buffer is emptied and every line of the view dropped. -/
def State.commitBuffer (s : State) (tid : Nat) : Nat × State :=
  match s.team? tid with
  | none => (0, s)
  | some t =>
    let p := s.publishTeam t (unitBytes t.store) t.overflow
    (p.1, p.2.mapTeam tid fun t => { t with store := [], overflow := [], view := [], commits := t.commits + 1 })

/-- The units of a commit: an implicit XPUB of each queue, then the commit's own unit (R274, R294). -/
def State.commitUnits (s : State) (tid : Nat) : List Nat × State :=
  let r := (List.range 6).foldl (fun (r : List Nat × State) q =>
    let p := r.2.publishQueue tid q (((r.2.team? tid).map fun t => t.ended q).getD 0)
    (r.1 ++ [p.1], p.2)) ([], s)
  let p := r.2.commitBuffer tid
  (r.1 ++ [p.1], p.2)

/-! ## When a commit takes place -/

/-- The scope, YIELD and .cond of a thread that waits in a commit. -/
def Lane.commitWait (l : Lane) : Option (Nat × Bool × Bool) :=
  match l.status with
  | .waiting (.commit s y c) => some (s, y, c)
  | _ => none

/-- The unexited threads of a team. -/
def State.teamLanes (s : State) (tid : Nat) : List Lane :=
  (s.teamGroups tid).flatMap fun g => g.live.map fun j => g.lane j

/-- Whether every queue of a team is empty (R275, R294). -/
def Team.queuesEmpty (t : Team) : Bool :=
  ((List.range 5).all fun q => (t.engine q).queue.isEmpty) && t.matrix.queue.isEmpty

/-- Whether accesses of a team's threads to scratchpads, arrivals among them, are yet to be performed. -/
def State.scratchPending (s : State) (tid : Nat) : Bool := s.ops.any fun o => o.team == tid && o.isScratch

/-- Whether a team stands ready for a commit (R185, R275, R349): an exit commit comes behind the team's accesses to its slice,
which its exit frees (log 24). -/
def State.commitReady (s : State) (t : Team) : Bool :=
  match t.exit with
  | .running =>
    let ls := s.teamLanes t.id
    !t.relaunch && !t.stopped && t.queuesEmpty && !ls.isEmpty && ls.all fun l => l.commitWait.isSome
  | .ending => !t.relaunch && t.queuesEmpty && !s.scratchPending t.id
  | _ => true

/-- The members whose commits are one step (R348): every member of a cluster of two or more teams with RST = 1, else the team
itself; none where the commit cannot take place now. -/
def State.commitSet (s : State) (t : Team) : Option (List Team) :=
  match t.cluster.bind s.cluster? with
  | none => if s.commitReady t then some [t] else none
  | some k =>
    if k.cx * k.cy ≤ 1 ∨ !t.rst then if s.commitReady t then some [t] else none
    else
      let ms := k.members.filterMap fun e => s.team? e.2
      if k.members.length = k.cx * k.cy ∧ ms.all s.commitReady then
        some (ms.filter fun m => decide (m.exit = .running ∨ m.exit = .ending))
      else none

/-- The widest scope among the threads that wait (R185); an exit commits at device scope (R112). -/
def State.commitScope (s : State) (t : Team) : Nat :=
  if t.exit = .running then ((s.teamLanes t.id).filterMap fun l => l.commitWait.map fun w => w.1).foldl max 2 else 5

/-! ## The phase record -/

/-- What reaching the arenas and save areas of a restartable team gives (R103, R344, R345): something to wait for, or the lanes
whose pages are bad with the address; a bad save area concerns every lane of its group (log 35). -/
def State.commitReach (s : State) (t : Team) : Option (Option DWord) × List (Nat × Nat × DWord) :=
  let parts := (s.teamGroups t.id).flatMap fun g =>
    (g.live.map fun j => (g.id, [j], s.reach t.ctx g.core (g.saveAddrs t.rst j) 1)) ++
      [(g.id, g.live, s.reach t.ctx g.core (piecePages g.saveArea (g.phasePieces t (s.makePhase t))) 1)]
  let bad := parts.flatMap fun e => match e.2.2 with
    | .denied va => e.2.1.map fun j => (e.1, j, va)
    | _ => []
  (parts.findSome? fun e => e.2.2.blocked,
   bad.foldl (fun acc x => if acc.any fun y => y.1 == x.1 && y.2.1 == x.2.1 then acc else acc ++ [x]) [])

/-- The lanes of a restartable team whose arena or save area lies on a device without a usable port, with the addresses (R405). -/
def State.commitAway (s : State) (t : Team) : List (Nat × Nat × DWord) :=
  (s.teamGroups t.id).flatMap fun g =>
    match s.awayOf t.ctx g.core (piecePages g.saveArea (g.phasePieces t (s.makePhase t))) 1 with
    | some va => g.live.map fun j => (g.id, j, va)
    | none => g.live.filterMap fun j => (s.awayOf t.ctx g.core (g.saveAddrs t.rst j) 1).map fun va => (g.id, j, va)

/-- The phase record of a team with RST = 1 written at a commit (R344, R345); the areas of groups that have ended since the last
one go back to the pool (R112). -/
def State.recordPhase (s : State) (tid : Nat) : State :=
  match s.team? tid with
  | none => s
  | some t =>
    if !t.rst then s
    else
      let s := (s.teamGroups tid).foldl (fun s g => s.saveRegisters g t) s
      let s := s.mapGroups fun g => if g.team = tid then { g with frozen := g.current } else g
      let s := s.mapTeam tid fun t => { t with phase := some (s.makePhase t) }
      let s := match s.team? tid with
        | some t => s.writePhase t
        | none => s
      (s.groups.filter fun g => g.team == tid && g.ended).foldl (fun s g => s.freeAreas t g) s

/-! ## The release -/

/-- Whether YIELD gives up a group at a commit (R256): every unexited thread waits in YIELD; under .cond only where an ember of
equal or higher priority waits in its sector. -/
def State.yields (s : State) (t : Team) (g : Group) : Bool :=
  let ws := g.live.filterMap fun j => (g.lane j).commitWait
  let cond := ws.any fun w => w.2.2
  !ws.isEmpty && decide (ws.length = g.live.length) && (ws.all fun w => w.2.1) &&
    (!cond || (s.sectorEmbers (coreSector g.core)).any fun e => decide (t.pri ≤ e.pri))

/-- The threads of a team that wait in a commit released (R185): at once at team scope, else once the units are applied. -/
def State.releaseTeam (s : State) (t : Team) (scope : Nat) (units : List Nat) : State :=
  let free (l : Lane) : Lane :=
    match l.commitWait with
    | none => l
    | some _ =>
      if scope ≤ 2 then { (l.advance 2) with status := .ready, stamp := s.clk.toNat }
      else { l with status := .waiting (.applied units (scope == 6)) }
  s.mapGroups fun g => if g.team = t.id then { g.mapLanes (fun _ l => free l) with yielding := g.yielding || s.yields t g } else g

/-- The commit of one team, in a step with those of its cluster (R172, R185, R344, R256). -/
def State.commitOne (s : State) (t : Team) : State :=
  let scope := s.commitScope t
  let r := s.commitUnits t.id
  let s := r.2.recordPhase t.id
  if t.exit = .running then s.releaseTeam t scope r.1
  else s.mapTeam t.id fun t => { t with exit := .committed r.1 }

/-- A commit where it can take place: arena pages that are not there are asked for, a bad one raises ArenaFault on its lanes
(R103, R345), and one that cannot be reached for 1 s AccessViolation (R405). -/
def State.tryCommit (s : State) (t : Team) : State :=
  match s.commitSet t with
  | none => s
  | some ms =>
    let reach := (ms.filter fun m => m.rst).map fun m => (m.ctx, s.commitReach m)
    match reach.findSome? fun r => r.2.1.map fun page => (r.1, page) with
    | some (c, page) =>
      match (ms.filter fun m => m.rst).flatMap s.commitAway with
      | [] => s.askFor c page
      | away => (s.askFor c page).awayTurn (.team t.id) fun s =>
          away.foldl (fun s e => s.raiseFault e.1 [e.2.1] (unreachable e.2.2) 2) s
    | none =>
      let s := s.notAway (.team t.id)
      match reach.flatMap fun r => r.2.2 with
      | [] => (ms.foldl (fun s m => s.commitOne m) s).wakeAll
      | bad => bad.foldl (fun s e => s.raiseFault e.1 [e.2.1] { kind := arenaFault, addr := e.2.2 } 2) s

/-! ## Events: views, stores, commits -/

/-- FILL (R172): a line that a team's view lacks takes M's value, once its home is ready (R37), while the core's view cache has room
(R13). -/
def execFill (team line : Nat) (s : State) : Host.Outcome State Fault Refusal :=
  match s.team? team with
  | none => .next s
  | some t =>
    if s.home (128 * line) = .ready ∧ (s.coreLines t.core).length < viewCapacity then .next (s.fillLine team line) else .next s

/-- DROP (R172): a line of a team's view is dropped. -/
def execDrop (team line : Nat) (s : State) : Host.Outcome State Fault Refusal := .next (s.dropLine team line)

/-- STORE_ENTER (R172, R174). -/
def execStoreEnter (op : Nat) (s : State) : Host.Outcome State Fault Refusal :=
  match s.op? op with
  | none => .next s
  | some o => if s.storeReady o && o.waiting.isNone then .next (s.enterStore o false).wakeAll else .next s

/-- Whether another store waits longer for a line of the same slice (R181). -/
def State.waitsLonger (s : State) (o : Op) (b : Nat) : Bool :=
  s.ops.any fun x => x.id != o.id && x.waiting.isSome &&
    decide (x.waiting.getD 0 < o.waiting.getD 0 ∨ (x.waiting = o.waiting ∧ x.id < o.id)) &&
    (match s.wantedLine x with
     | some c => sliceOf (256 * c) == sliceOf (256 * b)
     | none => false)

/-- SHADOW_LINE_GRANT (R181): the store that has waited longest takes a line its slice has free. -/
def execShadowLineGrant (op : Nat) (s : State) : Host.Outcome State Fault Refusal :=
  match s.op? op with
  | none => .next s
  | some o =>
    if o.waiting.isNone || !s.storeReady o then .next s
    else
      match s.wantedLine o with
      | none => .next (s.enterStore o true).wakeAll
      | some b =>
        if s.sliceFull b || s.waitsLonger o b then .next s
        else .next (s.enterStore o true).wakeAll

/-- COMMIT (R172, R185, R256, R348). -/
def execCommit (team : Nat) (s : State) : Host.Outcome State Fault Refusal :=
  match s.team? team with
  | none => .next s
  | some t => if t.exit = .running then .next (s.tryCommit t) else .next s

/-- PUBLISH (R172, R272 step 4, R310): the shadow lines of a command or drain with APUB that has done everything before it become
a unit, together with those its queue still holds. -/
def execPublish (team queue : Nat) (s : State) : Host.Outcome State Fault Refusal :=
  match s.team? team with
  | none => .next s
  | some t =>
    if queue = 5 then
      match t.matrix.queue with
      | m :: _ =>
        if m.publishing ≠ some 0 then .next s
        else
          let s := s.mapTeam team fun t => { t with matrix := t.matrix.takeShadow m }
          let p := s.publishQueue team 5 m.number
          .next (p.2.mapTeam team fun t => { t with matrix := { t.matrix with queue := t.matrix.queue.mapIdx fun i x =>
            if i = 0 then { x with shadow := [], publishing := some p.1 } else x } })
      | [] => .next s
    else
      match (t.engine queue).queue with
      | c :: _ =>
        if c.publishing ≠ some 0 then .next s
        else
          let s := s.mapTeam team fun t => t.mapEngine queue fun e => e.takeShadow c
          let p := s.publishQueue team queue c.number
          .next (p.2.mapTeam team fun t => t.mapEngine queue fun e => { e with queue := e.queue.mapIdx fun i x =>
            if i = 0 then { x with shadow := [], publishing := some p.1 } else x })
      | [] => .next s

/-! ## Events: units -/

/-- A part whose device has no usable port (R405): it is over after 1 s, with a record of its team that carries the lowest of its
addresses. -/
def State.partAway (s : State) (i : Nat) (p : Part) : State :=
  match p.away with
  | none => { s with sent := s.sent.set i { p with away := some s.real } }
  | some since =>
    if !s.overdue since then s
    else
      let s := { s with sent := s.sent.eraseIdx i }
      let s := match s.team? p.team, p.bytes with
        | some t, e :: r => s.addRecord (s.eventRecord t
             (unreachable (BitVec.ofNat 64 (r.foldl (fun (a : Nat) (x : Nat × Byte) => min a x.1) e.1))) false)
        | _, _ => s
      s.wakeAll

/-- PART_ARRIVE (R172, R404): a part sent reaches its device, or a part of another device's unit, for memory of this one, reaches
it (log 44). -/
def execPartArrive (source : ArrivalSource) (s : State) : Host.Outcome State Fault Refusal :=
  match source with
  | .sent i =>
    match s.sent[i]? with
    | none => .next s
    | some p =>
      if (s.routePorts (p.device - 1)).isEmpty then .next (s.partAway i p)
      else .next { s with sent := s.sent.eraseIdx i,
                          remoteQueues := sput [] s.remoteQueues p.device (sget [] s.remoteQueues p.device ++ [{ p with away := none }]) }
  | .foreign bytes =>
    if !s.hub.dnv ∨ bytes.any fun e => decide (targetOf e.1 = .unused) then .next s
    else .next { s with ids := s.ids + 1, queue := s.queue ++ [{ unit := s.ids, team := 0, bytes := bytes, device := 0,
                                                                 queued := s.clk.toNat }] }

/-- What follows the application of a part: waits end, embers of payloads join their queues, publications are done with. -/
def State.afterApply (s : State) : State :=
  let s := { s with ops := s.ops.filter fun o => match o.access with
    | .published u everywhere => !s.unitApplied u everywhere
    | _ => true }
  s.putEmbers.wakeAll

/-- Bytes of a part whose home has failed are not written (R37, R19): the record of the team carries the lowest of their addresses
(log 24). -/
def State.lostBytes (s : State) (p : Part) (lost : List (Nat × Byte)) : State :=
  match s.team? p.team, lost with
  | some t, e :: r =>
    let place := r.foldl (fun a x => min a x.1) e.1
    s.addRecord (s.eventRecord t (addressed accessViolation (BitVec.ofNat 64 (place % 2 ^ 64)) 1) false)
  | _, _ => s

/-- A part written into M, but for the bytes whose home has failed. -/
def State.writePart (s : State) (p : Part) : State :=
  let gone (e : Nat × Byte) : Bool := decide (s.home e.1 = .failed)
  (s.lostBytes p (p.bytes.filter gone)).writeBytes (p.bytes.filter fun e => !gone e)

/-- APPLY (R172): the head part of a device's publish queue is written into M in one step; 0 is this device, another one its
number + 1. -/
def applyEvent (device : Nat) (s : State) : Host.Outcome State Fault Refusal :=
  if device = 0 then
    match s.queue with
    | [] => .next s
    | p :: r =>
      if p.bytes.any fun e => decide (s.home e.1 = .waiting) then .next s
      else .next ({ s with queue := r }.writePart p).afterApply
  else
    match sget [] s.remoteQueues device with
    | [] => .next s
    | p :: r => .next ({ s with remoteQueues := sput [] s.remoteQueues device r }.writeBytes p.bytes).afterApply

/-! ## Events: accesses -/

/-- XCRC takes effect in its queue's order (R285). -/
def State.performCrc (s : State) (o : Op) (queue : Nat) (setTo : Option Word) (final : Bool) (dests : List Place) : State :=
  match s.team? o.team with
  | none => s
  | some t =>
    let v := (t.engine queue).crcr
    let s := s.deliver o (placeWords dests [if final then v ^^^ 0xFFFFFFFF#32 else v])
    match setTo with
    | none => s
    | some w => s.mapTeam t.id fun t => t.mapEngine queue fun e => { e with crcr := w }

/-- The slices AINV drops from every accord cache of the device (R320): one in use stays until its operation ends (R304), but
serves no other. -/
def State.dropAccords (s : State) (ctx mode : Nat) (tbase : DWord) (accord : Nat) : State :=
  let goes (x : Slice) : Bool :=
    x.ctx == ctx && (mode == 0 || (x.tbase == tbase && (mode == 1 || x.accord == accord)))
  { s with cores := s.cores.filterMap fun e =>
      let kept (x : Slice) : Option Slice :=
        if !goes x then some x else if s.sliceInUse e.1 x then some { x with dropped := true } else none
      let c := { e.2 with accords := e.2.accords.filterMap kept }
      if c = {} then none else some (e.1, c) }

/-- Whether an access or an answer of PERFORM can be given now: its home and the earlier accesses to the place for an access
(R175, R207), the accesses it waits for (R374), its queue (R285), or the operations that use the slices (R320). -/
def State.performable (s : State) (o : Op) : Bool :=
  match o.access with
  | .generation ids _ _ => !(s.ops.any fun x => ids.contains x.id) && !s.ranks.any fun t => t.ops.any ids.contains
  | .crcRead queue after _ _ _ =>
    ((s.team? o.team).map fun t => decide (after ≤ (t.engine queue).seqc)).getD true &&
      !s.ops.any (fun x => decide (x.id < o.id) && x.team == o.team && (match x.access with
        | .crcRead q _ _ _ _ => q == queue
        | _ => false))
  | .accordDrop _ _ _ uids => !((s.team? o.team).map fun t => t.matrix.queue.any fun m => uids.contains m.uid).getD false
  | .ranked _ _ _ _ _ _ _ _ => false
  | .joinDec place va amount _ =>
    s.homeReady o && ((s.team? o.team).map fun t => !s.continuationWaits t place va amount.toNat (s.overdue o.since)).getD true
  | _ => s.homeReady o

/-- An access acts on M at its home, or an answer that waited for others comes (R172, R173, R234, R320, R374). -/
def State.performAccess (s : State) (o : Op) : State :=
  match o.access with
  | .joinDec place va amount dests =>
    match s.team? o.team with
    | some t =>
      let r := (s.dropOp o.id).joinStep t place va amount.toNat (s.opRecord o t)
      r.2.deliver o (placeWords dests [BitVec.ofNat 32 r.1])
    | none => s.dropOp o.id
  | .generation _ value dests => (s.dropOp o.id).deliver o (placeWords dests [value])
  | .crcRead queue _ setTo final dests => (s.dropOp o.id).performCrc o queue setTo final dests
  | .accordDrop mode tbase accord _ =>
    let ctx := ((s.team? o.team).map fun t => t.ctx).getD 0
    ((s.dropOp o.id).dropAccords ctx mode tbase accord).wakeAll
  | _ => s.performHome o

/-- PERFORM (R172, R173, R234, R320, R374). -/
def performEvent (op : Nat) (s : State) : Host.Outcome State Fault Refusal :=
  match s.op? op with
  | none => .next s
  | some o => if s.performable o then .next (s.performAccess o) else .next s

/-- Results of an access that ended in error: the spec gives them no value (log 8). -/
def State.deliverFree (s : State) (o : Op) : State :=
  match o.pend with
  | none => s
  | some pid =>
    let ps := (((s.lane o.gid o.lane).pend.filter fun q => q.id == pid).flatMap fun q => q.places)
    s.deliver o (ps.mapIdx fun i p => { place := p, value := Config.freeWord s.now i })

/-- UNREACHABLE_TIMEOUT (R405): a request to a device without a usable port completes after 1 s with an error: AccessViolation on
the lane that waits at its instruction, or a record for an access already on its way (log 44). -/
def execUnreachableTimeout (op : Nat) (s : State) : Host.Outcome State Fault Refusal :=
  match s.op? op with
  | none => .next s
  | some o =>
    let i := unreachable o.va
    let late := decide (o.since + oneSecond ≤ s.real)
    match o.access with
    | .blocked place =>
      if !late || decide (s.home place ≠ .waiting) then .next s
      else
        let l := s.lane o.gid o.lane
        .next ((s.dropOp o.id).raiseEntry o.gid [o.lane] l.fetch i l.words)
    | _ =>
      match o.homeSpan, s.team? o.team with
      | some (place, _), some t =>
        if !late || !isRemote place || decide (s.home place ≠ .waiting) then .next s
        else .next (((s.dropOp o.id).deliverFree o).addRecord (s.opRecord o t i))
      | _, _ => .next s

/-! ## Events: the end of a team -/

/-- Whether the other members of a team's cluster have all started and made their exit commits. -/
def State.othersDone (s : State) (t : Team) : Bool :=
  match t.cluster.bind s.cluster? with
  | none => true
  | some k => decide (k.members.length = k.cx * k.cy) && k.members.all fun e =>
      e.2 == t.id || ((s.team? e.2).map fun m => decide (m.exit ≠ .running ∧ m.exit ≠ .ending)).getD true

/-- Whether keys are held for a team or its cluster. -/
def State.keysHeld (s : State) (t : Team) : Bool := s.keys.any fun k => k.holder.isSome && k.holder == t.cluster

/-- A team is gone: its areas go back to the pool, and members that waited for it go on. -/
def State.finishTeam (s : State) (t : Team) : State :=
  let s := (s.groups.filter fun g => g.team == t.id).foldl (fun s g => s.freeAreas t g) s
  (s.mapTeam t.id fun t => { t with exit := .gone, phase := none }).wakeAll

/-- TEAM_EXIT (R112, R235, R245, R349): the exit commit, then the release of the keys, then the decrement of the join counter. -/
def execTeamExit (team : Nat) (s : State) : Host.Outcome State Fault Refusal :=
  match s.team? team with
  | none => .next s
  | some t =>
    match t.exit with
    | .ending => .next (s.tryCommit t)
    | .committed us =>
      if !us.all fun u => s.unitApplied u (s.keysHeld t) then .next s
      else if s.othersDone t && s.keysHeld t then .next s
      else .next (s.mapTeam team fun t => { t with exit := .released })
    | .released => if t.join = 0 then .next (s.finishTeam t) else .next s
    | _ => .next s

/-- Whether every unit of a team, those of its earlier commits too, is applied on every device it touches (R45, R172 Release). -/
def State.unitsApplied (s : State) (tid : Nat) : Bool := !s.parts.any fun p => p.team == tid

/-- Whether a key's holder has made its last commit and every unit of it is applied everywhere (R45, R172 Release, R245). -/
def State.releasable (s : State) (cid : Nat) : Bool :=
  match s.cluster? cid with
  | none => true
  | some k => decide (k.members.length = k.cx * k.cy) && k.members.all fun e =>
      match s.team? e.2 with
      | none => true
      | some m =>
        match m.exit with
        | .running => false
        | .ending => false
        | _ => s.unitsApplied m.id

/-- KEY_RELEASE (R172 Release, R235, R245): the keys of the holder of a key are released together, since its one commit enables
them all (log 34); their release time is now. -/
def execKeyRelease (ctx : Nat) (key : Word) (s : State) : Host.Outcome State Fault Refusal :=
  match s.keyEntry ctx key with
  | none => .next s
  | some e =>
    match e.holder with
    | none => .next s
    | some cid =>
      if !s.releasable cid then .next s
      else .next (s.releaseKeys cid)

/-- A decrement of a team's exit that waits for the homes of the continuation: the real time since when is kept (R37, R405). -/
def State.joinDelayed (s : State) (t : Team) : State :=
  s.mapTeam t.id fun t => { t with joinAway := t.joinAway.orElse fun _ => some s.real }

/-- The decrement of a join counter whose home cannot be reached (R405): after 1 s without a usable port it is over, with a
record. -/
def State.joinAway (s : State) (t : Team) (place : Nat) : State :=
  match t.joinAway with
  | none => if isRemote place then s.mapTeam t.id fun t => { t with joinAway := some s.real } else s
  | some since =>
    if s.overdue since then (s.addRecord (s.eventRecord t (unreachable t.join) false)).finishTeam t else s

/-- JOIN_DECREMENT (R234, R235): the third step of a team's exit. A JOIN that fails the checks of JDEC writes a record instead; a
page that is not present is waited for. -/
def execJoinDecrement (team : Nat) (s : State) : Host.Outcome State Fault Refusal :=
  match s.team? team with
  | none => .next s
  | some t =>
    if t.exit ≠ .released ∨ t.join = 0 then .next s
    else
      let bad (kind : Nat) : Host.Outcome State Fault Refusal :=
        .next ((s.addRecord (s.eventRecord t (addressed kind t.join 3) false)).finishTeam t)
      if s.classOf t t.join ≠ .global then bad addressFault
      else if t.join.toNat % 8 ≠ 0 then bad misaligned
      else
        match s.translate t.ctx t.core none t.join 1 with
        | .denied => bad accessViolation
        | .absent => .next (s.requestMove t.ctx t.join)
        | .waits _ => .next s
        | .ok place _ =>
          match s.home place with
          | .waiting => .next (s.joinAway t place)
          | .failed => bad accessViolation
          | .ready =>
            if s.continuationWaits t place t.join 1 ((t.joinAway.map s.overdue).getD false) then
              .next (s.joinDelayed t)
            else .next ((s.joinStep t place t.join 1 fun i => s.eventRecord t i false).2.finishTeam t)

end Sys2Proof.Machine
end

