-- ==== Sys2Proof/Machine/Channel.lean ====
section
/-! DEFINITION. What the engines share (R199 to R202, R265 to R276): their reads and writes of generic addresses, the buffers they
hold, and the stop of a queue. Queues 0 to 4 are the engine queues, queue 5 is the matrix queue. -/

namespace Sys2Proof.Machine

/-- Why an engine cannot go on: it waits, for a page or for a home or a member, or its queue stops with a status and a
record. -/
inductive Trouble where
  | delay (va : Option DWord)
  | away (place : Nat) (a : DWord)
  | stop (status : Nat) (record : Option FaultInfo)
  deriving DecidableEq, Repr

/-! ## Buffers -/

/-- The slice that a generic address names, and its offset there: the team's own or a started member's. -/
def State.sliceOf (s : State) (t : Team) (a : DWord) : Option (Team × Nat) :=
  match s.classOf t a with
  | .scratchpad o => some (((s.team? t.id).getD t), o)
  | .window rank o => ((s.member t rank).bind s.team?).map fun m => (m, o)
  | _ => none

/-- Whether a generic address names a member that has not started (R206). -/
def State.unstarted (s : State) (t : Team) (a : DWord) : Bool :=
  match s.classOf t a with
  | .window rank _ => ((s.member t rank).bind s.team?).isNone
  | _ => false

/-- The declared buffers of a team that overlap n bytes at a slice offset. -/
def Team.buffersIn (t : Team) (offset n : Nat) : List Nat :=
  (List.range 32).filter fun b =>
    let d := t.buffer b
    descV d && decide (descBase d < offset + n ∧ offset < descBase d + descSize d)

/-- A range of bytes an engine command reads or writes: generic address, length, kind of access, alignment. -/
structure Extent where
  address : DWord
  length : Nat
  access : BufferAccess
  align : Nat := 1
  deriving DecidableEq, Repr

/-- The buffers an extent touches, with their teams. -/
def State.extentBuffers (s : State) (t : Team) (x : Extent) : List (Team × Nat) :=
  match s.sliceOf t x.address with
  | some (m, o) => (m.buffersIn o x.length).map fun b => (m, b)
  | none => []

/-- The first buffer of an extent in a state that R200 forbids (R201), as a fault. -/
def State.extentFault (s : State) (t : Team) (x : Extent) : Option FaultInfo :=
  match s.sliceOf t x.address with
  | none => none
  | some (m, o) => (m.buffersIn o x.length).findSome? fun b =>
      let d := m.buffer b
      if legal d x.access (o - descBase d) x.length then none
      else some (bufferFault bufferState d b x.access ((o - descBase d : Nat) : Int) x.address)

/-- The first fault of an extent under R197 and R200: of the declared buffer that holds its first byte, else as in a plain one. -/
def State.lineFault (s : State) (t : Team) (x : Extent) : Option FaultInfo :=
  match s.sliceOf t x.address with
  | none => none
  | some (m, o) =>
    match m.bufferAt o with
    | none => if o % x.align ≠ 0 then some (addressed misaligned x.address x.access.info.toNat) else s.extentFault t x
    | some b =>
      match checkSpan m b ((o - descBase (m.buffer b) : Nat) : Int) x.length x.align x.access with
      | .error i => some { i with addr := x.address }
      | .ok _ => none

/-- The first fault of several extents. -/
def State.extentsFault (s : State) (t : Team) (xs : List Extent) : Option FaultInfo := xs.findSome? fun x => s.extentFault t x

/-- A stream buffer that an engine fills from its start (R199, R202). -/
def State.startFill (s : State) (tid b : Nat) : State :=
  (s.settleBuffer tid b).mapTeam tid fun t =>
    let d := t.buffer b
    if descKind d = 1 then t.setBuffer b (withWp (withState d 1) 0) else t

/-- A stream buffer that a copy reads out (R199). -/
def State.startRead (s : State) (tid b : Nat) : State :=
  (s.settleBuffer tid b).mapTeam tid fun t =>
    let d := t.buffer b
    if descKind d = 1 then t.setBuffer b (withState d 3) else t

/-- A filled stream buffer becomes FULL, with WP just past the last byte written (R199). -/
def State.endFill (s : State) (tid b last : Nat) : State :=
  (s.settleBuffer tid b).mapTeam tid fun t =>
    let d := t.buffer b
    if descKind d = 1 ∧ descState d = 1 then t.setBuffer b (withWp (withState d 2) (min (descSize d) (last - descBase d)))
    else t

/-- A stream buffer that has been read out becomes EMPTY with WP 0 (R199, R202). -/
def State.endRead (s : State) (tid b : Nat) : State :=
  (s.settleBuffer tid b).mapTeam tid fun t =>
    let d := t.buffer b
    if descKind d = 1 ∧ descState d = 3 then t.setBuffer b (withWp (withState d 0) 0) else t

/-- WP of a buffer being filled by an engine raised past a byte at a slice offset, in whole words (R199). A fill that starts
above the base, or a drain whose lines do not ascend, so raises WP past bytes that are not written; R199 says nothing of them
(DESIGN CHOICE, log 31). -/
def State.raiseWp (s : State) (tid offset : Nat) : State :=
  s.mapTeam tid fun t =>
    match t.bufferAt offset with
    | none => t
    | some b =>
      let d := t.buffer b
      if descKind d = 1 ∧ descState d = 1 ∧ descEng d then
        t.setBuffer b (withWp d (max (descWp d) ((offset + 1 - descBase d) / 4 * 4)))
      else t

/-! ## Bytes -/

/-- A global byte for an engine: its place, or why not (R168, R271, R37). -/
def State.enginePlace (s : State) (t : Team) (a : DWord) (access : Nat) : Except Trouble Nat :=
  match s.translate t.ctx t.core none a access with
  | .denied => .error (.stop 3 (some (addressed accessViolation a access)))
  | .absent => .error (.delay (some a))
  | .waits _ => .error (.delay none)
  | .ok place _ =>
    match s.home place with
    | .ready => .ok place
    | .waiting => .error (if isRemote place then .away place a else .delay none)
    | .failed => .error (.stop 3 (some (addressed accessViolation a access)))

/-- One byte as an engine reads it: global memory at M, a slice at its bank (R270). -/
def State.engineRead (s : State) (t : Team) (a : DWord) : Except Trouble Byte :=
  match s.classOf t a with
  | .unused => .error (.stop 3 (some (addressed addressFault a 0)))
  | .global => (s.enginePlace t a 0).map fun p => s.byte p
  | _ =>
    match s.sliceOf t a with
    | some (m, o) => .ok (sget 0 m.slice o)
    | none => .error (.delay none)

/-- n bytes as an engine reads them, or the first trouble. -/
def State.engineBytes (s : State) (t : Team) (a : DWord) (n : Nat) : Except Trouble (List Byte) :=
  (List.range n).foldl (fun r i =>
    match r with
    | .error x => .error x
    | .ok acc => (s.engineRead t (a + BitVec.ofNat 64 i)).map fun b => acc ++ [b]) (.ok [])

/-- n bytes of M at a global address as an engine reads them (R293), or the first trouble. -/
def State.memoryBytes (s : State) (t : Team) (a : DWord) (n : Nat) : Except Trouble (List Byte) :=
  (List.range n).foldl (fun r i =>
    let b := a + BitVec.ofNat 64 i
    match r with
    | .error x => .error x
    | .ok acc =>
      if s.classOf t b ≠ .global then .error (.stop 3 (some (addressed addressFault b 0)))
      else (s.enginePlace t b 0).map fun p => acc ++ [s.byte p]) (.ok [])

/-- The shadow bytes of the command or operation at the head of a queue. -/
def Team.headShadow (t : Team) (q : Nat) : List (Nat × Byte) :=
  if q = 5 then ((t.matrix.queue.head?).map fun m => m.shadow).getD []
  else (((t.engine q).queue.head?).map fun c => c.shadow).getD []

/-- The shadow lines of the earlier commands of the chain at the head of a queue (R265). -/
def Team.headKept (t : Team) (q : Nat) : List Nat :=
  if q = 5 then [] else (((t.engine q).queue.head?).map fun c => c.kept).getD []

/-- The head of a list updated. -/
def mapHead {α : Type} (f : α → α) (l : List α) : List α :=
  match l with
  | [] => []
  | x :: r => f x :: r

/-- The head command of an engine queue updated. -/
def State.mapCommand (s : State) (tid q : Nat) (f : Command → Command) : State :=
  s.mapTeam tid fun t => t.mapEngine q fun e => { e with queue := mapHead f e.queue }

/-- The head operation of a matrix queue updated. -/
def State.mapOperation (s : State) (tid : Nat) (f : MatrixEntry → MatrixEntry) : State :=
  s.mapTeam tid fun t => { t with matrix := { t.matrix with queue := mapHead f t.matrix.queue } }

/-- One byte into the shadow lines of the head of a queue; a new line counts against the quota, and waits while its slice is full or
stores wait for it (R176, R181, R271). -/
def State.shadowWrite (s : State) (t : Team) (q place : Nat) (a : DWord) (b : Byte) : Except Trouble State :=
  let t' := (s.team? t.id).getD t
  let fresh := !((t'.headShadow q).any fun e => e.1 / 256 == place / 256) && !(t'.headKept q).contains (place / 256)
  if fresh && decide ((s.ctx t.ctx).quota ≤ s.shadowLines t.ctx + s.linesToCome t.ctx) then
    .error (.stop 4 (some { kind := shadowQuota, addr := a }))
  else if fresh && (s.sliceFull (place / 256) || s.sliceAwaited (place / 256)) then .error (.delay none)
  else if q = 5 then .ok (s.mapOperation t.id fun m => { m with shadow := m.shadow ++ [(place, b)] })
  else .ok (s.mapCommand t.id q fun c => { c with shadow := c.shadow ++ [(place, b)] })

/-- One byte as an engine writes it (R270). -/
def State.engineWrite (s : State) (t : Team) (q : Nat) (a : DWord) (b : Byte) : Except Trouble State :=
  match s.classOf t a with
  | .unused => .error (.stop 3 (some (addressed addressFault a 1)))
  | .global =>
    match s.enginePlace t a 1 with
    | .error x => .error x
    | .ok place => s.shadowWrite t q place a b
  | _ =>
    match s.sliceOf t a with
    | some (m, o) => .ok (((s.writeSlice m.id o [b]).raiseWp m.id o).wakeAll)
    | none => .error (.delay none)

/-! ## Stops -/

/-- A record of a team's engine (R337, R338). -/
def State.engineRecord (s : State) (t : Team) (i : FaultInfo) : State := s.addRecord (s.eventRecord t i false)

/-- A queue ends with a stop (R271, R295): its unpublished shadow lines are dropped unless kept, the failing command ends with
a status and the later ones with another, and SEQC becomes SEQA. -/
def State.stopQueue (s : State) (tid q status later : Nat) (keep : Bool) (record : Option FaultInfo) : State :=
  match s.team? tid with
  | none => s
  | some t =>
    let held := if q = 5 then t.matrix.queue.flatMap fun m => m.holds else (t.engine q).queue.flatMap fun c => c.holds
    let count := if q = 5 then t.matrix.queue.length else (t.engine q).queue.length
    let st : BitVec 4 := BitVec.ofNat 4 (if count ≤ 1 then status else later)
    let s := s.mapTeam tid fun t =>
      if q = 5 then
        { t with matrix := { t.matrix with queue := [], shadow := if keep then t.matrix.shadow else [],
                                           lines := if keep then t.matrix.lines else [], seqc := t.matrix.seqa, stat := st } }
      else t.mapEngine q fun e =>
        { e with queue := [], shadow := if keep then e.shadow else [], lines := if keep then e.lines else [], seqc := e.seqa, stat := st }
    let s := s.updateEng held
    let s := if q = 5 then s.endDrains (t.matrix.queue.map fun m => m.uid) else s
    let s := match record with
      | some i => s.engineRecord t i
      | none => s
    s.wakeAll

/-- Since when the head of a team's queue has waited for a place of another device (R405). -/
def Team.awaySince (t : Team) (q place : Nat) : Option Nat :=
  let x := if q = 5 then (t.matrix.queue.head?).bind fun m => m.away else ((t.engine q).queue.head?).bind fun c => c.away
  x.bind fun e => if e.1 = place then some e.2 else none

/-- Whether the head of a team's queue has waited a second for a place of another device (R405). -/
def State.lateFor (s : State) (t : Team) (q place : Nat) : Bool :=
  ((t.awaySince q place).map fun since => decide (since + oneSecond ≤ s.real)).getD false

/-- The head of a team's queue waits for a place of another device from now on, unless it does so already (R405). -/
def State.awaits (s : State) (t : Team) (q place : Nat) : State :=
  if (t.awaySince q place).isSome then s
  else if q = 5 then s.mapOperation t.id fun m => { m with away := some (place, s.real) }
  else s.mapCommand t.id q fun c => { c with away := some (place, s.real) }

/-- What trouble does to a queue: a page is asked for, a device that cannot be reached is waited for up to a second, or the
queue stops (R271, R405). -/
def State.trouble (s : State) (t : Team) (q : Nat) (x : Trouble) : State :=
  match x with
  | .delay (some va) => s.requestMove t.ctx va
  | .delay none => s
  | .away place a =>
    if s.lateFor t q place then s.stopQueue t.id q 3 2 false (some (unreachable a)) else s.awaits t q place
  | .stop status record => s.stopQueue t.id q status 2 false record

/-- Whether the engines serve a team now (R362, R363, R342, R346). -/
def State.served (s : State) (t : Team) : Bool :=
  !t.stopped && !t.relaunch && !decide (t.exit = .gone) && !(s.ctx t.ctx).halted && !(s.ctx t.ctx).swapped

/-- How far a team slot lies from the one whose turn it is, counting up (R266, R292). -/
def turnDistance (turn slot : Nat) : Nat := if turn ≤ slot then slot - turn else slot + 2 ^ 16 - turn

/-- The arrival of an engine on a barrier word, BARW as a word (R225, R272): a record where it lies in no declared buffer. -/
def State.engineArrive (s : State) (t : Team) (barw : Nat) : State :=
  let n := bitsOf barw 24 5
  let o := bitsOf barw 0 20
  match s.team? t.id with
  | none => s
  | some t =>
    let d := t.buffer n
    if !descV d || decide (descSize d < o + 8) then s.engineRecord t (bufferFault bufferState d n .barrier o 0)
    else
      let r := s.arrive t.id (descBase d + o) 1
      (if r.1 = 0 then r.2 else r.2.engineRecord t (overrun r.1 n o)).wakeAll

end Sys2Proof.Machine
end

