-- ==== Sys2Proof/Machine/Engines.lean ====
section
/-! DEFINITION. The engine instructions of major 0x1E and the copy and collective engines (R265 to R285). -/

namespace Sys2Proof.Machine

/-! ## Commands -/

/-- The fields of a copy or gather command (R267, R268). -/
def cmdSrc (c : List Byte) : DWord := BitVec.ofNat 64 (field c 0x00 8)

def cmdDst (c : List Byte) : DWord := BitVec.ofNat 64 (field c 0x08 8)

def cmdLen (c : List Byte) : Nat := field c 0x10 4

def cmdCtl (c : List Byte) : Nat := field c 0x14 4

def cmdCrcv (c : List Byte) : Nat := field c 0x18 4

def cmdBarw (c : List Byte) : Nat := field c 0x1C 4

def cmdNext (c : List Byte) : DWord := BitVec.ofNat 64 (field c 0x20 8)

def cmdGidx (c : List Byte) : DWord := BitVec.ofNat 64 (field c 0x28 8)

def cmdGstr (c : List Byte) : Nat := field c 0x30 4

/-- KIND and the flags of CTL (R268). -/
def cmdKind (c : List Byte) : Nat := bitsOf (cmdCtl c) 0 4

def cmdFlag (c : List Byte) (i : Nat) : Bool := bitOf (cmdCtl c) i

/-- Element size and index width of a gather. -/
def cmdElem (c : List Byte) : Nat := 2 ^ bitsOf (cmdGstr c) 0 4

def cmdIndex (c : List Byte) : Nat := if bitOf (cmdGstr c) 4 then 8 else 4

/-- What is wrong with a command (R269): its form, or the state of a buffer. -/
inductive Complaint where
  | form
  | state (i : FaultInfo)
  deriving DecidableEq, Repr

/-- The check of BARW with ARRV (R269, R267): a state complaint only for a declared buffer within bounds. -/
def State.barwComplaint (s : State) (t : Team) (barw : Nat) : Option Complaint :=
  let t := (s.team? t.id).getD t
  let n := bitsOf barw 24 5
  match checkBuffer t n (bitsOf barw 0 20 : Nat) 8 .barrier with
  | .ok _ => none
  | .error i => if descV (t.buffer n) ∧ i.kind = bufferState then some (.state i) else some .form

/-- Whether an address is of a class a command may name (R163, R269). -/
def State.usable (s : State) (t : Team) (a : DWord) : Bool := !decide (s.classOf t a = .unused)

/-- The form of a copy or gather command (R269), BARW and buffer states aside. -/
def State.formOk (s : State) (t : Team) (c : List Byte) (chain : Bool) : Bool :=
  let gather := cmdKind c == 1
  let n := cmdNext c
  decide (cmdKind c ≤ 1) && decide (cmdCtl c < 512) && bitsOf (cmdBarw c) 29 3 == 0 && bitsOf (cmdBarw c) 20 4 == 0 &&
    (!gather || decide (cmdGstr c < 32)) && decide (1 ≤ cmdLen c ∧ cmdLen c ≤ 2 ^ 30) &&
    (!gather || (decide (bitsOf (cmdGstr c) 0 4 ≤ 12) && cmdLen c % cmdElem c == 0)) &&
    s.usable t (cmdSrc c) && s.usable t (cmdDst c) && (!gather || s.usable t (cmdGidx c)) &&
    (!chain || n == 0 || (n.toNat % 64 == 0 && s.usable t n))

/-- The address of element j of a gather's table (R270). -/
def State.tableAddress (s : State) (t : Team) (c : List Byte) (j : Nat) : Except Trouble DWord :=
  (s.engineBytes t (cmdGidx c + BitVec.ofNat 64 (cmdIndex c * j)) (cmdIndex c)).map fun bs =>
    cmdSrc c + BitVec.ofNat 64 (leNat bs * cmdElem c)

/-- The elements that a gather reads, as far as its indices can be read now (R269, R270, log 31). -/
def State.tableExtents (s : State) (t : Team) (c : List Byte) : List Extent :=
  (List.range (cmdLen c / cmdElem c)).filterMap fun j =>
    match s.tableAddress t c j with
    | .ok a => some { address := a, length := cmdElem c, access := .engineRead }
    | .error _ => none

/-- What a copy or gather command reads and writes. -/
def State.cmdExtents (s : State) (t : Team) (c : List Byte) : List Extent :=
  let dst : Extent := { address := cmdDst c, length := cmdLen c, access := .engineWrite }
  if cmdKind c = 0 then [dst, { address := cmdSrc c, length := cmdLen c, access := .engineRead }]
  else dst :: { address := cmdGidx c, length := cmdLen c / cmdElem c * cmdIndex c, access := .engineRead } :: s.tableExtents t c

/-- The check of a command against R269, buffer states aside. -/
def State.complaint (s : State) (t : Team) (c : List Byte) (chain : Bool) : Option Complaint :=
  if !s.formOk t c chain then some .form else if cmdFlag c 8 then s.barwComplaint t (cmdBarw c) else none

/-! ## Collective commands -/

/-- The fields of a collective command (R277). -/
def collCount (c : List Byte) : Nat := field c 0x10 4

def collBarw (c : List Byte) : Nat := field c 0x18 4

def collRank (c : List Byte) : Nat := field c 0x1C 4

def collList (c : List Byte) : DWord := BitVec.ofNat 64 (field c 0x20 8)

def collRanks (c : List Byte) : Nat := field c 0x28 4

def collTag (c : List Byte) : Nat := field c 0x2C 4

def collOp (c : List Byte) : Nat := bitsOf (cmdCtl c) 0 4

def collType (c : List Byte) : Nat := bitsOf (cmdCtl c) 4 3

def collRop (c : List Byte) : Nat := bitsOf (cmdCtl c) 8 4

/-- FZ, CN and SI as R210's control bits; their order is that of R213 and R306 (DEDUCED, log 18). -/
def collControl (c : List Byte) : Nat := bitsOf (cmdCtl c) 12 3

/-- The element size in bytes of a TYPE. -/
def collElem (c : List Byte) : Nat :=
  match collType c with
  | 1 => 2
  | 2 => 2
  | 3 => 8
  | 5 => 8
  | _ => 4

/-- Whether ROP suits TYPE (R277, R278). -/
def collSuits (c : List Byte) : Bool :=
  if 4 ≤ collType c then decide (collRop c ≤ 7) else decide (11 ≤ collRop c ∧ collRop c ≤ 13)

/-- The bytes a collective command reads and writes. -/
def collExtents (c : List Byte) : List Extent :=
  let n := collCount c * collElem c
  let all := collRanks c * n
  [{ address := cmdDst c, length := if collOp c = 1 then all else n, access := .engineWrite },
   { address := cmdSrc c, length := if collOp c = 2 then all else n, access := .engineRead }]

/-- Whether PLIST's entry for this rank names this device (R278); none where its page cannot be read now. -/
def State.namesUs (s : State) (t : Team) (c : List Byte) : Except Trouble Bool :=
  (s.engineBytes t (collList c + BitVec.ofNat 64 (8 * collRank c)) 8).map fun bs => leNat bs == s.hub.devnum.toNat

/-- The form of a collective command (R269, R277, R278), PLIST's entry aside. -/
def State.collOk (s : State) (t : Team) (c : List Byte) : Bool :=
  decide (cmdCtl c < 2 ^ 17) && !cmdFlag c 7 && bitsOf (collBarw c) 29 3 == 0 && bitsOf (collBarw c) 20 4 == 0 &&
    decide (collOp c ≤ 2) && decide (collType c ≤ 5) && decide (1 ≤ collCount c ∧ collCount c ≤ 2 ^ 26) &&
    decide (1 ≤ collRanks c ∧ collRanks c ≤ 4096) && decide (collRank c < collRanks c) && collSuits c &&
    s.usable t (cmdSrc c) && s.usable t (cmdDst c) && decide (s.classOf t (collList c) = .global)

/-- The flags ARRV and APUB of a command of either kind. -/
def Command.arrv (c : Command) : Bool := if c.collective then cmdFlag c.bytes 16 else cmdFlag c.bytes 8

def Command.apub (c : Command) : Bool := if c.collective then cmdFlag c.bytes 15 else cmdFlag c.bytes 7

/-- BARW of a command of either kind (R267, R277). -/
def Command.barw (c : Command) : Nat := if c.collective then collBarw c.bytes else cmdBarw c.bytes

/-- What a command of either kind reads and writes. -/
def State.extentsOf (s : State) (t : Team) (c : Command) : List Extent :=
  if c.collective then collExtents c.bytes else s.cmdExtents t c.bytes

/-! ## Submission -/

/-- The 64 bytes of a command or parameter block at offset o of buffer n, as a lane reads them (R280, R315): each doubleword is
checked, then the alignment of the block to a number. -/
def checkBlock (t : Team) (n : Nat) (o : Int) (bytes align : Nat) : Except FaultInfo Nat :=
  match (List.range (bytes / 8)).findSome? fun (i : Nat) => match checkBuffer t n (o + ((8 * i : Nat) : Int)) 8 .read with
      | .error x => some x
      | .ok _ => none with
  | some x => .error x
  | none =>
    if o % (align : Int) ≠ 0 then .error { kind := misaligned, addr := BitVec.ofInt 64 o }
    else .ok (descBase (t.buffer n) + o.toNat)

/-- The bytes of a team's slice at an offset. -/
def State.sliceBytes (s : State) (tid offset n : Nat) : List Byte :=
  let m := ((s.team? tid).map fun t => t.slice).getD []
  (List.range n).map fun i => sget 0 m (offset + i)

/-- One lane's checked submission to a queue (R280, R281, R315): it enters at once where there is room and none waits for it,
else the lane waits with what it has checked, and owes its number. -/
def submitLane (e : Env) (j q : Nat) (dests : List Place) (w : Submit) (s : State) : State × LaneOut :=
  let x : Submission := { issued := e.s.now, pid := e.pid, len := e.m, dests, work := w }
  if ((s.team? e.t.id).map fun t => t.hasRoom q && s.nextInLine t j q x).getD false then
    let r := s.enterQueue e.g j w
    (r.2, { writes := placeWords dests r.1 })
  else (s, { places := dests, waits := 1, flow := .wait (.room q x) none })

/-- A lane's result with the lane that supplies the s registers of a submission that waits (R120). -/
def LaneOut.underLead (o : LaneOut) (j : Nat) (lead : Option Nat) : LaneOut :=
  match o.flow with
  | .wait (.room q x) timer =>
    let other := x.dests.any Place.isScalar && lead != some j
    { o with flow := .wait (.room q { x with lead := if other then lead else none }) timer }
  | _ => o

/-- A body whose lanes submit one after another (R280, R315). -/
def submissions (act : Env → Nat → State → State × LaneOut) : Body := fun e ls s =>
  let r := inTurn act e ls s
  let lead := ls.find? fun j => (r.2 j).fault.isNone
  (r.1, fun j => (r.2 j).underLead j lead)

/-- The fault that a complaint raises on a lane (R269). -/
def Complaint.fault (c : Complaint) : FaultInfo :=
  match c with
  | .form => { kind := engineCommand }
  | .state i => i

/-- One lane of XCOPY or XGATH (R280). -/
def copyLane (f : Fields) (kind : Nat) (e : Env) (j : Nat) (s : State) : State × LaneOut :=
  match checkBlock e.t f.c.toNat (e.offset f j) 64 64 with
  | .error i => (s, { fault := some i })
  | .ok offset =>
    let s := s.beforeRead e j offset 64
    let c := s.sliceBytes e.t.id offset 64
    if cmdKind c ≠ kind then (s, { fault := some { kind := engineCommand } })
    else
      match s.complaint e.t c false, s.extentsFault e.t (s.cmdExtents e.t c) with
      | some x, _ => (s, { fault := some x.fault })
      | none, some i => (s, { fault := some i })
      | none, none => submitLane e j f.a.toNat (e.destPlaces j f.d true) (.command f.a.toNat false c 0) s

/-- XCOPY (R280). -/
def execXcopy (f : Fields) (s : State) : Host.Outcome State Fault Refusal :=
  .next (runCore (.xcopy f) f (submissions (copyLane f 0)) s)

/-- XGATH (R280). -/
def execXgath (f : Fields) (s : State) : Host.Outcome State Fault Refusal :=
  .next (runCore (.xgath f) f (submissions (copyLane f 1)) s)

/-- One lane of XCOLL (R280, R278). -/
def collLane (f : Fields) (e : Env) (j : Nat) (s : State) : State × LaneOut :=
  match checkBlock e.t f.c.toNat (e.offset f j) 64 64 with
  | .error i => (s, { fault := some i })
  | .ok offset =>
    let s := s.beforeRead e j offset 64
    let c := s.sliceBytes e.t.id offset 64
    if !s.collOk e.t c then (s, { fault := some { kind := engineCommand } })
    else
      match s.namesUs e.t c with
      | .error (.delay (some va)) => (s.requestMove e.t.ctx va, { flow := .park (.page va) })
      | .error (.away place a) => (s.addOp e j none a (.blocked place), { flow := .wait (.home place) none })
      | .error (.delay none) =>
        (s, { flow := .wait (.home (s.placeFor e.t.ctx e.g.core (collList c + BitVec.ofNat 64 (8 * collRank c)) 0)) none })
      | .error (.stop _ i) => (s, { fault := some (i.getD { kind := engineCommand }) })
      | .ok false => (s, { fault := some { kind := engineCommand } })
      | .ok true =>
        match (if cmdFlag c 16 then s.barwComplaint e.t (collBarw c) else none), s.extentsFault e.t (collExtents c) with
        | some x, _ => (s, { fault := some x.fault })
        | none, some i => (s, { fault := some i })
        | none, none => submitLane e j 4 (e.destPlaces j f.d true) (.command 4 false c 0) s

/-- XCOLL (R280). -/
def execXcoll (f : Fields) (s : State) : Host.Outcome State Fault Refusal :=
  .next (runCore (.xcoll f) f (submissions (collLane f)) s)

/-- One lane of XCHAIN (R281). -/
def chainLane (f : Fields) (e : Env) (j : Nat) (s : State) : State × LaneOut :=
  let a := e.address f j
  if a.toNat % 64 ≠ 0 then (s, { fault := some (addressed misaligned a 0) })
  else if !e.s.usable e.t a then (s, { fault := some (addressed addressFault a 0) })
  else submitLane e j f.b.toNat (e.destPlaces j f.d true) (.command f.b.toNat true [] a) s

/-- XCHAIN (R281). -/
def execXchain (f : Fields) (s : State) : Host.Outcome State Fault Refusal :=
  .next (runCore (.xchain f) f (submissions (chainLane f)) s)

/-! ## Observation -/

/-- The value XSEQ reads (R282). -/
def xseqWrites (f : Fields) (e : Env) (j : Nat) : List Write :=
  let q := e.t.engine f.a.toNat
  if modBit f 0 then e.setReg j f.d (BitVec.ofNat 32 (q.stat.toNat + 16 * natOf (!q.queue.isEmpty)))
  else e.setPair j f.d (BitVec.ofNat 64 q.seqc)

/-- XSEQ (R282). -/
def execXseq (f : Fields) (s : State) : Host.Outcome State Fault Refusal :=
  .next (runCore (.xseq f) f (perLane fun e j => { writes := xseqWrites f e j }) s)

/-- A wait for a queue's number (R282, R318): over at once where it has been reached, with the drop of R276 and the
acquire for the scratchpad writes of the commands or operations. -/
def seqBody (f : Fields) (reached : Env → Nat → Bool) (target : Env → Nat → Nat) (wait : Nat → Wait) : Body := fun e ls s =>
  (ls.foldl (fun s j => if reached e (target e j) then s.wakeDrops e.t (wait (target e j)) else s) s,
   fun j => if reached e (target e j) then { writes := timedDone f, change := Lane.acquire }
            else { flow := .wait (wait (target e j)) (timerOf f e.s) })

/-- XWAIT (R282, R276). -/
def execXwait (f : Fields) (s : State) : Host.Outcome State Fault Refusal :=
  .next (runCore (.xwait f) f (seqBody f (fun e n => decide (n ≤ (e.t.engine f.a.toNat).seqc))
    (fun e j => (e.pair j f.b).toNat) fun n => .engine f.a.toNat n) s)

/-! ## XPUB, XSTOP, XCRC -/

/-- The body of XPUB (R283): the queue is published, and FENCE knows the unit. -/
def xpubBody (f : Fields) : Body := fun e ls s =>
  let q := f.a.toNat
  if ls.isEmpty || (e.t.engine q).shadow.isEmpty then (s, fun _ => {})
  else
    let p := s.publishQueue e.t.id q (e.t.engine q).seqc
    let everywhere := f.sc == 6
    (if p.2.unitApplied p.1 everywhere then p.2
     else ls.foldl (fun s j => s.addOp e j none 0 (.published p.1 everywhere)) p.2, fun _ => {})

/-- XPUB (R283). -/
def execXpub (f : Fields) (s : State) : Host.Outcome State Fault Refusal :=
  .next (runCore (.xpub f) f (xpubBody f) s)

/-- XSTOP (R284): a queue stands at a chunk boundary between any two steps, so the stop takes place at once; the shadow lines of
commands that have ended are kept. -/
def execXstop (f : Fields) (s : State) : Host.Outcome State Fault Refusal :=
  .next (runCore (.xstop f) f (fun e ls s =>
    (if ls.isEmpty || (e.t.engine f.a.toNat).queue.isEmpty then s
     else s.stopQueue e.t.id f.a.toNat 6 6 true none, fun _ => {})) s)

/-- The body of XCRC (R285): one access for each lane, behind the commands accepted so far; the last sets CRCR to the lowest
lane's value. -/
def xcrcBody (f : Fields) : Body := fun e ls s =>
  let q := f.a.toNat
  let v := (ls.head?).map fun j => e.reg j f.b
  let dests (j : Nat) : List Place := ownPlaces (ls.head? == some j) (e.destPlaces j f.d false)
  (ls.foldl (fun s j => s.addOp e j (some e.pid) 0
      (.crcRead q (e.t.engine q).seqa (if modBit f 0 ∧ ls.getLast? = some j then v else none) (modBit f 1) (dests j))) s,
   fun j => { places := dests j, waits := 1 })

/-- XCRC (R285). -/
def execXcrc (f : Fields) (s : State) : Host.Outcome State Fault Refusal :=
  .next (runCore (.xcrc f) f (xcrcBody f) s)

/-! ## Start -/

/-- Whether an XCRC stands in front of the head of a queue (R285). -/
def State.crcAhead (s : State) (t : Team) (q number : Nat) : Bool :=
  s.ops.any fun o => o.team == t.id && (match o.access with
    | .crcRead k after _ _ _ => k == q && decide (after < number)
    | _ => false)

/-- The streams and holds of a command that starts (R199, R201), its buffers' states changed. -/
def State.startCommand (s : State) (t : Team) (q : Nat) (c : Command) : State :=
  let buffers (x : Extent) : List (Nat × Nat) := (s.extentBuffers t x).map fun b => (b.1.id, b.2)
  let xs := s.extentsOf t c
  let holds := (xs.flatMap buffers).eraseDups
  let fill := if c.collective then [] else ((xs.filter fun x => x.access == .engineWrite).flatMap buffers)
  let read := if c.collective || cmdKind c.bytes != 0 then []
              else ((xs.filter fun x => x.access == .engineRead).flatMap buffers)
  let s := s.mapCommand t.id q fun c => { c with started := true, holds, done := 0, moved := false, publishing := none,
                                                 shadow := [], lastProgress := s.clk.toNat }
  let s := fill.foldl (fun s b => s.startFill b.1 b.2) s
  let s := read.foldl (fun s b => s.startRead b.1 b.2) s
  let s := s.updateEng holds
  if !c.collective && cmdFlag c.bytes 5 then
    s.mapTeam t.id fun t => t.mapEngine q fun e => { e with crcr := 0xFFFFFFFF#32 }
  else s

/-- ENGINE_COMMAND_START (R201, R265, R271): the head command of a queue starts; its buffer states are judged again. -/
def execEngineCommandStart (team queue : Nat) (s : State) : Host.Outcome State Fault Refusal :=
  match s.team? team with
  | none => .next s
  | some t =>
    match (t.engine queue).queue with
    | [] => .next s
    | c :: _ =>
      if c.started || c.bytes.isEmpty || !s.served t || s.crcAhead t queue c.number ||
          ((s.extentsOf t c).any fun x => s.unstarted t x.address) then .next s
      else
        match s.extentsFault t (s.extentsOf t c) with
        | some i => .next (s.stopQueue team queue 3 2 false (some i))
        | none => .next (s.startCommand t queue c)

/-- CHAIN_COMMAND_READ (R281, R269): the channel reads and checks the next command of a chain. -/
def chainReadEvent (team queue : Nat) (s : State) : Host.Outcome State Fault Refusal :=
  match s.team? team with
  | none => .next s
  | some t =>
    match (t.engine queue).queue with
    | [] => .next s
    | c :: _ =>
      let bad : FaultInfo := { kind := engineCommand, addr := c.next }
      if !c.chain || !c.bytes.isEmpty || !s.served t || s.crcAhead t queue c.number || s.unstarted t c.next then .next s
      else if 65536 ≤ c.count then .next (s.stopQueue team queue 7 2 false (some bad))
      else
        match s.extentFault t { address := c.next, length := 64, access := .engineRead } with
        | some i => .next (s.stopQueue team queue 3 2 false (some i))
        | none =>
          match s.engineBytes t c.next 64 with
          | .error x => .next (s.trouble t queue x)
          | .ok bs =>
            if (s.complaint t bs true).isSome then .next (s.stopQueue team queue 7 2 false (some bad))
            else .next (s.mapCommand team queue fun c => { c with bytes := bs, started := false, count := c.count + 1 })

/-! ## Copies and gathers -/

/-- One step of the reflected CRC-32C of a byte (R273). -/
def crcStep (poly : Word) (n : Nat) (c : Word) : Word :=
  match n with
  | 0 => c
  | k + 1 => crcStep poly k (if c.getLsbD 0 then (c >>> 1) ^^^ poly else c >>> 1)

/-- CRCR after a byte (R273). -/
def crcByte (c : Word) (b : Byte) : Word := crcStep 0x82F63B78#32 8 (c ^^^ b.setWidth 32)

/-- The address from which byte i of a command's destination comes (R270): for a gather by its element's index. -/
def State.sourceOf (s : State) (t : Team) (c : List Byte) (i : Nat) : Except Trouble DWord :=
  if cmdKind c = 0 then .ok (cmdSrc c + BitVec.ofNat 64 i)
  else (s.tableAddress t c (i / cmdElem c)).map fun a => a + BitVec.ofNat 64 (i % cmdElem c)

/-- Whether the byte at an address lies in an extent of the same slice. -/
def State.inExtent (s : State) (t : Team) (a : DWord) (x : Extent) : Bool :=
  match s.sliceOf t a, s.sliceOf t x.address with
  | some (m, o), some (k, p) => m.id == k.id && decide (p ≤ o ∧ o < p + x.length)
  | _, _ => false

/-- Whether destination byte i of a command overlaps its source in scratchpad (R270): the bytes a copy reads, or the elements of the
table that a gather reads. -/
def State.overlapped (s : State) (t : Team) (c : List Byte) (i : Nat) : Bool :=
  let a := cmdDst c + BitVec.ofNat 64 i
  if cmdKind c = 0 then s.inExtent t a { address := cmdSrc c, length := cmdLen c, access := .engineRead }
  else (s.sliceOf t a).isSome && (s.tableExtents t c).any (s.inExtent t a)

/-- Byte i of a copy or gather (R270), from an address: read, written, folded into CRCR. An overlapping destination byte of a
scratchpad is unspecified, a free value (log 8). -/
def State.moveByte (s : State) (t : Team) (q : Nat) (c : List Byte) (a : DWord) (i : Nat) : Except Trouble State :=
  match s.engineRead t a with
  | .error x => .error x
  | .ok v =>
    let b := if s.overlapped t c i then Config.freeByte s.now i else v
    match s.engineWrite t q (cmdDst c + BitVec.ofNat 64 i) b with
    | .error x => .error x
    | .ok s =>
      let s := if cmdFlag c 4 then
          s.mapTeam t.id fun t => t.mapEngine q fun e => { e with crcr := crcByte e.crcr b } else s
      .ok (s.mapCommand t.id q fun c => { c with done := i + 1, lastProgress := s.clk.toNat })

/-- How many bytes from byte i on are read together, at most n (R270): to the end of a copy's 256-byte source block, or of a
gather's element. -/
def readTogether (c : List Byte) (i n : Nat) : Nat :=
  min n (if cmdKind c = 0 then 256 - (cmdSrc c + BitVec.ofNat 64 i).toNat % 256 else cmdElem c - i % cmdElem c)

/-- The buffers of an element of a gather that the command does not hold yet: its index could not be read at the start (log 31). -/
def State.lateBuffers (s : State) (t : Team) (q : Nat) (x : Extent) : List (Nat × Nat) :=
  let holds := ((((s.team? t.id).getD t).engine q).queue.head?.map fun c => c.holds).getD []
  ((s.extentBuffers t x).map fun b => (b.1.id, b.2)).filter fun b => !holds.contains b

/-- An element of a gather about to be read: buffers that the command comes to only now are judged and held (R199 to R201, R269). -/
def State.judgeElement (s : State) (t : Team) (q : Nat) (x : Extent) : Except Trouble State :=
  match s.lateBuffers t q x with
  | [] => .ok s
  | bs =>
    match s.extentFault t x with
    | some i => .error (.stop 3 (some i))
    | none => .ok ((s.mapCommand t.id q fun c => { c with holds := c.holds ++ bs }).updateEng bs)

/-- The bytes from byte i on that are read together, moved in one step or not at all (R270): a gather reads their index once. -/
def State.movePiece (s : State) (t : Team) (q : Nat) (c : List Byte) (i n : Nat) : Except Trouble State :=
  match s.sourceOf t c i with
  | .error x => .error x
  | .ok a =>
    (List.range n).foldl (fun r k =>
      match r with
      | .error x => .error x
      | .ok s => s.moveByte t q c (a + BitVec.ofNat 64 k) (i + k))
      (if cmdKind c = 0 then .ok s else s.judgeElement t q { address := a, length := n, access := .engineRead })

/-- Things moved one after another from one on, as far as nothing is in the way: the state, and the trouble met. -/
def moveEach (move : State → Nat → Except Trouble State) (first n : Nat) (s : State) : State × Option Trouble :=
  (List.range n).foldl (fun (r : State × Option Trouble) k =>
    match r.2 with
    | some _ => r
    | none =>
      match move r.1 (first + k) with
      | .ok s => (s, none)
      | .error x => (r.1, some x)) (s, none)

/-- The pieces of the bytes from first to last - 1 moved one after another, as far as nothing is in the way: the state, and the
trouble met. -/
def State.movePieces (s : State) (t : Team) (q : Nat) (c : List Byte) (first last : Nat) : State × Option Trouble :=
  let r := (List.range (last - first)).foldl (fun (r : (State × Option Trouble) × Nat) _ =>
    if r.1.2.isSome || decide (last ≤ r.2) then r
    else
      let n := readTogether c r.2 (last - r.2)
      match r.1.1.movePiece t q c r.2 n with
      | .ok s => ((s, none), r.2 + n)
      | .error x => ((r.1.1, some x), r.2)) ((s, none), first)
  r.1

/-- Where the 4 KiB chunk of a command ends that begins at a byte (R266): a copy's chunks end at 4 KiB of its source, so that no
256-byte block is read in two (log 31). -/
def chunkEnd (c : List Byte) (first : Nat) : Nat :=
  let start := if cmdKind c = 0 then (cmdSrc c + BitVec.ofNat 64 first).toNat else first
  min (cmdLen c) (first + (4096 - start % 4096))

/-- Whether the head of a team's copy queue has bytes to move, and what the first of them meets. -/
def State.chunkHead (s : State) (t : Team) (q : Nat) : Option (Except Trouble State) :=
  match (t.engine q).queue with
  | [] => none
  | c :: _ =>
    if c.started && !c.collective && !c.moved && s.served t && decide (c.done < cmdLen c.bytes) then
      some (s.movePiece t q c.bytes c.done (readTogether c.bytes c.done (chunkEnd c.bytes c.done - c.done)))
    else none

/-- Whether a team's copy queue has a chunk to move that nothing delays (R266, R271). -/
def State.chunkReady (s : State) (t : Team) (q : Nat) : Bool :=
  match s.chunkHead t q with
  | none => false
  | some (.error (.delay _)) => false
  | some (.error (.away _ _)) => false
  | some _ => true

/-- Whether a copy channel of a core turns to a team's queue now (R266): no queue with a chunk to move comes before it, counting up
from the team slot whose turn it is (log 31). -/
def State.channelTurnOf (s : State) (t : Team) (q : Nat) : Bool :=
  let place (x : Team) : Nat := turnDistance (sget 0 (s.core t.core).channelTurn q) x.teamSlot
  s.chunkReady t q && s.teams.all fun x => x.core != t.core || !s.chunkReady x q || decide (place t ≤ place x)

/-- The turn of a copy channel goes on from a team's slot (R266). -/
def State.passChannel (s : State) (t : Team) (q : Nat) : State :=
  s.mapCore t.core fun c => { c with channelTurn := sput 0 c.channelTurn q (t.teamSlot + 1) }

/-- ENGINE_CHUNK (R266, R270, R271): one chunk of 4 KiB of the command that runs; a page that delays it is asked for
(log 31). -/
def chunkEvent (team queue : Nat) (s : State) : Host.Outcome State Fault Refusal :=
  match s.team? team with
  | none => .next s
  | some t =>
    match (t.engine queue).queue with
    | [] => .next s
    | c :: _ =>
      if !s.channelTurnOf t queue then
        match s.chunkHead t queue with
        | some (.error x) => if s.chunkReady t queue then .next s else .next (s.trouble t queue x)
        | _ => .next s
      else
        match s.movePieces t queue c.bytes c.done (chunkEnd c.bytes c.done) with
        | (s, none) => .next (s.passChannel t queue)
        | (s, some x) => .next ((s.trouble t queue x).passChannel t queue)

/-! ## The end of a command -/

/-- The streams of a command that ends (R199, R272 step 2), and the buffers it held. -/
def State.endStreams (s : State) (t : Team) (q : Nat) (c : Command) : State :=
  let xs := if cmdKind c.bytes = 0 then s.cmdExtents t c.bytes
            else [{ address := cmdDst c.bytes, length := cmdLen c.bytes, access := .engineWrite }]
  let s := if c.collective then s else xs.foldl (fun s x =>
    match s.sliceOf t x.address with
    | none => s
    | some (m, o) => (s.extentBuffers t x).foldl (fun s b =>
        if x.access = .engineWrite then s.endFill m.id b.2 (o + x.length)
        else if cmdKind c.bytes = 0 then s.endRead m.id b.2 else s) s) s
  let s := s.mapCommand t.id q fun c => { c with moved := true, holds := [] }
  s.updateEng c.holds

/-- Whether a command's comparison finds a difference (R272 step 3). -/
def crcDiffers (e : Engine) (c : Command) : Bool :=
  !c.collective && cmdFlag c.bytes 6 && (e.crcr ^^^ 0xFFFFFFFF#32).toNat != cmdCrcv c.bytes

/-- The last steps of a command (R272 steps 5 and 6): the arrival, then SEQC and STAT, or the next command of the chain. R274
speaks of commands that have ended and R265 counts a chain as one: the model lets the shadow lines of each chained command join
the queue's as that command ends, so that an XPUB in mid-chain publishes them and XSTOP keeps them (DESIGN CHOICE, log 31). -/
def State.finishCommand (s : State) (t : Team) (q : Nat) (c : Command) : State :=
  let s := if c.arrv then s.engineArrive t c.barw else s
  let more := c.chain && cmdNext c.bytes != 0
  (s.mapTeam t.id fun t => t.mapEngine q fun e =>
    let e := (e.queue.head?).elim e e.takeShadow
    if more then
      { e with queue := mapHead (fun k => { k with bytes := [], next := cmdNext c.bytes, started := false, moved := false,
                                                   done := 0, shadow := [], kept := k.kept ++ k.ownLines, publishing := none }) e.queue }
    else { e with queue := e.queue.drop 1, seqc := c.number, stat := 0 }).wakeAll

/-- The bytes a command has to move before it ends. -/
def Command.total (c : Command) : Nat :=
  if c.collective then (((collExtents c.bytes).head?).map fun x => x.length).getD 0 else cmdLen c.bytes

/-- ENGINE_COMMAND_END (R272): stream states, CRC compare, then the publication, then arrival and number. -/
def execEngineCommandEnd (team queue : Nat) (s : State) : Host.Outcome State Fault Refusal :=
  match s.team? team with
  | none => .next s
  | some t =>
    match (t.engine queue).queue with
    | [] => .next s
    | c :: _ =>
      if !c.started || !s.served t || decide (c.done < c.total) then .next s
      else if !c.moved then
        let s := s.endStreams t queue c
        if crcDiffers (t.engine queue) c then .next (s.stopQueue team queue 1 2 false none)
        else if c.apub then .next (s.mapCommand team queue fun c => { c with publishing := some 0 })
        else .next (s.finishCommand t queue c)
      else
        match c.publishing with
        | some u => if u ≠ 0 ∧ s.unitApplied u true then .next (s.finishCommand t queue c) else .next s
        | none => .next s

/-! ## Collectives -/

/-- One step of a reduction: a ⊕ b in TYPE (R277, R210). -/
def collCombine (c : List Byte) (a b : Nat) : Nat :=
  let half (f : FloatFormat) : Nat :=
    match collRop c with
    | 11 => memoryAdd f (collControl c) a b
    | 12 => memoryExtreme f false (collControl c) a b
    | _ => memoryExtreme f true (collControl c) a b
  match collType c with
  | 1 => half bf16
  | 2 => half f16
  | _ => atomicResult (collRop c) (collControl c) (8 * collElem c) a b 0

/-- Element k of the source of a rank: the team's own memory, or what another device contributes (log 17). -/
def State.contribution (s : State) (t : Team) (c : List Byte) (rank k : Nat) : Except Trouble Nat :=
  let n := collElem c
  if rank = collRank c then (s.engineBytes t (cmdSrc c + BitVec.ofNat 64 (n * k)) n).map leNat
  else .ok ((Config.remoteElement s.now (collTag c) rank k).toNat % 2 ^ (8 * n))

/-- Element k reduced over all ranks, ascending (R277). -/
def State.reduced (s : State) (t : Team) (c : List Byte) (k : Nat) : Except Trouble Nat :=
  (List.range (collRanks c - 1)).foldl (fun r i =>
    match r, s.contribution t c (i + 1) k with
    | .ok a, .ok b => .ok (collCombine c a b)
    | .error x, _ => .error x
    | .ok _, .error x => .error x) (s.contribution t c 0 k)

/-- Destination element k of a collective (R277). -/
def State.collElement (s : State) (t : Team) (c : List Byte) (k : Nat) : Except Trouble Nat :=
  let n := collCount c
  match collOp c with
  | 0 => s.reduced t c k
  | 1 => s.contribution t c (k / n) (k % n)
  | _ => s.reduced t c (collRank c * n + k)

/-- Bytes written one after another by an engine. -/
def engineWriteAll (t : Team) (q : Nat) (a : DWord) (bs : List Byte) (s : State) : Except Trouble State :=
  (bs.mapIdx fun i b => (i, b)).foldl (fun r e =>
    match r with
    | .error x => .error x
    | .ok s => s.engineWrite t q (a + BitVec.ofNat 64 e.1) e.2) (.ok s)

/-- Destination element k computed and written. -/
def State.moveElement (s : State) (t : Team) (c : List Byte) (k : Nat) : Except Trouble State :=
  let n := collElem c
  match s.collElement t c k with
  | .error x => .error x
  | .ok v =>
    match engineWriteAll t 4 (cmdDst c + BitVec.ofNat 64 (n * k)) (leBytes n v) s with
    | .error x => .error x
    | .ok s => .ok (s.mapCommand t.id 4 fun c => { c with done := n * (k + 1), lastProgress := s.clk.toNat })

/-- What stands between a collective and its participants (R404, R405): before the device has its number Cordlink carries none
of it, and every other device that PLIST names has to be reachable. -/
def State.participantsAway (s : State) (t : Team) (c : List Byte) : Option Trouble :=
  if collRanks c ≤ 1 then none
  else if !s.hub.dnv then some (.delay none)
  else (List.range (collRanks c)).findSome? fun r =>
    let a := collList c + BitVec.ofNat 64 (8 * r)
    match s.engineBytes t a 8 with
    | .error x => some x
    | .ok bs =>
      let d := bitsOf (leNat bs) 0 20
      if d = s.hub.devnum.toNat ∨ !(s.routePorts d).isEmpty then none else some (.delay none)

/-- COLLECTIVE_STEP (R266, R277, R278): up to 64 KiB of a collective whose participants are there; where they disagree, the queue
stops. -/
def collectiveEvent (team : Nat) (s : State) : Host.Outcome State Fault Refusal :=
  match s.team? team with
  | none => .next s
  | some t =>
    match (t.engine 4).queue with
    | [] => .next s
    | c :: _ =>
      if !c.started || c.moved || !s.served t || decide (c.total ≤ c.done) then .next s
      else if let some x := s.participantsAway t c.bytes then .next (s.trouble t 4 x)
      else if 1 < collRanks c.bytes && c.done == 0 && !Config.participantsAgree s.now (collTag c.bytes) then
        .next (s.stopQueue team 4 5 2 false (some { kind := collMismatch }))
      else
        let n := collElem c.bytes
        match moveEach (fun s k => s.moveElement t c.bytes k) (c.done / n) (min (65536 / n) ((c.total - c.done) / n)) s with
        | (s, none) => .next s
        | (s, some x) => .next (s.trouble t 4 x)

/-- COLL_STALL_TIMEOUT (R278): 100 ms without progress write a record, and again every further 100 ms. -/
def execCollStallTimeout (team : Nat) (s : State) : Host.Outcome State Fault Refusal :=
  match s.team? team with
  | none => .next s
  | some t =>
    match (t.engine 4).queue with
    | [] => .next s
    | c :: _ =>
      if !c.started || c.moved || decide (s.clk.toNat < c.lastProgress + hundredMs) then .next s
      else .next ((s.mapCommand team 4 fun c => { c with lastProgress := s.clk.toNat }).engineRecord t { kind := collStall })

end Sys2Proof.Machine
end

