-- ==== Sys2Proof/Machine/Float.lean ====
section
/-! DEFINITION. The float, conversion and quantisation instructions (R138 to R162). -/

namespace Sys2Proof.Machine

/-! ## Shared shapes -/

/-- The FP mode of lane j under a rounding override: 0 for none, 1 to 4 (R140). -/
def Env.fpMode (e : Env) (j : Nat) (override : Nat) : FpMode :=
  let l := e.g.lane j
  { cnan := l.cnan, foz := l.foz, fiz := l.fiz,
    rm := roundingOf (if override = 0 then l.rm.toNat else override - 1) }

/-- An FP32 operation of two sources, with a rounding override in MOD[2:0] and the negations of MOD[4:3] (R144). -/
def floatPair (op : Value → Value → Value) (ft : FloatFormat) (m : FpMode) (mod a b : Nat) : Nat :=
  ft.compute m [ft.flip (bitOf mod 3) a, ft.flip (bitOf mod 4) b] fun vs =>
    match vs with
    | [x, y] => op x y
    | _ => .nan

/-- The sum, difference and product of two values under a mode. -/
def sumOp (m : FpMode) (x y : Value) : Value := x.add m.rm y

def subOp (m : FpMode) (x y : Value) : Value := x.add m.rm y.neg

def mulOp (_ : FpMode) (x y : Value) : Value := x.mul y

/-- Both halves of a packed operation (R144, R146). -/
def eachHalf (op : Nat → Nat) : Word := BitVec.ofNat 32 (op 0 + 65536 * op 1)

/-- Half h of a word. -/
def half (w : Word) (h : Nat) : Nat := w.toNat / 65536 ^ h % 65536

/-- An instruction on FP32 words of two sources. -/
def float2 (i : Instr) (f : Fields) (op : FpMode → Value → Value → Value) (s : State) : Host.Outcome State Fault Refusal :=
  .next (runCore i f (perLane fun e j =>
    let m := e.fpMode j (modBits f 0 3)
    { writes := e.setReg j f.d (BitVec.ofNat 32
        (floatPair (op m) f32 m f.mod.toNat (e.reg j f.a).toNat (e.reg j f.b).toNat)) }) s)

/-- An instruction on packed F16 halves of two sources. -/
def half2 (i : Instr) (f : Fields) (op : FpMode → Value → Value → Value) (s : State) : Host.Outcome State Fault Refusal :=
  .next (runCore i f (perLane fun e j =>
    let m := e.fpMode j (modBits f 0 3)
    { writes := e.setReg j f.d (eachHalf fun h =>
        floatPair (op m) f16 m f.mod.toNat (half (e.reg j f.a) h) (half (e.reg j f.b) h)) }) s)

/-- An instruction on FP64 pairs of two sources. -/
def double2 (i : Instr) (f : Fields) (op : FpMode → Value → Value → Value) (s : State) : Host.Outcome State Fault Refusal :=
  .next (runCore i f (perLane fun e j =>
    let m := e.fpMode j (modBits f 0 3)
    { writes := e.setPair j f.d (BitVec.ofNat 64
        (floatPair (op m) f64 m f.mod.toNat (e.pair j f.a).toNat (e.pair j f.b).toNat)) }) s)

/-- The fused multiply-add of R146 on codes, .np negating the product and .nc the addend (log 45). -/
def fused (ft : FloatFormat) (m : FpMode) (mod a b c : Nat) : Nat :=
  ft.compute m [a, b, ft.flip (bitOf mod 4) c] fun vs =>
    match vs with
    | [x, y, z] =>
      let p := x.mul y
      (if bitOf mod 3 then p.neg else p).add m.rm z
    | _ => .nan

/-- The minimum or maximum of FP32 words (R145). -/
def extreme2 (i : Instr) (f : Fields) (greatest : Bool) (s : State) : Host.Outcome State Fault Refusal :=
  .next (runCore i f (perLane fun e j =>
    { writes := e.setReg j f.d (BitVec.ofNat 32
        (f32.extreme (e.fpMode j 0) greatest (modBit f 0) (e.reg j f.a).toNat (e.reg j f.b).toNat)) }) s)

/-! ## Arithmetic -/

/-- FADD (R144). -/
def execFadd (f : Fields) (s : State) : Host.Outcome State Fault Refusal := float2 (.fadd f) f sumOp s

/-- FADD, long form (R144). -/
def execFaddLong (f : Fields) (s : State) : Host.Outcome State Fault Refusal := float2 (.faddLong f) f sumOp s

/-- FSUB (R144). -/
def execFsub (f : Fields) (s : State) : Host.Outcome State Fault Refusal := float2 (.fsub f) f subOp s

/-- FSUB, long form (R144). -/
def execFsubLong (f : Fields) (s : State) : Host.Outcome State Fault Refusal := float2 (.fsubLong f) f subOp s

/-- FMUL (R144). -/
def execFmul (f : Fields) (s : State) : Host.Outcome State Fault Refusal := float2 (.fmul f) f mulOp s

/-- FMUL, long form (R144). -/
def execFmulLong (f : Fields) (s : State) : Host.Outcome State Fault Refusal := float2 (.fmulLong f) f mulOp s

/-- FMIN (R145). -/
def execFmin (f : Fields) (s : State) : Host.Outcome State Fault Refusal := extreme2 (.fmin f) f false s

/-- FMIN, long form (R145). -/
def execFminLong (f : Fields) (s : State) : Host.Outcome State Fault Refusal := extreme2 (.fminLong f) f false s

/-- FMAX (R145). -/
def execFmax (f : Fields) (s : State) : Host.Outcome State Fault Refusal := extreme2 (.fmax f) f true s

/-- FMAX, long form (R145). -/
def execFmaxLong (f : Fields) (s : State) : Host.Outcome State Fault Refusal := extreme2 (.fmaxLong f) f true s

/-- HADD2 (R144). -/
def execHadd2 (f : Fields) (s : State) : Host.Outcome State Fault Refusal := half2 (.hadd2 f) f sumOp s

/-- HADD2, long form (R144). -/
def execHadd2Long (f : Fields) (s : State) : Host.Outcome State Fault Refusal := half2 (.hadd2Long f) f sumOp s

/-- HMUL2 (R144). -/
def execHmul2 (f : Fields) (s : State) : Host.Outcome State Fault Refusal := half2 (.hmul2 f) f mulOp s

/-- HMUL2, long form (R144). -/
def execHmul2Long (f : Fields) (s : State) : Host.Outcome State Fault Refusal := half2 (.hmul2Long f) f mulOp s

/-- FFMA (R146). -/
def execFfma (f : Fields) (s : State) : Host.Outcome State Fault Refusal :=
  .next (runCore (.ffma f) f (perLane fun e j =>
    { writes := e.setReg j f.d (BitVec.ofNat 32 (fused f32 (e.fpMode j (modBits f 0 3)) f.mod.toNat
        (e.reg j f.a).toNat (e.reg j f.b).toNat (e.reg j f.c).toNat)) }) s)

/-- HFMA2 (R146). -/
def execHfma2 (f : Fields) (s : State) : Host.Outcome State Fault Refusal :=
  .next (runCore (.hfma2 f) f (perLane fun e j =>
    { writes := e.setReg j f.d (eachHalf fun h => fused f16 (e.fpMode j (modBits f 0 3)) f.mod.toNat
        (half (e.reg j f.a) h) (half (e.reg j f.b) h) (half (e.reg j f.c) h)) }) s)

/-- BFMA2 (R146). -/
def execBfma2 (f : Fields) (s : State) : Host.Outcome State Fault Refusal :=
  .next (runCore (.bfma2 f) f (perLane fun e j =>
    { writes := e.setReg j f.d (eachHalf fun h => fused bf16 (e.fpMode j (modBits f 0 3)) f.mod.toNat
        (half (e.reg j f.a) h) (half (e.reg j f.b) h) (half (e.reg j f.c) h)) }) s)

/-- DADD (R144). -/
def execDadd (f : Fields) (s : State) : Host.Outcome State Fault Refusal := double2 (.dadd f) f sumOp s

/-- DMUL (R144). -/
def execDmul (f : Fields) (s : State) : Host.Outcome State Fault Refusal := double2 (.dmul f) f mulOp s

/-- DFMA (R146). -/
def execDfma (f : Fields) (s : State) : Host.Outcome State Fault Refusal :=
  .next (runCore (.dfma f) f (perLane fun e j =>
    { writes := e.setPair j f.d (BitVec.ofNat 64 (fused f64 (e.fpMode j (modBits f 0 3)) f.mod.toNat
        (e.pair j f.a).toNat (e.pair j f.b).toNat (e.pair j f.c).toNat)) }) s)

/-- The relation of two codes after FIZ (R147). -/
def floatRelation (ft : FloatFormat) (fiz : Bool) (a b : Nat) : Nat :=
  (ft.decode (ft.flushIn fiz a)).relation (ft.decode (ft.flushIn fiz b))

/-- The write of a float comparison (R147): the bit of the relation in MOD[3:0], combined by MOD[5:4] (R130). -/
def floatCompareWrite (e : Env) (f : Fields) (j r : Nat) : List Write :=
  setPred f.d.toNat (combine (modBits f 4 2) (f.mod.getLsbD r) (e.pred j f.c.toNat))

/-- FCMP (R147). -/
def execFcmp (f : Fields) (s : State) : Host.Outcome State Fault Refusal :=
  .next (runCore (.fcmp f) f (perLane fun e j =>
    { writes := floatCompareWrite e f j
        (floatRelation f32 (e.g.lane j).fiz (e.reg j f.a).toNat (e.reg j f.b).toNat) }) s)

/-- DCMP (R147). -/
def execDcmp (f : Fields) (s : State) : Host.Outcome State Fault Refusal :=
  .next (runCore (.dcmp f) f (perLane fun e j =>
    { writes := floatCompareWrite e f j
        (floatRelation f64 (e.g.lane j).fiz (e.pair j f.a).toNat (e.pair j f.b).toNat) }) s)

/-- A transcendental by number (R148). -/
def special1 (i : Instr) (f : Fields) (fn : Nat) (s : State) : Host.Outcome State Fault Refusal :=
  .next (runCore i f (perLane fun e j =>
    { writes := e.setReg j f.d (BitVec.ofNat 32 (transcendental fn (e.fpMode j 1) (e.reg j f.a))) }) s)

/-- FRCP (R148). -/
def execFrcp (f : Fields) (s : State) : Host.Outcome State Fault Refusal := special1 (.frcp f) f 0 s

/-- FSQRT (R148). -/
def execFsqrt (f : Fields) (s : State) : Host.Outcome State Fault Refusal := special1 (.fsqrt f) f 1 s

/-- FRSQ (R148). -/
def execFrsq (f : Fields) (s : State) : Host.Outcome State Fault Refusal := special1 (.frsq f) f 2 s

/-- FEX2 (R148). -/
def execFex2 (f : Fields) (s : State) : Host.Outcome State Fault Refusal := special1 (.fex2 f) f 3 s

/-- FLG2 (R148). -/
def execFlg2 (f : Fields) (s : State) : Host.Outcome State Fault Refusal := special1 (.flg2 f) f 4 s

/-- FSINP (R148). -/
def execFsinp (f : Fields) (s : State) : Host.Outcome State Fault Refusal := special1 (.fsinp f) f 5 s

/-- FCOSP (R148). -/
def execFcosp (f : Fields) (s : State) : Host.Outcome State Fault Refusal := special1 (.fcosp f) f 6 s

/-! ## Conversions -/

/-- The four source formats of the conversions: FP32, FP64, F16, BF16 (R149 to R151). -/
def formatOf (code : Nat) : FloatFormat :=
  match code with
  | 0 => f32
  | 1 => f64
  | 2 => f16
  | _ => bf16

/-- The source code of a conversion: the pair for FP64, the low half for the 16-bit formats. -/
def sourceCode (e : Env) (j : Nat) (n : BitVec 7) (code : Nat) : Nat :=
  match code with
  | 0 => (e.reg j n).toNat
  | 1 => (e.pair j n).toNat
  | _ => half (e.reg j n) 0

/-- The class of a code (R149): the bit number. -/
def classBit (ft : FloatFormat) (c : Nat) : Nat :=
  let m := ft.magnitude c
  let neg := ft.sign c
  if ft.isNan c then (if bitOf c (ft.frac - 1) then 9 else 8)
  else if m = ft.infCode then (if neg then 0 else 7)
  else if m = 0 then (if neg then 3 else 4)
  else if m < 2 ^ ft.frac then (if neg then 2 else 5)
  else if neg then 1 else 6

/-- FCLASS (R149). -/
def execFclass (f : Fields) (s : State) : Host.Outcome State Fault Refusal :=
  .next (runCore (.fclass f) f (perLane fun e j =>
    let c := modBits f 0 2
    { writes := e.setReg j f.d (BitVec.ofNat 32 (2 ^ classBit (formatOf c) (sourceCode e j f.a c))) }) s)

/-- A float code as a clamped 32-bit integer (R150). -/
def toWord (ft : FloatFormat) (m : FpMode) (u : Bool) (c : Nat) : Word :=
  match (ft.decode (ft.flushIn m.fiz c)).toInteger m.rm with
  | none => 0
  | some z => if u then clampUnsigned z else clampSigned z

/-- CVTI (R150). -/
def execCvti (f : Fields) (s : State) : Host.Outcome State Fault Refusal :=
  .next (runCore (.cvti f) f (perLane fun e j =>
    let c := modBits f 3 2
    { writes := e.setReg j f.d
        (toWord (formatOf c) (e.fpMode j (modBits f 0 3)) (modBit f 5) (sourceCode e j f.a c)) }) s)

/-- A float code converted between formats, rounded once (R141, R151). -/
def convert (m : FpMode) (g ft : FloatFormat) (c : Nat) : Nat :=
  let c := g.flushIn m.fiz c
  if g.isNan c then nanFrom m.cnan g ft c else ft.encode m (g.decode c)

/-- The result of CVTF from a source code (R151): 4 and 5 are the signed and the unsigned integer. -/
def convertFrom (e : Env) (j : Nat) (n : BitVec 7) (m : FpMode) (source : Nat) (ft : FloatFormat) : Nat :=
  match source with
  | 4 =>
    let z := (e.reg j n).toInt
    ft.encode m (.fin (decide (z < 0)) z.natAbs 1)
  | 5 => ft.encode m (.fin false (e.reg j n).toNat 1)
  | c => convert m (formatOf c) ft (sourceCode e j n c)

/-- CVTF (R151). -/
def execCvtf (f : Fields) (s : State) : Host.Outcome State Fault Refusal :=
  .next (runCore (.cvtf f) f (perLane fun e j =>
    let d := modBits f 6 2
    let v := convertFrom e j f.a (e.fpMode j (modBits f 0 3)) (modBits f 3 3) (formatOf d)
    { writes := if d = 1 then e.setPair j f.d (BitVec.ofNat 64 v) else e.setReg j f.d (BitVec.ofNat 32 v) }) s)

/-- One packed half of CVTW with .sat or without (R152): the code, and whether it saturated. -/
def packHalf (m : FpMode) (ft : FloatFormat) (sat : Bool) (c : Nat) : Nat × Bool :=
  let v := convert m f32 ft c
  let finite : Bool := match f32.decode c with
    | .fin _ _ _ => true
    | _ => false
  if sat ∧ finite ∧ ft.magnitude v = ft.infCode then (ft.withSign (ft.sign v) ft.maxCode, true)
  else (v, false)

/-- The result of CVTW on a lane and whether it saturated (R152). -/
def cvtwLane (e : Env) (f : Fields) (j : Nat) : Word × Bool :=
  let ft := if modBit f 0 then bf16 else f16
  if modBit f 1 then (BitVec.ofNat 32 (convert (e.fpMode j 0) ft f32 (half (e.reg j f.a) 1)), false)
  else
    let m := e.fpMode j (modBits f 2 3)
    let lo := packHalf m ft (modBit f 5) (e.reg j f.a).toNat
    let hi := packHalf m ft (modBit f 5) (e.reg j f.b).toNat
    (BitVec.ofNat 32 (lo.1 + 65536 * hi.1), lo.2 || hi.2)

/-- CVTW (R152). -/
def execCvtw (f : Fields) (s : State) : Host.Outcome State Fault Refusal :=
  .next (runCore (.cvtw f) f (fun e ls s =>
    (s.saturate e.g.id (ls.any fun j => (cvtwLane e f j).2) false,
     fun j => { writes := e.setReg j f.d (cvtwLane e f j).1 })) s)

/-! ## Reductions and the FP mode -/

/-- The exact sum of FP32 codes, rounded once (R153): a NaN of the lowest lane, opposite infinities, an infinity, or the
sum; an exact zero of operands that are not all of one sign follows the mode. -/
def floatSum (m : FpMode) (codes : List Nat) : Nat :=
  match codes.find? f32.isNan with
  | some c => nanFrom m.cnan f32 f32 c
  | none =>
    match codes with
    | [] => 0
    | c :: r => f32.encode m (r.foldl (fun v c => v.add m.rm (f32.decode c)) (f32.decode c))

/-- The minimum or maximum of FP32 codes (R153, R145). -/
def floatExtreme (m : FpMode) (greatest : Bool) (codes : List Nat) : Nat :=
  match codes with
  | [] => f32.withSign greatest f32.infCode
  | c :: r =>
    let v := r.foldl (fun v c => f32.extreme { m with fiz := false } greatest false v c) c
    if f32.isNan v then nanFrom m.cnan f32 f32 v else v

/-- FREDG (R153): each input flushed under its own lane's FIZ, each result under its own lane's mode. -/
def floatReduceBody (f : Fields) : Body := fun e ls s =>
  (s, fun j =>
    let codes := (scanLanes (modBits f 5 2) j ls).map fun k =>
      f32.flushIn (e.g.lane k).fiz (e.reg k f.a).toNat
    let m := e.fpMode j (modBits f 0 3)
    let v := match modBits f 3 2 with
      | 0 => floatSum m codes
      | 1 => floatExtreme m false codes
      | _ => floatExtreme m true codes
    { writes := e.setReg j f.d (BitVec.ofNat 32 v) })

/-- FREDG (R153). -/
def execFredg (f : Fields) (s : State) : Host.Outcome State Fault Refusal :=
  .next (runCore (.fredg f) f (floatReduceBody f) s)

/-- The FP mode register of a lane, with the group's flags (R139). -/
def fpModeWord (g : Group) (l : Lane) : Word :=
  BitVec.ofNat 32 (l.rm.toNat + 4 * natOf l.fiz + 8 * natOf l.foz + 16 * natOf l.cnan + 256 * natOf g.sat +
    512 * natOf g.sata)

/-- The mode bits of a lane set from a word (R154). -/
def Lane.setFpMode (l : Lane) (w : Word) : Lane :=
  { l with rm := w.extractLsb' 0 2, fiz := w.getLsbD 2, foz := w.getLsbD 3, cnan := w.getLsbD 4 }

/-- The group with SAT and SATA cleared, the saturations of conversions that issued before and are still to complete with them
(R154). -/
def Group.clearSat (g : Group) : Group :=
  { g.mapLanes fun _ l => { l with pend := l.pend.map fun q => { q with sat := none } } with sat := false, sata := false }

/-- FMODE by action (R154). -/
def fmodeBody (f : Fields) : Body := fun e ls s =>
  match f.mod.toNat with
  | 0 => (s, fun j => { writes := e.setReg j f.d (fpModeWord e.g (e.g.lane j)) })
  | 1 => (s, fun j => { change := fun l => l.setFpMode (e.reg j f.a) })
  | _ =>
    (if ls.isEmpty then s else s.mapGroup e.g.id Group.clearSat, fun _ => {})

/-- FMODE (R154). -/
def execFmode (f : Fields) (s : State) : Host.Outcome State Fault Refusal :=
  .next (runCore (.fmode f) f (fmodeBody f) s)

/-! ## Quantisation -/

/-- A format slot (R158): the fields of its eight bytes. -/
structure Slot where
  elem : Nat
  kind : Nat
  arm : Bool
  global : Bool
  src : Nat
  deriving DecidableEq, Repr

/-- The fields of a format slot's word (R158). -/
def slotFields (w : DWord) : Slot :=
  { elem := bitsOf w.toNat 0 4, kind := bitsOf w.toNat 4 2, arm := w.getLsbD 6, global := w.getLsbD 7,
    src := bitsOf w.toNat 8 56 }

/-- Format slot k of a team's launch (R158). -/
def State.slot (s : State) (t : Team) (k : Nat) : Slot := slotFields ((s.record t).slots.getD k 0)

/-- The block scale code qcvt.scale computes from the magnitudes of a block (R161). -/
def scaleCode (el : Element) (kind : Nat) (vs : List Value) : Nat :=
  let bad := vs.any fun v => match v with
    | .fin _ _ _ => false
    | _ => true
  let magnitude (v : Value) : Value := match v with
    | .fin _ a b => .fin false a b
    | v => v
  let x := vs.foldl (fun x v => if x.less (magnitude v) then magnitude v else x) (.fin false 0 1)
  if bad then (if kind = 1 then 0xFF else if kind = 2 then 0x7F else 0)
  else
    match kind, x with
    | 1, .fin _ a b => if a = 0 then 0x7F else (127 + clamp (-127) 127 (floorLog a b - el.emax)).toNat
    | 2, .fin _ a b =>
      if a = 0 then 0x38
      else
        match el.max with
        | .fin _ c d => min (max (e4m3.rawCode .rup false (a * d) (b * c)) 1) e4m3.maxCode
        | _ => 0
    | _, _ => 0

/-- The scale of one element for QCVT and DQCVT: a code in a register, or the tensor scale of the slot (R161). -/
def Slot.scale (k : Slot) (b : Word) : Value := scaleValue k.kind (if k.kind = 3 then k.src else b.toNat)

/-- One value quantised (R161): its code and whether it saturated (log 45). -/
def quantise (el : Element) (scale : Value) (a : Word) : Nat × Bool := el.satRound ((f32.decode a.toNat).div scale)

/-- The members of lane L's block (R161): all participants for E8M0, those of the same sixteen lanes for E4M3. -/
def blockOf (kind j : Nat) (ls : List Nat) : List Nat :=
  if kind = 2 then ls.filter fun k => k / 16 == j / 16 else ls

/-- QCVT (R159 to R161): a saturation is the group's when the conversion completes, with its result (R160). -/
def qcvtBody (f : Fields) : Body := fun e ls s =>
  let k := s.slot e.t (modBits f 0 3)
  match elementOf k.elem with
  | none => (s, fun _ => { fault := some { kind := formatSlotInvalid }, together := true })
  | some el =>
    if modBits f 3 2 = 1 then
      (s, fun j =>
        let vs := (blockOf k.kind j ls).map fun i => f32.decode (e.reg i f.a).toNat
        { writes := e.setReg j f.d (BitVec.ofNat 32 (scaleCode el k.kind vs)) })
    else
      (s, fun j =>
        let q := quantise el (k.scale (e.reg j f.b)) (e.reg j f.a)
        { writes := e.setReg j f.d (BitVec.ofNat 32 q.1), sat := if q.2 then some k.arm else none })

/-- QCVT (R161). -/
def execQcvt (f : Fields) (s : State) : Host.Outcome State Fault Refusal :=
  .next (runCore (.qcvt f) f (qcvtBody f) s)

/-- The element times its scale, as FP32 (R162). -/
def dequantise (el : Element) (scale : Value) (a : Word) : Nat :=
  f32.encode { cnan := false, foz := false, fiz := false, rm := .rne } ((el.decode a.toNat).mul scale)

/-- DQCVT (R159, R162). -/
def dqcvtBody (f : Fields) : Body := fun e _ s =>
  let k := s.slot e.t (modBits f 0 3)
  match elementOf k.elem with
  | none => (s, fun _ => { fault := some { kind := formatSlotInvalid }, together := true })
  | some el =>
    (s, fun j => { writes := e.setReg j f.d (BitVec.ofNat 32 (dequantise el (k.scale (e.reg j f.b)) (e.reg j f.a))) })

/-- DQCVT (R162). -/
def execDqcvt (f : Fields) (s : State) : Host.Outcome State Fault Refusal :=
  .next (runCore (.dqcvt f) f (dqcvtBody f) s)

end Sys2Proof.Machine
end

