-- ==== Sys2Proof/Machine/Tiles.lean ====
section
/-! DEFINITION. What the matrix engine computes (R291, R296 to R305): parameter blocks, tiles, operands, products and the order
of sums, accords and their cache. -/

namespace Sys2Proof.Machine

/-! ## Parameter blocks -/

/-- The parameter block of an MMA (R298). -/
structure Multiply where
  aBuf : Nat
  aOff : Nat
  aStr : Nat
  bBuf : Nat
  bOff : Nat
  bStr : Nat
  m : Nat
  n : Nat
  k : Nat
  slotA : Nat
  slotB : Nat
  tile : Nat
  first : Bool
  last : Bool
  aen : Bool
  asco : Nat
  bsco : Nat
  korg : Nat
  norg : Nat
  rank : Nat
  alpha : Word
  vecBuf : Nat
  vecOff : Nat
  tbase : DWord
  deriving DecidableEq, Repr

/-- The fields of a parameter block's bytes (R298). -/
def multiplyOf (c : List Byte) : Multiply :=
  let ctl := field c 0x18 4
  { aBuf := bitsOf (field c 0x00 4) 24 5, aOff := bitsOf (field c 0x00 4) 0 20, aStr := field c 0x04 4,
    bBuf := bitsOf (field c 0x08 4) 24 5, bOff := bitsOf (field c 0x08 4) 0 20, bStr := field c 0x0C 4,
    m := field c 0x10 2, n := field c 0x12 2, k := field c 0x14 4,
    slotA := bitsOf ctl 0 3, slotB := bitsOf ctl 4 3, tile := bitsOf ctl 8 2, first := bitOf ctl 12, last := bitOf ctl 13,
    aen := bitOf ctl 14, asco := field c 0x1C 4, bsco := field c 0x20 4, korg := field c 0x24 4, norg := field c 0x28 4,
    rank := 8 * 2 ^ bitsOf (field c 0x2C 4) 0 2, alpha := BitVec.ofNat 32 (field c 0x30 4),
    vecBuf := bitsOf (field c 0x34 4) 24 5, vecOff := bitsOf (field c 0x34 4) 0 20,
    tbase := BitVec.ofNat 64 (field c 0x38 8) }

/-- The stored width in bits of an element code, and the bytes n of them take (R156, R296). -/
def storedBits (elem : Nat) : Nat := ((elementOf elem).map fun e => e.stored).getD 8

def storedBytes (elem n : Nat) : Nat := (n * storedBits elem + 7) / 8

/-- The elements in one block of a scale kind (R157, R296). -/
def blockSize (kind : Nat) : Nat := if kind = 2 then 16 else 32

/-- Whether a slot has a scale array, and whether that stands in scratchpad (R158, R296). -/
def Slot.blocks (k : Slot) : Bool := k.kind == 1 || k.kind == 2

def Slot.local' (k : Slot) : Bool := k.blocks && !k.global

/-- The buffer and the offset of a slot's scale location in scratchpad (R158). -/
def Slot.buffer (k : Slot) : Nat := bitsOf k.src 0 5

def Slot.offset (k : Slot) : Nat := bitsOf k.src 32 24

/-- The generic address of an offset of a team's own slice (R163). -/
def sliceAddress (offset : Nat) : DWord := BitVec.ofNat 64 (0x0100000000000000 + offset)

/-- The scale location of a slot as a generic address (R158, R296). -/
def Slot.location (k : Slot) (t : Team) : DWord :=
  if k.global then BitVec.ofNat 64 k.src else sliceAddress (descBase (t.buffer k.buffer) + k.offset)

/-! ## Tiles -/

/-- The number of an element of a tile (R291). -/
def tileKey (tile row col : Nat) : Nat := 32768 * tile + 256 * row + col

/-- An element of a tile. -/
def Matrix.element (x : Matrix) (tile row col : Nat) : Word := sget 0 x.tiles (tileKey tile row col)

/-- Elements of a tile written. -/
def Matrix.setElements (x : Matrix) (es : List (Nat × Word)) : Matrix := { x with tiles := sputAll 0 x.tiles es }

/-- Every element of a tile +0 (R316). -/
def Matrix.clearTile (x : Matrix) (tile : Nat) : Matrix :=
  { x with tiles := x.tiles.filter fun e => !(e.1 / 32768 == tile) }

/-- A tile whose every element the spec leaves unspecified (R295): free values. -/
def Matrix.spoilTile (x : Matrix) (tile now : Nat) : Matrix :=
  x.setElements ((List.range 32768).map fun i => (32768 * tile + i, Config.freeWord now i))

/-- The accord state of a tile; none where it is idle (R302). -/
def Matrix.accord (x : Matrix) (tile : Nat) : Option Accord := sget none x.accords tile

def Matrix.setAccord (x : Matrix) (tile : Nat) (a : Option Accord) : Matrix :=
  { x with accords := sput none x.accords tile a }

/-! ## Operands -/

/-- The operands of an operation as it read them (R296, R297): rows of A, columns of B, the scale arrays, the slices. -/
structure Operands where
  rows : List (List Byte)
  cols : List (List Byte)
  scalesA : List Byte
  scalesB : List Byte
  slices : List Slice
  deriving DecidableEq, Repr

/-- A byte of elements of some bits at an offset of a team's slice, as an operation reads it that started in a step: each
element at a moment of its own since then (R297). -/
def elementByte (t : Team) (now begun bits offset : Nat) : Byte :=
  let read (element : Nat) : Byte := t.byteAt (begun + Config.operandMoment now element % (now + 1 - begun)) offset
  if bits = 4 then
    BitVec.ofNat 8 (bitsOf (read (8 * offset)).toNat 0 4 + 16 * bitsOf (read (8 * offset + 4)).toNat 4 4)
  else read (8 * offset / bits * bits)

/-- n bytes of elements of some bits at an offset of a team's slice, as an operation reads them that started in a step; with
none, as they stand. -/
def State.operandBytes (s : State) (t : Team) (begun : Option Nat) (bits offset n : Nat) : List Byte :=
  (List.range n).map fun i =>
    match begun with
    | none => sget 0 t.slice (offset + i)
    | some step => elementByte t s.now step bits (offset + i)

/-- The codes of a scale array, given the offset field, the lines and K (R296): none for a slot without one. -/
def State.scaleBytes (s : State) (t : Team) (begun : Option Nat) (slot : Slot) (offset lines k : Nat) :
    Except Trouble (List Byte) :=
  let n := lines * (k / blockSize slot.kind)
  if !slot.blocks then .ok []
  else if slot.global then s.engineBytes t (slot.location t + BitVec.ofNat 64 offset) n
  else .ok (s.operandBytes t begun 8 (descBase (t.buffer slot.buffer) + slot.offset + offset) n)

/-- The operands of an MMA, the slices aside. -/
def State.operands (s : State) (t : Team) (begun : Option Nat) (x : Multiply) (slices : List Slice) :
    Except Trouble Operands :=
  let sa := s.slot t x.slotA
  let sb := s.slot t x.slotB
  let lines (n buf off str elem : Nat) : List (List Byte) := (List.range n).map fun i =>
    s.operandBytes t begun (storedBits elem) (descBase (t.buffer buf) + off + i * str) (storedBytes elem x.k)
  match s.scaleBytes t begun sa x.asco x.m x.k, s.scaleBytes t begun sb x.bsco x.n x.k with
  | .error e, _ => .error e
  | .ok _, .error e => .error e
  | .ok ca, .ok cb =>
    .ok { rows := lines x.m x.aBuf x.aOff x.aStr sa.elem, cols := lines x.n x.bBuf x.bOff x.bStr sb.elem,
          scalesA := ca, scalesB := cb, slices := slices }

/-- Element k of a line of bytes (R296). -/
def codeAt (bits : Nat) (line : List Byte) (k : Nat) : Nat :=
  if bits = 4 then bitsOf (line.getD (k / 2) 0).toNat (4 * (k % 2)) 4 else field line (k * (bits / 8)) (bits / 8)

/-- The scale of element k of line i (R157, R296). -/
def Slot.scaleAt (s : Slot) (codes : List Byte) (i k size : Nat) : Value :=
  if s.blocks then scaleValue s.kind (codes.getD (i * (size / blockSize s.kind) + k / blockSize s.kind) 0).toNat
  else scaleValue s.kind s.src

/-- Element k of line i times its scale, exactly (R300). -/
def Slot.scaled (s : Slot) (lines : List (List Byte)) (codes : List Byte) (size i k : Nat) : Value :=
  match elementOf s.elem with
  | none => .nan
  | some e => (e.decode (codeAt e.stored (lines.getD i []) k)).mul (s.scaleAt codes i k size)

/-! ## Sums -/

/-- The FP mode of the matrix engine (R300). -/
abbrev engineMode : FpMode := { cnan := true, foz := false, fiz := false, rm := .rne }

/-- An exact zero taken as +0. -/
def Value.positiveZero (v : Value) : Value :=
  match v with
  | .fin _ 0 _ => .fin false 0 1
  | v => v

/-- σ of a block of products (R300). -/
def sigma (terms : List Value) : Value := (terms.foldl (fun (x y : Value) => x.add .rne y) (.fin false 0 1)).positiveZero

/-- c ⊕ σ (R300). -/
def oplus (c : Word) (v : Value) : Word := BitVec.ofNat 32 (f32.encode engineMode ((f32.decode c.toNat).add .rne v))

/-- A value with the blocks of K added in ascending order, given the product at each k (R300, R303). -/
def addBlocks (c : Word) (k : Nat) (product : Nat → Value) : Word :=
  (List.range (k / 32)).foldl (fun c b => oplus c (sigma ((List.range 32).map fun i => product (32 * b + i)))) c

/-- The base products of an MMA: the new elements of its tile (R300). -/
def baseElements (x : Multiply) (sa sb : Slot) (o : Operands) (tiles : Matrix) : List (Nat × Word) :=
  (List.range x.m).flatMap fun i => (List.range x.n).map fun j =>
    (tileKey x.tile i j, addBlocks (tiles.element x.tile i j) x.k fun k =>
      (sa.scaled o.rows o.scalesA x.k i k).mul (sb.scaled o.cols o.scalesB x.k j k))

/-! ## Accords -/

/-- E_a of an accord state (R301). -/
def Accord.entry (a : Accord) (id : Nat) : DWord := a.tbase + BitVec.ofNat 64 (0x4000 + id * a.astride * 16384)

/-- The row ids that name an accord, with their rows (R301). -/
def Accord.rows (a : Accord) : List (Nat × Nat) := (a.ids.mapIdx fun i id => (i, id)).filter fun e => e.2 != 0xFFFF

/-- The origins of the slices that cover n bytes at a byte of an entry (R304). -/
def origins (start n : Nat) : List Nat :=
  if n = 0 then []
  else (List.range ((start + n - 1) / 16384 - start / 16384 + 1)).map fun i => (start / 16384 + i) * 16384

/-- The P slices, and at LAST the Q slices, that a row with an id needs, as accord and origin (R304). -/
def Accord.pSlices (a : Accord) (x : Multiply) (id : Nat) : List (Nat × Nat) :=
  (origins (2 * x.korg * a.rank) (2 * x.k * a.rank)).map fun o => (id, o)

def Accord.qSlices (a : Accord) (x : Multiply) (id : Nat) : List (Nat × Nat) :=
  if x.last then (origins (a.qoff * 16384 + 2 * a.norg * a.rank) (2 * a.n * a.rank)).map fun o => (id, o) else []

/-- Every slice an operation needs, P slices first. -/
def Accord.needs (a : Accord) (x : Multiply) : List (Nat × Nat) :=
  ((a.rows.flatMap fun e => a.pSlices x e.2) ++ a.rows.flatMap fun e => a.qSlices x e.2).eraseDups

/-- The rows that need a slice for their P products, and those that need it for their deltas. -/
def Accord.rowsFor (a : Accord) (x : Multiply) (slice : Nat × Nat) : List Nat × List Nat :=
  ((a.rows.filter fun e => (a.pSlices x e.2).contains slice).map fun e => e.1,
   (a.rows.filter fun e => (a.qSlices x e.2).contains slice).map fun e => e.1)

/-- The BF16 element at a byte of an accord's entry, from the slices at hand (R301, R304). -/
def accordElement (slices : List Slice) (id offset : Nat) : Value :=
  match slices.find? fun x => x.accord == id && x.origin == offset / 16384 * 16384 with
  | some x => bf16.decode (leNat ((List.range 2).map fun i => sget 0 x.bytes (offset % 16384 + i)))
  | none => .nan

/-- The adapter accumulators after an operation (R303). -/
def Accord.accumulate (a : Accord) (x : Multiply) (sa : Slot) (o : Operands) : Accord :=
  { a with u := sputAll 0 a.u (a.rows.flatMap fun e => (List.range a.rank).map fun p =>
      (64 * e.1 + p, addBlocks (sget 0 a.u (64 * e.1 + p)) x.k fun k =>
        (sa.scaled o.rows o.scalesA x.k e.1 k).mul (accordElement o.slices e.2 (((x.korg + k) * a.rank + p) * 2)))) }

/-- The delta of row i, id a, column j at LAST (R303). -/
def Accord.delta (a : Accord) (slices : List Slice) (row id j : Nat) : Value :=
  let t (p : Nat) : Value := bf16.decode (bf16.encode engineMode (f32.decode (sget 0 a.u (64 * row + p)).toNat))
  let q (p : Nat) : Value := accordElement slices id (a.qoff * 16384 + ((a.norg + j) * a.rank + p) * 2)
  let sum := sigma ((List.range a.rank).map fun p => (t p).mul (q p))
  f32.decode (f32.encode engineMode ((f32.decode a.alpha.toNat).mul sum).positiveZero)

/-- A tile's elements with the deltas of LAST added (R303). -/
def Accord.deltas (a : Accord) (x : Multiply) (slices : List Slice) (tiles : Matrix) : List (Nat × Word) :=
  a.rows.flatMap fun e => (List.range x.n).map fun j =>
    (tileKey x.tile e.1 j, oplus (tiles.element x.tile e.1 j) (a.delta slices e.1 e.2 j))

/-- The matrix store after an MMA (R300, R302, R303). -/
def Matrix.multiplied (tiles : Matrix) (x : Multiply) (sa sb : Slot) (o : Operands) : Matrix :=
  let r := tiles.setElements (baseElements x sa sb o tiles)
  if !x.aen then r
  else
    match r.accord x.tile with
    | none => r
    | some a =>
      let a := a.accumulate x sa o
      if x.last then (r.setElements (a.deltas x o.slices r)).setAccord x.tile none else r.setAccord x.tile (some a)

/-! ## Opening an accord state -/

/-- Why an operation cannot go on with accords: trouble with memory, or a breach with its row and id (R302, R339). -/
inductive AccordTrouble where
  | memory (x : Trouble)
  | breach (row : DWord) (id : Nat)
  deriving DecidableEq, Repr

/-- A breach that concerns no single row (R339). -/
abbrev noRow : AccordTrouble := .breach (BitVec.allOnes 64) 0xFFFF

/-- Whether a header is consistent, and the chunk and columns of an operation lie within its tables (R301, R302). -/
def Accord.fits (a : Accord) (x : Multiply) : Bool :=
  decide (2 * a.kd * a.rank ≤ a.qoff * 16384 ∧ a.qoff * 16384 + 2 * a.nd * a.rank ≤ a.astride * 16384 ∧
    x.korg + x.k ≤ a.kd ∧ a.norg + a.n ≤ a.nd)

/-- The accord state an operation opens that started in a step (R301, R302, R297). -/
def State.openAccord (s : State) (t : Team) (begun : Option Nat) (x : Multiply) : Except AccordTrouble Accord :=
  match s.memoryBytes t x.tbase 20 with
  | .error e => .error (.memory e)
  | .ok h =>
    let vec := s.operandBytes t begun 16 (descBase (t.buffer x.vecBuf) + x.vecOff) (2 * x.m)
    let a : Accord :=
      { m := x.m, n := x.n, ids := (List.range x.m).map fun i => field vec (2 * i) 2, tbase := x.tbase,
        nids := field h 0x00 4, astride := field h 0x04 4, qoff := field h 0x08 4, kd := field h 0x0C 4,
        nd := field h 0x10 4, norg := x.norg, rank := x.rank, alpha := x.alpha }
    if !a.fits x then .error noRow
    else
      match a.rows.find? fun e => decide (a.nids ≤ e.2) with
      | some e => .error (.breach (BitVec.ofNat 64 e.1) e.2)
      | none => .ok a

/-- The accord state with which an operation goes on (R302): opened, or the open one with the same M and N. -/
def State.accordFor (s : State) (t : Team) (begun : Nat) (x : Multiply) : Except AccordTrouble Accord :=
  if x.first then s.openAccord t (some begun) x
  else
    match t.matrix.accord x.tile with
    | none => .error noRow
    | some a => if a.m ≠ x.m ∨ a.n ≠ x.n ∨ !a.fits x then .error noRow else .ok a

/-! ## The accord cache -/

/-- A slice's last use is now. -/
def State.touchSlice (s : State) (core : Nat) (x : Slice) : State :=
  let touch (y : Slice) : Slice := if y.hasTag x.ctx x.tbase x.accord x.origin then { y with used := s.now } else y
  s.mapCore core fun c => { c with accords := c.accords.map touch }

/-- The slices of a core's cache that no operation uses (R304). -/
def State.unusedSlices (s : State) (core : Nat) : List Slice :=
  (s.core core).accords.filter fun x => !s.sliceInUse core x

/-- The slice a core's full cache gives up: the least recently used one that no running operation uses, or, of an operation that
needs more than the cache holds, one of its own finished rounds (R304, R305). -/
def State.victim (s : State) (core : Nat) (own : List Slice) : Option Slice :=
  let free := s.unusedSlices core
  let mine := (s.core core).accords.filter fun x => own.any fun y => y.hasTag x.ctx x.tbase x.accord x.origin
  (if free.isEmpty then mine else free).foldl (fun r x => match r with
    | none => some x
    | some y => if x.used < y.used then some x else some y) none

/-- A slice in the accord cache of a core (R304), which holds 16; it takes the place of one with its tag (log 32), and where
every other one is in use it finds none. -/
def State.insertSlice (s : State) (core : Nat) (own : List Slice) (x : Slice) : State :=
  let s := s.mapCore core fun c => { c with accords := c.accords.filter fun y => !y.hasTag x.ctx x.tbase x.accord x.origin }
  let all := (s.core core).accords
  if all.length < 16 then s.mapCore core fun c => { c with accords := all ++ [x] }
  else
    match s.victim core own with
    | none => s
    | some v => s.mapCore core fun c => { c with accords := (all.filter fun y => !(y == v)) ++ [x] }

/-- A slice as M has it now (R293, R304). -/
def State.fetchSlice (s : State) (t : Team) (tbase entry : DWord) (accord origin : Nat) : Except Trouble Slice :=
  (s.memoryBytes t (entry + BitVec.ofNat 64 origin) 16384).map fun bs =>
    { ctx := t.ctx, tbase, accord, origin, used := s.now,
      bytes := (bs.mapIdx fun i b => (i, b)).filter fun e => e.2 != 0 }

/-! ## Signatures -/

/-- One step of the reflected CRC-64 (R355). -/
def crc64Step (n : Nat) (c : DWord) : DWord :=
  match n with
  | 0 => c
  | k + 1 => crc64Step k (if c.getLsbD 0 then (c >>> 1) ^^^ 0xC96C5795D7870F42#64 else c >>> 1)

/-- The CRC-64 of bytes (R355). -/
def crc64 (bs : List Byte) : Nat :=
  (bs.foldl (fun c b => crc64Step 8 (c ^^^ b.setWidth 64)) (BitVec.allOnes 64) ^^^ BitVec.allOnes 64).toNat

/-- The signature of the operands (R355). -/
def operandSignature (block : List Byte) (o : Operands) : Nat :=
  crc64 (block ++ o.rows.flatten ++ o.cols.flatten ++ o.scalesA ++ o.scalesB ++
    o.slices.flatMap fun x => (List.range 16384).map fun i => sget 0 x.bytes i)

/-- The bytes of the region of a tile that an MMA covers, row by row. -/
def Matrix.region (tiles : Matrix) (x : Multiply) : List Byte :=
  (List.range x.m).flatMap fun i => (List.range x.n).flatMap fun j => leBytes 4 (tiles.element x.tile i j).toNat

end Sys2Proof.Machine
end

