-- ==== Sys2Proof/Machine/Audit.lean ====
section
/-! DEFINITION. Audit (R313, R354 to R356): which MMAs are sampled, what a sample writes, and its replay on another core. -/

namespace Sys2Proof.Machine

/-! ## Sampling -/

/-- AK and NSLOT of a context's AUDCTL (R354). -/
def Context.ak (x : Context) : Nat := bitsOf x.audctl.toNat 0 5

def Context.auditSlots (x : Context) : Nat := bitsOf x.audctl.toNat 8 8

/-- Whether every page of n bytes at a global address is mapped read-only (R313). -/
def State.readOnly (s : State) (c : Nat) (a : DWord) (n : Nat) : Bool :=
  n == 0 || (List.range ((a.toNat + n - 1) / 4096 - a.toNat / 4096 + 1)).all fun i =>
    match s.walk c (BitVec.ofNat 64 (4096 * (a.toNat / 4096 + i))) with
    | some l => !entryW l.entry
    | none => false

/-- Whether a scale array in global memory is read-only; one in scratchpad does not matter (R313). -/
def State.scalesReadOnly (s : State) (t : Team) (k : Slot) (offset n : Nat) : Bool :=
  !(k.blocks && k.global) || s.readOnly t.ctx (k.location t + BitVec.ofNat 64 offset) n

/-- Whether an MMA that starts, with its accord state if it has one, meets every condition of R313 but the status. -/
def State.eligible (s : State) (t : Team) (m : MatrixEntry) (x : Multiply) (a : Option Accord) : Bool :=
  let sa := s.slot t x.slotA
  let sb := s.slot t x.slotB
  t.aud && m.full && (!x.aen || (x.first && x.last)) &&
    s.scalesReadOnly t sa x.asco (x.m * (x.k / blockSize sa.kind)) &&
    s.scalesReadOnly t sb x.bsco (x.n * (x.k / blockSize sb.kind)) &&
    (match a with
     | none => true
     | some a => (a.needs x).all fun e => s.readOnly t.ctx (a.entry e.1 + BitVec.ofNat 64 e.2) 16384)

/-- The audit slots of a context in use. -/
def State.auditUsed (s : State) (c : Nat) : List Nat :=
  ((s.samples.filter fun x => x.ctx == c).map fun x => x.slot) ++
    (s.teams.filter fun t => t.ctx == c).flatMap fun t => t.matrix.queue.filterMap fun m => m.sampled

/-- The rows of a tile's region as an audit slot holds them, row i at 1024 i (log 25). -/
def Matrix.slotPieces (tiles : Matrix) (x : Multiply) : List (Nat × List Byte) :=
  (List.range x.m).map fun i =>
    (1024 * i, (List.range x.n).flatMap fun j => leBytes 4 (tiles.element x.tile i j).toNat)

/-- The address of an audit slot of a context (R354). -/
def Context.slotAddress (x : Context) (slot : Nat) : DWord := x.audbase + BitVec.ofNat 64 (0x40000 * slot)

/-- A free audit slot whose pages can be written (R355). -/
def State.freeAuditSlot (s : State) (t : Team) (x : Multiply) : Option Nat :=
  let c := s.ctx t.ctx
  (List.range c.auditSlots).find? fun n =>
    !(s.auditUsed t.ctx).contains n &&
      decide (s.reach t.ctx t.core (piecePages (c.slotAddress n) (t.matrix.slotPieces x)) 1 = .ok)

/-- AUDSTAT with one more replay that matched, or one more sample skipped (R335). -/
def Context.countMatch (x : Context) : Context :=
  { x with audstat := x.audstat.extractLsb' 32 32 ++ (x.audstat.extractLsb' 0 32 + 1#32) }

def Context.countSkip (x : Context) : Context :=
  { x with audstat := (x.audstat.extractLsb' 32 32 + 1#32) ++ x.audstat.extractLsb' 0 32 }

/-- An MMA that starts is counted and, where its turn has come or it is marked, sampled: the slot is written before it begins
(R355, R372). -/
def State.sampleStart (s : State) (t : Team) (m : MatrixEntry) (x : Multiply) (a : Option Accord) : State :=
  if !s.eligible t m x a then s
  else
    let c := s.ctx t.ctx
    let n := sget 0 c.mmaCount t.core + 1
    let s := s.mapCtx t.ctx fun c => { c with mmaCount := sput 0 c.mmaCount t.core n }
    let due := m.marked || (decide (c.ak ≤ 16) && n % 2 ^ c.ak == 0)
    if t.audit = 1 ∨ !due then s
    else
      match s.freeAuditSlot t x with
      | none => s.mapCtx t.ctx Context.countSkip
      | some slot =>
        (s.writePieces t.ctx t.core (c.slotAddress slot) (t.matrix.slotPieces x)).mapOperation t.id fun m =>
          { m with sampled := some slot }

/-- A sampled MMA that ended with status 0 waits for its replay (R355). -/
def State.sampleEnd (s : State) (t : Team) (m : MatrixEntry) (block : List Byte) (x : Multiply) (o : Operands)
    (after : Matrix) : State :=
  match m.sampled with
  | none => s
  | some slot =>
    { s with ids := s.ids + 1,
             samples := s.samples ++ [{ id := s.ids, ctx := t.ctx, team := t.id, core := t.core, slot, number := m.number,
                                        block, operands := operandSignature block o, result := crc64 (after.region x),
                                        since := s.clk.toNat }] }

/-! ## Replay -/

/-- Whether a core may replay a sample of another one (R356): in another sector in service, or, where there is none, another
core of the same sector. -/
def State.mayReplay (s : State) (sample core : Nat) : Bool :=
  let own := coreSector sample
  s.coreInService core && !s.preempting core && !s.preempting sample &&
    (if (List.range 16).any fun n => n != own && s.sectorReady n then
       coreSector core != own && s.sectorReady (coreSector core)
     else core != sample && coreSector core == own)

/-- The slices of a replay, read from M. -/
def State.replaySlices (s : State) (t : Team) (x : Multiply) (a : Accord) : Except Trouble (List Slice) :=
  (a.needs x).foldl (fun r e =>
    match r with
    | .error y => .error y
    | .ok acc => (s.fetchSlice t a.tbase (a.entry e.1) e.1 e.2).map fun y => acc ++ [y]) (.ok [])

/-- Why some pages of an audit slot cannot be read now (R37, R356, R405). -/
def State.pageTrouble (s : State) (c core : Nat) (pages : List DWord) : Trouble :=
  match s.reach c core pages 0 with
  | .absent va => .delay (some va)
  | .waits =>
    match s.awayOf c core pages 0 with
    | some va => .away (s.placeFor c core va 0) va
    | none => .delay none
  | _ => .stop 3 none

/-- The operands of a replay and the matrix store it starts from, its tile from the audit slot (R356); none where a page has
gone. -/
def State.replayInputs (s : State) (t : Team) (y : Sample) (core : Nat) (x : Multiply) : Except Trouble (Operands × Matrix) :=
  let c := s.ctx t.ctx
  let slot := c.slotAddress y.slot
  let start (a : Option Accord) : Matrix :=
    let elements := (List.range x.m).flatMap fun i =>
      let row := s.deviceBytes t.ctx core (slot + BitVec.ofNat 64 (1024 * i)) (4 * x.n)
      (List.range x.n).map fun j => (tileKey x.tile i j, BitVec.ofNat 32 (field row (4 * j) 4))
    ({} : Matrix).setElements elements |>.setAccord x.tile a
  let pages := piecePages slot (t.matrix.slotPieces x)
  if decide (s.reach t.ctx core pages 0 ≠ .ok) then .error (s.pageTrouble t.ctx core pages)
  else if !x.aen then (s.operands t none x []).map fun o => (o, start none)
  else
    match s.openAccord t none x with
    | .error (.memory e) => .error e
    | .error (.breach _ _) => .error (.stop 8 none)
    | .ok a =>
      match s.replaySlices t x a with
      | .error e => .error e
      | .ok sl => (s.operands t none x sl).map fun o => (o, start (some a))

/-- The outcome of a replay (R356). -/
def State.judgeSample (s : State) (t : Team) (y : Sample) (core : Nat) (x : Multiply) (o : Operands) (start : Matrix) : State :=
  let record (kind : Nat) (fatal : Bool) : State :=
    s.addRecord { s.eventRecord t { kind, aux := BitVec.ofNat 64 core, aux2 := BitVec.ofNat 64 y.number } fatal with
                  whereWord := BitVec.ofNat 32 y.core }
  let after := start.multiplied x (s.slot t x.slotA) (s.slot t x.slotB) o
  if operandSignature y.block o ≠ y.operands then record auditInconclusive false
  else if crc64 (after.region x) ≠ y.result then record silentData true
  else s.mapCtx y.ctx Context.countMatch

/-- AUDIT_REPLAY (R356): a core takes up the replay of a sample, and then ends it. One whose memory lies on a device that cannot
be reached is given up as skipped after 1 s, with a record (R405). -/
def replayEvent (sample core : Nat) (s : State) : Host.Outcome State Fault Refusal :=
  match s.samples.find? fun y => y.id == sample with
  | none => .next s
  | some y =>
    let rest := { s with samples := s.samples.filter fun z => z.id != sample }
    match s.team? y.team with
    | none => .next (rest.mapCtx y.ctx Context.countSkip)
    | some t =>
      if !s.mayReplay y.core core then .next s
      else if y.replayer = none then
        .next { s with samples := s.samples.map fun z => if z.id = sample then { z with replayer := some core } else z }
      else if y.replayer ≠ some core then .next s
      else
        let x := multiplyOf y.block
        match s.replayInputs t y core x with
        | .error (.away _ a) => .next (s.awayTurn (.replay sample) fun s =>
            ({ s with samples := s.samples.filter fun z => z.id != sample }.mapCtx y.ctx Context.countSkip).addRecord
              (s.eventRecord t (unreachable a) false))
        | .error (.delay va) => .next (s.trouble t 5 (.delay va))
        | .error (.stop _ _) => .next (rest.mapCtx y.ctx Context.countSkip)
        | .ok (o, start) => .next (rest.judgeSample t y core x o start)

/-- Samples of some cores, and those that they replay, abandoned as skipped (R356, R362). -/
def State.abandonSamples (s : State) (cores : List Nat) : State :=
  let goes (y : Sample) : Bool := cores.contains y.core || y.replayer.any cores.contains
  (s.samples.filter goes).foldl (fun s y => s.mapCtx y.ctx Context.countSkip)
    { s with samples := s.samples.filter fun y => !goes y }

end Sys2Proof.Machine
end

