-- ==== Sys2Proof/Machine/Drain.lean ====
section
/-! DEFINITION. What a drain writes (R306 to R310): the drain block, the conversion of lines, and the pieces in which the engine
writes them. -/

namespace Sys2Proof.Machine

/-! ## The drain block -/

/-- A drain block (R306). -/
structure Drain where
  dst : DWord
  tdst : DWord
  dstr : Nat
  tstr : Nat
  row0 : Nat
  m : Nat
  col0 : Nat
  n : Nat
  slot : Nat
  tslot : Nat
  mode : Nat
  control : Nat
  apub : Bool
  arrv : Bool
  clr : Bool
  rank : Nat
  count : Nat
  sco : Nat
  tsco : Nat
  barw : Nat
  deriving DecidableEq, Repr

/-- The fields of a drain block's bytes (R306). -/
def drainOf (c : List Byte) : Drain :=
  let ctl := field c 0x20 4
  { dst := BitVec.ofNat 64 (field c 0x00 8), tdst := BitVec.ofNat 64 (field c 0x08 8), dstr := field c 0x10 4,
    tstr := field c 0x14 4, row0 := field c 0x18 2, m := field c 0x1A 2, col0 := field c 0x1C 2, n := field c 0x1E 2,
    slot := bitsOf ctl 0 3, tslot := bitsOf ctl 4 3, mode := bitsOf ctl 8 2, control := bitsOf ctl 10 3, apub := bitOf ctl 13,
    arrv := bitOf ctl 14, clr := bitOf ctl 15, rank := bitsOf (field c 0x24 4) 0 12, count := bitsOf (field c 0x24 4) 16 12 + 1,
    sco := field c 0x28 4, tsco := field c 0x2C 4, barw := field c 0x30 4 }

/-- Whether a block asks for a transposed copy. -/
def Drain.transposed (d : Drain) : Bool := d.tdst != 0

/-- The address of row i of the main copy, and of column j of the transposed one (R307). -/
def Drain.rowAt (d : Drain) (i : Nat) : DWord := d.dst + BitVec.ofNat 64 (i * d.dstr)

def Drain.colAt (d : Drain) (j : Nat) : DWord := d.tdst + BitVec.ofNat 64 (j * d.tstr)

/-- The scale codes of one line of a copy. -/
def lineCodes (k : Slot) (length : Nat) : Nat := length / blockSize k.kind

/-- The alignment of an element, and so of a line of them (R197, R295): its bytes, or 1 for a 4-bit one. -/
def elementAlign (elem : Nat) : Nat := max 1 (storedBits elem / 8)

/-- The bytes a drain writes, scale arrays aside, line by line (R307). -/
def Drain.lines (d : Drain) (k tk : Slot) : List Extent :=
  ((List.range d.m).map fun i =>
      ({ address := d.rowAt i, length := storedBytes k.elem d.n, access := .engineWrite, align := elementAlign k.elem } : Extent)) ++
    if !d.transposed then []
    else (List.range d.n).map fun j =>
      { address := d.colAt j, length := storedBytes tk.elem d.m, access := .engineWrite, align := elementAlign tk.elem }

/-- The scale arrays a drain writes in scratchpad: buffer, offset, length. -/
def Drain.scaleSpans (d : Drain) (k tk : Slot) : List (Nat × Nat × Nat) :=
  (if k.local' then [(k.buffer, k.offset + d.sco, d.m * lineCodes k d.n)] else []) ++
    if d.transposed && tk.local' then [(tk.buffer, tk.offset + d.tsco, d.n * lineCodes tk d.m)] else []

/-- Everything a drain writes in scratchpad or memory, as extents. -/
def Drain.extents (d : Drain) (t : Team) (k tk : Slot) : List Extent :=
  d.lines k tk ++ (d.scaleSpans k tk).map fun e =>
    { address := sliceAddress (descBase (t.buffer e.1) + e.2.1), length := e.2.2, access := .engineWrite }

/-- The parameters of a drain (R310 step 2). -/
def State.drainOk (s : State) (t : Team) (d : Drain) (k tk : Slot) : Bool :=
  let whole (x : Slot) (n : Nat) : Bool := !x.blocks || n % blockSize x.kind == 0
  decide (1 ≤ d.m ∧ d.row0 + d.m ≤ 128) && decide (1 ≤ d.n ∧ d.col0 + d.n ≤ 256) && d.mode != 3 &&
    (d.mode == 0 || (decide (k.elem ≤ 2) && k.kind == 0 && !d.transposed)) &&
    (d.mode != 2 || decide (s.classOf t d.dst = .global)) && decide (d.rank < d.count) &&
    s.usable t d.dst && (!d.transposed || s.usable t d.tdst) && whole k d.n && (!d.transposed || whole tk d.m)

/-! ## Conversion -/

/-- A line of tile elements in a slot's format (R308): element codes, scale codes, and whether one saturated. -/
def convertLine (k : Slot) (vs : List Word) : List Nat × List Nat × Bool :=
  match elementOf k.elem with
  | none => ([], [], false)
  | some el =>
    if k.elem = 0 ∧ k.kind = 0 then (vs.map fun v => v.toNat, [], false)
    else
      let blocks := if k.blocks then pieces vs.length (blockSize k.kind) vs else [vs]
      let codes := if k.blocks then blocks.map fun b => scaleCode el k.kind (b.map fun v => f32.decode v.toNat) else []
      let qs := (blocks.mapIdx fun i b =>
        let scale := if k.blocks then scaleValue k.kind (codes.getD i 0) else scaleValue k.kind k.src
        b.map fun v => quantise el scale v).flatten
      (qs.map fun q => q.1, codes, qs.any fun q => q.2)

/-- Element codes as bytes (R156); the upper nibble beside a last odd element is stated nowhere, a free value (log 8). -/
def packLine (bits now : Nat) (codes : List Nat) : List Byte :=
  if bits = 4 then (pieces codes.length 2 codes).map fun p =>
    match p with
    | [a, b] => BitVec.ofNat 8 (a + 16 * b)
    | a :: _ => BitVec.ofNat 8 (a + 16 * ((Config.freeByte now 0).toNat % 16))
    | [] => 0
  else codes.flatMap fun c => leBytes (bits / 8) c

/-- The elements of row i and of column j of the drained region. -/
def Drain.row (d : Drain) (x : Matrix) (tile i : Nat) : List Word :=
  (List.range d.n).map fun j => x.element tile (d.row0 + i) (d.col0 + j)

def Drain.column (d : Drain) (x : Matrix) (tile j : Nat) : List Word :=
  (List.range d.m).map fun i => x.element tile (d.row0 + i) (d.col0 + j)

/-- The bytes of one line of a copy with their addresses: its elements, then its scale codes (R307, R308). -/
def lineBytes (t : Team) (now : Nat) (k : Slot) (at' : DWord) (offset line : Nat) (vs : List Word) : List (DWord × Byte) :=
  let c := convertLine k vs
  let place (a : DWord) (bs : List Byte) : List (DWord × Byte) := bs.mapIdx fun i b => (a + BitVec.ofNat 64 i, b)
  place at' (packLine (storedBits k.elem) now c.1) ++
    place (k.location t + BitVec.ofNat 64 (offset + line * lineCodes k vs.length)) (c.2.1.map fun x => BitVec.ofNat 8 x)

/-- Whether a drain saturates anywhere, in a copy's slot (R308). -/
def Drain.saturates (d : Drain) (x : Matrix) (tile : Nat) (k : Slot) (main : Bool) : Bool :=
  if main then (List.range d.m).any fun i => (convertLine k (d.row x tile i)).2.2
  else (List.range d.n).any fun j => (convertLine k (d.column x tile j)).2.2

/-! ## Pieces -/

/-- Whether a drain adds into global memory, block by block (R309). -/
def State.addsGlobal (s : State) (t : Team) (d : Drain) : Bool := d.mode != 0 && decide (s.classOf t d.dst = .global)

/-- The 256-byte blocks that the main copy touches (R309). -/
def Drain.blocks (d : Drain) (w : Nat) : List Nat :=
  ((List.range d.m).flatMap fun i =>
    let a := (d.rowAt i).toNat
    (List.range ((a + w * d.n - 1) / 256 - a / 256 + 1)).map fun b => a / 256 + b).eraseDups

/-- The number of pieces in which a drain writes: lines, or blocks (R309, R312). -/
def State.drainPieces (s : State) (t : Team) (d : Drain) : Nat :=
  if s.addsGlobal t d then (d.blocks (storedBytes (s.slot t d.slot).elem 1)).length
  else d.m + if d.transposed then d.n else 0

/-- Bytes written one after another by the matrix engine, as far as nothing is in the way. -/
def writeEach (t : Team) (bs : List (DWord × Byte)) (s : State) : State × Option Trouble :=
  bs.foldl (fun (r : State × Option Trouble) e =>
    match r.2 with
    | some _ => r
    | none =>
      match r.1.engineWrite t 5 e.1 e.2 with
      | .ok s => (s, none)
      | .error x => (r.1, some x)) (s, none)

/-- One element added into scratchpad (R309). -/
def State.addElement (s : State) (t : Team) (ft : FloatFormat) (control w : Nat) (a : DWord) (v : Word) : State × Option Trouble :=
  match s.engineBytes t a w with
  | .error x => (s, some x)
  | .ok bs => writeEach t ((leBytes w (drainSum ft control (leNat bs) v.toNat)).mapIdx fun i b => (a + BitVec.ofNat 64 i, b)) s

/-- The elements of the drained region in a block of the main copy, with their addresses. -/
def Drain.inBlock (d : Drain) (x : Matrix) (tile w block : Nat) : List (DWord × Word) :=
  (List.range d.m).flatMap fun i => (List.range d.n).filterMap fun j =>
    let a := d.rowAt i + BitVec.ofNat 64 (w * j)
    if a.toNat / 256 = block then some (a, x.element tile (d.row0 + i) (d.col0 + j)) else none

/-- The bytes of a ranked contribution of a block (R309), in the form of rankCarried. -/
def carriedBytes (w base : Nat) (es : List (DWord × Word)) : List (Nat × Byte) :=
  es.flatMap fun e => (leBytes 4 e.2.toNat).mapIdx fun i b => (base + e.1.toNat % 256 + i * w / 4, b)

/-- An access of an operation of the matrix queue, for its issuing thread, in class 3 (R24). -/
def State.addMatrixOp (s : State) (t : Team) (m : MatrixEntry) (va : DWord) (access : Access) : State :=
  { s with ops := s.ops ++ [{ id := s.ids, gid := m.gid, lane := m.lane, team := t.id, pend := none, va, pc := 0,
                              issued := s.now, since := s.real, cls := 3, waited := s.clk.toNat, access }],
           ids := s.ids + 1 }

/-- A misaligned element or line of a drain (R295). -/
def unaligned (a : DWord) : Trouble := .stop 3 (some (addressed misaligned a 1))

/-- The bytes of a line written, where its address has an alignment (R295, R308). -/
def State.writeLine (s : State) (t : Team) (align : Nat) (a : DWord) (bs : List (DWord × Byte)) : State × Option Trouble :=
  if a.toNat % align ≠ 0 then (s, some (unaligned a)) else writeEach t bs s

/-- A block of an add into global memory (R309): updated in one step, or sent off as a ranked contribution. -/
def State.drainBlock (s : State) (t : Team) (m : MatrixEntry) (d : Drain) (tile block : Nat) : State × Option Trouble :=
  let k := s.slot t d.slot
  let w := storedBytes k.elem 1
  let es := d.inBlock t.matrix tile w block
  match es with
  | [] => (s, none)
  | (a, _) :: _ =>
    match es.find? (fun e => e.1.toNat % w != 0), s.enginePlace t a 1 with
    | some e, _ => (s, some (unaligned e.1))
    | none, .error x => (s, some x)
    | none, .ok place =>
      let base := place - a.toNat % 256
      if d.mode = 2 then
        (s.addMatrixOp t m a (.ranked t.ctx base (32 + k.elem) d.control 256 d.rank d.count (carriedBytes w base es)), none)
      else
        ((es.foldl (fun s e =>
          let p := base + e.1.toNat % 256
          s.writeNat p w (drainSum (match k.elem with
            | 0 => f32
            | 1 => bf16
            | _ => f16) d.control (s.readNat p w) e.2.toNat)) s).wakeAll, none)

/-- Piece i of a drain of a tile (R307 to R309). -/
def State.drainPiece (s : State) (t : Team) (m : MatrixEntry) (d : Drain) (tile i : Nat) : State × Option Trouble :=
  let k := s.slot t d.slot
  let tk := s.slot t d.tslot
  let w := storedBytes k.elem 1
  if s.addsGlobal t d then s.drainBlock t m d tile ((d.blocks w).getD i 0)
  else if d.mode ≠ 0 then
    let ft := match k.elem with
      | 0 => f32
      | 1 => bf16
      | _ => f16
    ((d.row t.matrix tile i).mapIdx fun j v => (d.rowAt i + BitVec.ofNat 64 (w * j), v)).foldl
      (fun (r : State × Option Trouble) e =>
        match r.2 with
        | some _ => r
        | none => r.1.addElement t ft d.control w e.1 e.2) (s, none)
  else if i < d.m then
    s.writeLine t (elementAlign k.elem) (d.rowAt i) (lineBytes t s.now k (d.rowAt i) d.sco i (d.row t.matrix tile i))
  else
    s.writeLine t (elementAlign tk.elem) (d.colAt (i - d.m))
      (lineBytes t s.now tk (d.colAt (i - d.m)) d.tsco (i - d.m) (d.column t.matrix tile (i - d.m)))

end Sys2Proof.Machine
end

