-- ==== Sys2Proof/Machine/Matrix.lean ====
section
/-! DEFINITION. The matrix instructions of major 0x1E (R299, R310, R314 to R321) and the events of the matrix engine (R292, R295,
R297, R302 to R305, R310). -/

namespace Sys2Proof.Machine

/-! ## MMA -/

/-- A span of a buffer an operation reads: buffer, offset, bytes, alignment (R299 step 5). -/
structure Span where
  buf : Nat
  off : Nat
  length : Nat
  align : Nat
  deriving DecidableEq, Repr

/-- The scratchpad extents an MMA reads. -/
def Multiply.spans (x : Multiply) (sa sb : Slot) : List Span :=
  (List.range x.m).map (fun i =>
      { buf := x.aBuf, off := x.aOff + i * x.aStr, length := storedBytes sa.elem x.k, align := 4 }) ++
    (List.range x.n).map (fun j =>
      { buf := x.bBuf, off := x.bOff + j * x.bStr, length := storedBytes sb.elem x.k, align := 4 }) ++
    (if sa.local' then
       [{ buf := sa.buffer, off := sa.offset + x.asco, length := x.m * (x.k / blockSize sa.kind), align := 1 }] else []) ++
    (if sb.local' then
       [{ buf := sb.buffer, off := sb.offset + x.bsco, length := x.n * (x.k / blockSize sb.kind), align := 1 }] else []) ++
    if x.aen then [{ buf := x.vecBuf, off := x.vecOff, length := 2 * x.m, align := 2 }] else []

/-- The first fault of some spans read by the matrix engine (R197, R200). -/
def spansFault (t : Team) (xs : List Span) : Option FaultInfo := xs.findSome? fun x =>
  match checkSpan t x.buf (x.off : Nat) x.length x.align .matrixRead with
  | .error i => some i
  | .ok _ => none

/-- The parameters of an MMA (R299 step 2). -/
def State.multiplyOk (s : State) (t : Team) (x : Multiply) : Bool :=
  decide (1 ≤ x.m ∧ x.m ≤ 128 ∧ 1 ≤ x.n ∧ x.n ≤ 256 ∧ 32 ≤ x.k ∧ x.k ≤ 16384) && x.k % 32 == 0 && x.aStr % 4 == 0 &&
    x.bStr % 4 == 0 && x.aOff % 4 == 0 && x.bOff % 4 == 0 &&
    (!x.aen || (x.vecOff % 2 == 0 && decide (s.classOf t x.tbase = .global) && x.tbase.toNat % 16384 == 0))

/-- Whether a buffer is a stream in state FULL (R313). -/
def Team.fullStream (t : Team) (b : Nat) : Bool := descKind (t.buffer b) == 1 && descState (t.buffer b) == 2

/-- One lane of MMA (R299, R315, R372). -/
def mmaLane (f : Fields) (e : Env) (j : Nat) (s : State) : State × LaneOut :=
  let o := e.offset f j
  if o % 128 ≠ 0 then (s, { fault := some { kind := misaligned, addr := BitVec.ofInt 64 o } })
  else
    match checkBlock e.t f.c.toNat o 128 128 with
    | .error i => (s, { fault := some i })
    | .ok offset =>
      let s := s.beforeRead e j offset 128
      let block := s.sliceBytes e.t.id offset 128
      let x := multiplyOf block
      let sa := s.slot e.t x.slotA
      let sb := s.slot e.t x.slotB
      if !s.multiplyOk e.t x then (s, { fault := some { kind := matrixParam } })
      else if (elementOf sa.elem).isNone || (elementOf sb.elem).isNone then
        (s, { fault := some { kind := formatSlotInvalid } })
      else if e.t.tiles ≤ x.tile then (s, { fault := some { kind := tileInvalid } })
      else
        match spansFault e.t (x.spans sa sb) with
        | some i => (s, { fault := some i })
        | none =>
          let holds := ((x.spans sa sb).map fun y => (e.t.id, y.buf)).eraseDups
          submitLane e j 5 (e.destPlaces j f.d false)
             (.matrix (.multiply block) true holds (e.t.fullStream x.aBuf && e.t.fullStream x.bBuf) none) s

/-- MMA (R315). -/
def execMma (f : Fields) (s : State) : Host.Outcome State Fault Refusal :=
  .next (runCore (.mma f) f (submissions (mmaLane f)) s)

/-! ## MZERO and MLOADA -/

/-- The body of MZERO, once per issue (R316). -/
def mzeroBody (f : Fields) : Body := fun e ls s =>
  match ls with
  | [] => (s, fun _ => {})
  | low :: _ =>
    let k := f.b.toNat
    if e.t.tiles ≤ k then (s, fun _ => { fault := some { kind := tileInvalid } })
    else
      let r := submitLane e low 5 [] (.matrix (.zero k) false [] false none) s
      (r.1, fun j => if j = low then r.2 else match r.2.flow with
        | .wait (.room q x) timer => { flow := .wait (.room q { x with work := .joined }) timer }
        | _ => r.2)

/-- MZERO (R316). -/
def execMzero (f : Fields) (s : State) : Host.Outcome State Fault Refusal :=
  .next (runCore (.mzero f) f (mzeroBody f) s)

/-- The buffer a tile is loaded from, or why not (R316): the 128 KiB at a slice offset lie in one declared buffer that the
matrix engine may read. -/
def loadBuffer (t : Team) (offset : Nat) (a : DWord) : Except FaultInfo Nat :=
  match t.bufferAt offset with
  | none => .error (bufferFault bufferState 0 0 .matrixRead offset a)
  | some b =>
    match checkSpan t b ((offset - descBase (t.buffer b) : Nat) : Int) 131072 4 .matrixRead with
    | .error i => .error { i with addr := a }
    | .ok _ => .ok b

/-- One lane of MLOADA (R316). -/
def mloadaLane (f : Fields) (e : Env) (j : Nat) (s : State) : State × LaneOut :=
  let a := e.address f j
  let accept (holds : List (Nat × Nat)) : State × LaneOut :=
    submitLane e j 5 (e.destPlaces j f.d false) (.matrix (.load f.b.toNat a) true holds false none) s
  let fromSlice (t : Team) (offset : Nat) : State × LaneOut :=
    match loadBuffer ((s.team? t.id).getD t) offset a with
    | .error i => (s, { fault := some i })
    | .ok b => accept [(t.id, b)]
  if e.t.tiles ≤ f.b.toNat then (s, { fault := some { kind := tileInvalid } })
  else
    match s.classOf e.t a with
    | .unused => (s, { fault := some (addressed addressFault a 0) })
    | c =>
      if a.toNat % 4 ≠ 0 then (s, { fault := some (addressed misaligned a 0) })
      else
        match c with
        | .scratchpad o => fromSlice e.t o
        | .window rank o =>
          match e.memberTeam rank with
          | .ok t => fromSlice t o
          | .error w => (s, { flow := .wait w none })
        | _ => accept []

/-- MLOADA (R316). -/
def execMloada (f : Fields) (s : State) : Host.Outcome State Fault Refusal :=
  .next (runCore (.mloada f) f (submissions (mloadaLane f)) s)

/-! ## MDRAIN -/

/-- The first fault of what a drain writes in scratchpad (R310 step 5). -/
def State.drainFault (s : State) (t : Team) (d : Drain) (k tk : Slot) : Option FaultInfo :=
  match (d.lines k tk).findSome? fun x => s.lineFault t x with
  | some i => some i
  | none => (d.scaleSpans k tk).findSome? fun e =>
      match checkSpan t e.1 (e.2.1 : Nat) e.2.2 1 .engineWrite with
      | .error i => some i
      | .ok _ => none

/-- The least scope of FENCE that waits for the blocks of a drain in an add mode homed at a place, for a thread on a core (R186). -/
def State.homeScope (s : State) (core place : Nat) : Nat :=
  if !s.isLocal place then 6 else if homeDie place = coreDie core then 4 else 5

/-- The least scope of FENCE that waits for a drain in an add mode (R186, R309): that of the nearest of its blocks, by where the
pages that are there now put them (log 30). -/
def State.addScope (s : State) (t : Team) (d : Drain) (w core : Nat) : Nat :=
  match s.classOf t d.dst with
  | .scratchpad _ => 2
  | .window _ _ => 3
  | _ => ((d.blocks w).map fun b => match s.translate t.ctx t.core none (BitVec.ofNat 64 (256 * b)) 1 with
      | .ok place _ => s.homeScope core place
      | _ => 4).foldl min 6

/-- One lane of MDRAIN (R310, R317). -/
def mdrainLane (f : Fields) (e : Env) (j : Nat) (s : State) : State × LaneOut :=
  let tile := f.a.toNat
  match checkBlock e.t f.c.toNat (e.offset f j) 64 64 with
  | .error i => (s, { fault := some i })
  | .ok offset =>
    let s := s.beforeRead e j offset 64
    let block := s.sliceBytes e.t.id offset 64
    let d := drainOf block
    let k := s.slot e.t d.slot
    let tk := s.slot e.t d.tslot
    if !s.drainOk e.t d k tk then (s, { fault := some { kind := matrixParam } })
    else if (elementOf k.elem).isNone || (d.transposed && (elementOf tk.elem).isNone) then
      (s, { fault := some { kind := formatSlotInvalid } })
    else if e.t.tiles ≤ tile then (s, { fault := some { kind := tileInvalid } })
    else
      match s.drainFault e.t d k tk with
      | some i => (s, { fault := some i })
      | none =>
        let holds := ((d.extents e.t k tk).flatMap fun x => (s.extentBuffers e.t x).map fun b => (b.1.id, b.2)).eraseDups
        submitLane e j 5 (e.destPlaces j f.d false) (.matrix (.drain tile block) true holds false
          (if d.mode = 0 then none else some (d.dst, s.addScope e.t d (storedBytes k.elem 1) e.g.core))) s

/-- MDRAIN (R317). -/
def execMdrain (f : Fields) (s : State) : Host.Outcome State Fault Refusal :=
  .next (runCore (.mdrain f) f (submissions (mdrainLane f)) s)

/-! ## Observation -/

/-- The number N ≤ SEQA whose low word is s (R318); 0 stands for one that lies before the first. -/
def numberOf (seqa low : Nat) : Nat := seqa - (seqa + 2 ^ 32 - low) % 2 ^ 32

/-- MWAIT (R318, R276). -/
def execMwait (f : Fields) (s : State) : Host.Outcome State Fault Refusal :=
  .next (runCore (.mwait f) f (seqBody f (fun e n => decide (n ≤ e.t.matrix.seqc))
    (fun e j => numberOf e.t.matrix.seqa (e.reg j f.b).toNat) fun n => .matrix n) s)

/-- The status word of MSEQ .st (R318). -/
def Matrix.status (x : Matrix) : Word :=
  BitVec.ofNat 32 (x.stat.toNat + 16 * natOf (!x.queue.isEmpty) +
    ((List.range 4).map fun t => 2 ^ (8 + t) * natOf (x.accord t).isSome).sum)

/-- MSEQ (R318). -/
def execMseq (f : Fields) (s : State) : Host.Outcome State Fault Refusal :=
  .next (runCore (.mseq f) f (perLane fun e j =>
    { writes := if modBit f 0 then e.setReg j f.d e.t.matrix.status
                else e.setPair j f.d (BitVec.ofNat 64 e.t.matrix.seqc) }) s)

/-! ## The accord cache -/

/-- A slice that APREF asks for brought into the issuing core's cache, where nothing of R319 stands in the way. -/
def State.prefetchSlice (s : State) (t : Team) (core : Nat) (tbase : DWord) (id origin : Nat) : State :=
  if tbase.toNat % 16384 ≠ 0 ∨ origin % 16384 ≠ 0 ∨ id = 0xFFFF then s
  else
    match s.memoryBytes { t with core } tbase 20 with
    | .error _ => s
    | .ok h =>
      let a : Accord := { m := 0, n := 0, ids := [], tbase, nids := field h 0 4, astride := field h 4 4, qoff := 0, kd := 0,
                          nd := 0, norg := 0, rank := 8, alpha := 0 }
      if a.nids ≤ id ∨ a.astride * 16384 ≤ origin then s
      else
        match (s.core core).accords.find? fun x => x.hasTag t.ctx tbase id origin && !x.dropped with
        | some x => s.touchSlice core x
        | none =>
          if 16 ≤ (s.core core).accords.length ∧ s.unusedSlices core = [] then s
          else match s.fetchSlice { t with core } tbase (a.entry id) id origin with
          | .error _ => s
          | .ok x => s.insertSlice core [] x

/-- APREF (R319). -/
def execApref (f : Fields) (s : State) : Host.Outcome State Fault Refusal :=
  .next (runCore (.apref f) f (fun e ls s =>
    (ls.foldl (fun s j =>
      s.prefetchSlice e.t e.g.core (e.pair j f.a) ((e.reg j f.b).toNat % 65536) f.imm.toNat) s, fun _ => {})) s)

/-- The body of AINV, once per issue with the operands of the lowest guarded lane (R320); the drop is an access of every guarded
lane. -/
def ainvBody (f : Fields) : Body := fun e ls s =>
  match ls with
  | [] => (s, fun _ => {})
  | low :: _ =>
    let mode := modBits f 0 2
    let uids := ((s.team? e.t.id).map fun t => t.matrix.queue.map fun m => m.uid).getD []
    let s := s.addOp e low none 0
      (.accordDrop mode (if mode = 0 then 0 else e.pair low f.a) ((e.reg low f.b).toNat % 65536) uids)
    ({ s with ops := s.ops.map fun o => if o.id + 1 = s.ids then { o with others := ls.drop 1 } else o }, fun _ => {})

/-- AINV (R320). -/
def execAinv (f : Fields) (s : State) : Host.Outcome State Fault Refusal :=
  .next (runCore (.ainv f) f (ainvBody f) s)

/-- The value AQRY reads (R321). -/
def aqryValue (f : Fields) (e : Env) (j : Nat) : Word :=
  match modBits f 0 2 with
  | 0 => e.t.matrix.repl
  | 1 => e.t.matrix.miss
  | _ =>
    let v := (e.reg j f.b).toNat
    BitVec.ofNat 32 (natOf ((e.s.core e.g.core).accords.any fun x =>
      x.hasTag e.t.ctx (e.pair j f.a) (v % 65536) (v / 65536 * 16384)))

/-- AQRY (R321). -/
def execAqry (f : Fields) (s : State) : Host.Outcome State Fault Refusal :=
  .next (runCore (.aqry f) f (perLane fun e j => { writes := e.setReg j f.d (aqryValue f e j) }) s)

/-! ## Stops -/

/-- The head operation of a queue stops with a status and a record (R295, R302): its tile's accord state is idle, and an MMA or
MLOADA leaves the tile unspecified. -/
def State.stopMatrix (s : State) (t : Team) (m : MatrixEntry) (status : Nat) (record : Option FaultInfo) : State :=
  let spoil (x : Matrix) (tile : Nat) : Matrix := (x.spoilTile tile s.now).setAccord tile none
  let left (x : Matrix) : Matrix := match m.work with
    | .multiply block => spoil x (multiplyOf block).tile
    | .load tile _ => spoil x tile
    | .zero tile => x.setAccord tile none
    | .drain tile _ => x.setAccord tile none
  let s := s.mapTeam t.id fun t => { t with matrix := left t.matrix }
  (s.stopQueue t.id 5 status 2 false record).releaseSlices t.core

/-- Trouble of the head operation (R295, R405): it waits for a page or a device, or the queue stops. -/
def State.matrixTrouble (s : State) (t : Team) (m : MatrixEntry) (x : Trouble) : State :=
  match x with
  | .stop status record => s.stopMatrix t m status record
  | .away place a => if s.lateFor t 5 place then s.stopMatrix t m 3 (some (unreachable a)) else s.awaits t 5 place
  | .delay va => s.trouble t 5 (.delay va)

/-- A breach of R301 or R302, or trouble with memory on the way. -/
def State.accordTrouble (s : State) (t : Team) (m : MatrixEntry) (x : Multiply) (e : AccordTrouble) : State :=
  match e with
  | .memory y => s.matrixTrouble t m y
  | .breach row id =>
    let tbase := if x.first then x.tbase else ((t.matrix.accord x.tile).map fun a => a.tbase).getD x.tbase
    s.stopMatrix t m 8 (some { kind := accordInvalid, addr := tbase, info := BitVec.ofNat 32 x.tile, aux := row,
                               aux2 := BitVec.ofNat 64 id })

/-! ## Start -/

/-- Whether the head operation of a team's queue may start now (R297, R362). -/
def State.matrixStartable (s : State) (t : Team) : Bool :=
  s.served t &&
    (match t.matrix.queue with
     | [] => false
     | m :: _ => !m.started &&
       (match m.work with
        | .multiply _ => !s.ops.any fun o => m.after.contains o.id
        | .load _ a => !s.unstarted t a
        | .zero _ => true
        | .drain _ block => !(s.unstarted t (drainOf block).dst || s.unstarted t (drainOf block).tdst)))

/-- Whether the matrix engine of a core turns to a team's queue now (R292): no operation of a team that it serves runs, and no
queue with an operation to start comes before it, counting up from the team slot whose turn it is. -/
def State.matrixTurnOf (s : State) (t : Team) : Bool :=
  let here := s.teams.filter fun x => x.core == t.core
  let place (x : Team) : Nat := turnDistance (s.core t.core).matrixTurn x.teamSlot
  s.matrixStartable t && !(here.any fun x => s.served x && x.matrix.queue.any fun m => m.started) &&
    here.all fun x => !s.matrixStartable x || decide (place t ≤ place x)

/-- The head operation of a queue is running from now on (R297). -/
def State.beginOperation (s : State) (t : Team) : State :=
  (s.mapCore t.core fun c => { c with matrixTurn := t.teamSlot + 1 }).mapOperation t.id fun m =>
    { m with started := true, begun := s.now, progress := s.clk.toNat, opened := false }

/-- The misses that rise as the fetches of an operation's missing slices go on (R305 steps 2 and 4): those of P slices, or, once
no P slice is missing, those of Q slices. -/
def Accord.missesNow (a : Accord) (x : Multiply) (missing : List (Nat × Nat)) : Nat :=
  let p := missing.filter fun e => !(a.rowsFor x e).1.isEmpty
  if p.isEmpty then missing.length else p.length

/-- MISS raised (R305). -/
def State.countMisses (s : State) (tid n : Nat) : State :=
  s.mapTeam tid fun t => { t with matrix := { t.matrix with miss := t.matrix.miss + BitVec.ofNat 32 n } }

/-- The accord state of an MMA opens or goes on (R302, R304, R305): the slices at hand are taken, the others are missing, the
rows that need them are masked, and their fetches count. -/
def State.startAccord (s : State) (t : Team) (x : Multiply) (a : Accord) : State :=
  let needs := a.needs x
  let hit (e : Nat × Nat) : Option Slice := (s.core t.core).accords.find? fun y => y.hasTag t.ctx a.tbase e.1 e.2 && !y.dropped
  let got := needs.filterMap hit
  let missing := needs.filter fun e => (hit e).isNone
  let s := s.mapTeam t.id fun t => { t with matrix := t.matrix.setAccord x.tile (some a) }
  let s := got.foldl (fun s y => s.touchSlice t.core y) s
  let rows := missing.flatMap fun e => (a.rowsFor x e).1 ++ (a.rowsFor x e).2
  (s.mapOperation t.id fun m =>
    { m with opened := true, got, missing,
             replay := rows.foldl (fun b i => b ||| BitVec.ofNat 128 (2 ^ i)) 0 }).countMisses t.id (a.missesNow x missing)

/-- An MMA starts (R299, R301, R302, R355). -/
def State.startMultiply (s : State) (t : Team) (m : MatrixEntry) (block : List Byte) : State :=
  let x := multiplyOf block
  match spansFault t (x.spans (s.slot t x.slotA) (s.slot t x.slotB)) with
  | some i => s.stopMatrix t m 3 (some i)
  | none =>
    if !x.aen then (s.beginOperation t).sampleStart t m x none else s.beginOperation t

/-- The accord state of a running MMA comes to hand, at a moment of its own since the start (R297, R301, R302). -/
def State.openMultiply (s : State) (t : Team) (m : MatrixEntry) (x : Multiply) : State :=
  match s.accordFor t m.begun x with
  | .error e => s.accordTrouble t m x e
  | .ok a => (s.startAccord t x a).sampleStart t m x (some a)

/-- Whether a running operation has its accord state still to come. -/
def MatrixEntry.unopened (m : MatrixEntry) : Bool :=
  match m.work with
  | .multiply block => m.started && !m.opened && (multiplyOf block).aen
  | _ => false

/-- MATRIX_OP_START (R201, R292, R295, R299): the head operation of a team's queue starts, its buffer states judged again. -/
def execMatrixOpStart (team : Nat) (s : State) : Host.Outcome State Fault Refusal :=
  match s.team? team with
  | none => .next s
  | some t =>
    match t.matrix.queue with
    | [] => .next s
    | m :: _ =>
      if !s.matrixTurnOf t then .next s
      else
        match m.work with
        | .multiply block => .next (s.startMultiply t m block)
        | .zero _ => .next (s.beginOperation t)
        | .load _ a =>
          match s.extentFault t { address := a, length := 131072, access := .matrixRead } with
          | some i => .next (s.stopMatrix t m 3 (some i))
          | none => .next (s.beginOperation t)
        | .drain _ block =>
          let d := drainOf block
          let xs := d.extents t (s.slot t d.slot) (s.slot t d.tslot)
          match s.extentsFault t xs with
          | some i => .next (s.stopMatrix t m 3 (some i))
          | none => .next (m.holds.foldl (fun s b => s.startFill b.1 b.2) (s.beginOperation t))

/-! ## End -/

/-- An operation leaves the queue (R292, R310): its buffers are free, SEQC takes its number, and its unpublished shadow lines
become the queue's. -/
def State.endMatrix (s : State) (t : Team) (m : MatrixEntry) : State :=
  let s := s.mapTeam t.id fun t =>
    let x := (t.matrix.queue.head?).elim t.matrix t.matrix.takeShadow
    { t with matrix := { x with queue := t.matrix.queue.drop 1, stat := 0,
                                       seqc := if m.number = 0 then t.matrix.seqc else m.number } }
  (((s.updateEng m.holds).endDrains [m.uid]).releaseSlices t.core).wakeAll

/-- The elements that MLOADA loads: 128 rows of 256 words (R316). -/
def State.loadElements (s : State) (t : Team) (tile : Nat) (a : DWord) : Except Trouble (List (Nat × Word)) :=
  (s.engineBytes t a 131072).map fun bs =>
    (pieces bs.length 4 bs).mapIdx fun i w => (32768 * tile + i, BitVec.ofNat 32 (leNat w))

/-- An MMA whose slices are all at hand ends (R300, R303, R305, R355). -/
def State.endMultiply (s : State) (t : Team) (m : MatrixEntry) (block : List Byte) : State :=
  let x := multiplyOf block
  match s.operands t (some m.begun) x m.got with
  | .error e => s.matrixTrouble t m e
  | .ok o =>
    let after := t.matrix.multiplied x (s.slot t x.slotA) (s.slot t x.slotB) o
    let s := s.mapTeam t.id fun t => { t with matrix := { t.matrix with tiles := after.tiles, accords := after.accords } }
    (s.sampleEnd t m block x o after).endMatrix t m

/-- MATRIX_OP_END (R300, R303, R316): an MMA, MZERO or MLOADA ends. -/
def matrixEndEvent (team : Nat) (s : State) : Host.Outcome State Fault Refusal :=
  match s.team? team with
  | none => .next s
  | some t =>
    match t.matrix.queue with
    | [] => .next s
    | m :: _ =>
      if !m.started || !s.served t || m.unopened || !m.missing.isEmpty then .next s
      else
        match m.work with
        | .multiply block => .next (s.endMultiply t m block)
        | .zero tile =>
          .next ((s.mapTeam team fun t => { t with matrix := (t.matrix.clearTile tile).setAccord tile none }).endMatrix t m)
        | .load tile a =>
          match s.loadElements t tile a with
          | .error e => .next (s.matrixTrouble t m e)
          | .ok es =>
            let load (x : Matrix) : Matrix := (x.setElements es).setAccord tile none
            .next ((s.mapTeam team fun t => { t with matrix := load t.matrix }).endMatrix t m)
        | .drain _ _ => .next s

/-- ACCORD_SLICE_ARRIVE (R302, R305): the accord state comes to hand; then the first missing slice arrives, the rows that need
it are replayed, and those that miss nothing more leave the mask (log 32). -/
def sliceArriveEvent (team : Nat) (s : State) : Host.Outcome State Fault Refusal :=
  match s.team? team with
  | none => .next s
  | some t =>
    match t.matrix.queue with
    | [] => .next s
    | m :: _ =>
      match m.missing, m.work with
      | [], .multiply block => if m.unopened && s.served t then .next (s.openMultiply t m (multiplyOf block)) else .next s
      | e :: rest, .multiply block =>
        let x := multiplyOf block
        match t.matrix.accord x.tile with
        | none => .next s
        | some a =>
          if !s.served t then .next s
          else
            match s.fetchSlice t a.tbase (a.entry e.1) e.1 e.2 with
            | .error y => .next (s.matrixTrouble t m y)
            | .ok y =>
              let rows := a.rowsFor x e
              let left := rest.flatMap fun e => (a.rowsFor x e).1 ++ (a.rowsFor x e).2
              let count := rows.1.length + rows.2.length
              let s := s.insertSlice t.core m.got y
              let s := s.mapOperation team fun m =>
                { m with got := m.got ++ [y], missing := rest, progress := s.clk.toNat,
                         replay := left.foldl (fun b i => b ||| BitVec.ofNat 128 (2 ^ i)) 0 }
              let fetches := if rows.1.isEmpty || rest.any fun e => !(a.rowsFor x e).1.isEmpty then 0 else a.missesNow x rest
              .next ((s.mapTeam team fun t => { t with matrix := { t.matrix with
                repl := t.matrix.repl + BitVec.ofNat 32 count } }).countMisses team fetches)
      | _, _ => .next s

/-! ## The end of a drain -/

/-- The slice offset just past the last byte an extent list writes into a buffer. -/
def State.lastWritten (s : State) (t : Team) (xs : List Extent) (b : Nat × Nat) : Nat :=
  (xs.filterMap fun x => (s.sliceOf t x.address).bind fun p =>
    if p.1.id = b.1 ∧ (p.1.buffersIn p.2 x.length).contains b.2 then some (p.2 + x.length) else none).foldl max 0

/-- What a drain does once everything is written (R308, R310 steps 1 and 2): streams, the buffers it held, CLR, SAT. R160 and
R308 set SAT and SATA when the drain ends and name none of R310's steps; the model sets them here, before publication, arrival
and SEQC (DESIGN CHOICE, log 45). -/
def State.settleDrain (s : State) (t : Team) (m : MatrixEntry) (d : Drain) (tile : Nat) : State :=
  let k := s.slot t d.slot
  let tk := s.slot t d.tslot
  let xs := d.extents t k tk
  let s := m.holds.foldl (fun s b => s.endFill b.1 b.2 (s.lastWritten t xs b)) s
  let s := (s.mapOperation t.id fun m => { m with holds := [], done := s.drainPieces t d + 1 }).updateEng m.holds
  let region := (List.range d.m).flatMap fun i => (List.range d.n).map fun j =>
    (tileKey tile (d.row0 + i) (d.col0 + j), (0 : Word))
  let s := if d.clr then s.mapTeam t.id fun t => { t with matrix := t.matrix.setElements region } else s
  if d.mode ≠ 0 then s
  else
    let main := d.saturates t.matrix tile k true
    let other := d.transposed && d.saturates t.matrix tile tk false
    (s.saturate m.gid main k.arm).saturate m.gid other tk.arm

/-- The last steps of a drain (R310 steps 4 and 5). -/
def State.finishDrain (s : State) (t : Team) (m : MatrixEntry) (d : Drain) : State :=
  (if d.arrv then s.engineArrive t d.barw else s).endMatrix t m

/-- MATRIX_DRAIN_END (R307 to R310, R312): the next piece of a drain, then its end: streams, CLR, publication, arrival, SEQC.
The blocks of an add drain, which R309 leaves in any order, come in ascending order of the list Drain.blocks (DESIGN CHOICE, log
32). -/
def drainPieceEvent (team : Nat) (s : State) : Host.Outcome State Fault Refusal :=
  match s.team? team with
  | none => .next s
  | some t =>
    match t.matrix.queue with
    | [] => .next s
    | m :: _ =>
      match m.work with
      | .drain tile block =>
        let d := drainOf block
        let n := s.drainPieces t d
        if !m.started || !s.served t then .next s
        else if m.done < n then
          match s.drainPiece t m d tile m.done with
          | (r, none) =>
            let last := decide (m.done + 1 = n)
            let r := r.mapOperation team fun m => { m with done := m.done + 1, progress := s.clk.toNat, sent := last }
            .next (if last then (r.settleAdds team).wakeAll else r)
          | (r, some (.stop status record)) => .next (r.stopMatrix t m status record)
          | (_, some x) => .next (s.matrixTrouble t m x)
        else if m.done = n then
          if s.contributing team then .next s
          else
            let s := (s.settleAdds team).settleDrain t m d tile
            if d.apub then .next (s.mapOperation team fun m => { m with publishing := some 0 }) else .next (s.finishDrain t m d)
        else
          match m.publishing with
          | some u => if u ≠ 0 ∧ s.unitApplied u true then .next (s.finishDrain t m d) else .next s
          | none => .next s
      | _ => .next s

end Sys2Proof.Machine
end

