-- ==== Sys2Proof/Machine/Ready.lean ====
section
/-! DEFINITION. Ready reporting (R34 to R37), and the writes of registers' bits that follow from it. -/

namespace Sys2Proof.Machine

/-! ## Ready and fail bits -/

/-- The bit of a function in READY_A and FAIL_A (false) or READY_B and FAIL_B (true); none for a number no function has (R34). -/
def functionBit (fn : Function) : Option (Bool × Nat) :=
  let at' (n limit base : Nat) (b : Bool) : Option (Bool × Nat) := if n < limit then some (b, base + n) else none
  match fn with
  | .sect n => at' n 16 0 false
  | .hbm n => at' n 8 16 false
  | .msc d => at' d 4 32 false
  | .keyt d => at' d 4 36 false
  | .clnk n => at' n 24 32 true
  | .cfg => some (true, 9)
  | .secb => some (true, 8)
  | .hearth => some (true, 7)
  | .hqt => some (true, 6)
  | .coll => some (true, 5)
  | .migr => some (true, 4)
  | .peat => some (true, 3)
  | .cxlm => some (true, 2)
  | .cxlc => some (true, 1)
  | .cxlio => some (true, 0)

/-- Bit i of a register set or cleared. -/
def setBit (v : DWord) (i : Nat) (b : Bool) : DWord :=
  let m : DWord := BitVec.ofNat 64 (2 ^ i)
  if b then v ||| m else v &&& ~~~m

/-- Whether a function is in service (R34). -/
def Hub.isReady (h : Hub) (fn : Function) : Bool :=
  match functionBit fn with
  | some (b, i) => (if b then h.readyB else h.readyA).getLsbD i
  | none => false

/-- Whether a function has failed or been retired (R34). -/
def Hub.hasFailed (h : Hub) (fn : Function) : Bool :=
  match functionBit fn with
  | some (b, i) => (if b then h.failB else h.failA).getLsbD i
  | none => false

/-- The CORESVC bits of a sector (R15, R384). -/
def sectorMask (n : Nat) : BitVec 192 :=
  (List.range 192).foldl (fun (v : BitVec 192) c => if coreSector c = n then v ||| BitVec.ofNat 192 (2 ^ c) else v) 0

/-- The ready bit of a function; with a sector's, its cores are out of service (R384). -/
def Hub.setReady (h : Hub) (fn : Function) (v : Bool) : Hub :=
  let h := match fn with
    | .sect n => if v then h else { h with coresvc := h.coresvc &&& ~~~(sectorMask n) }
    | _ => h
  match functionBit fn with
  | some (true, i) => { h with readyB := setBit h.readyB i v }
  | some (false, i) => { h with readyA := setBit h.readyA i v }
  | none => h

/-- The functions whose ready bits read 0 while that of a function does (R35). -/
def functionDependents (fn : Function) : List Function :=
  match fn with
  | .msc d => (List.range 4).map fun i => .sect (4 * d + i)
  | .cxlio => [.hqt]
  | .cfg => [.hearth]
  | _ => []

/-- The function on which a function's ready bit depends (R35). -/
def functionRequires (fn : Function) : List Function :=
  match fn with
  | .sect n => [.msc (n / 4)]
  | .hqt => [.cxlio]
  | .hearth => [.cfg]
  | _ => []

/-- A function out of service, with those that depend on it (R35). -/
def Hub.withdraw (h : Hub) (fn : Function) : Hub :=
  (fn :: functionDependents fn).foldl (fun h g => h.setReady g false) h

/-- A function that has failed or is retired (R34): the ready bit reads 0 and the fail bit 1. -/
def Hub.fail (h : Hub) (fn : Function) : Hub :=
  let h := h.withdraw fn
  match functionBit fn with
  | some (true, i) => { h with failB := setBit h.failB i true }
  | some (false, i) => { h with failA := setBit h.failA i true }
  | none => h

/-- Whether the full self-test holds a function back (R360). -/
def underFullTest (fn : Function) : Bool :=
  match fn with
  | .sect _ => true
  | .hbm _ => true
  | .peat => true
  | .hearth => true
  | _ => false

/-- The firmware image that runs, or is to run (R406). -/
def State.firmware (s : State) : List Byte := s.host.image.getD Config.firstImage

/-- Whether an image verifies and is not older than the key store's counter (R406). -/
def State.imageGood (s : State) (image : List Byte) : Bool :=
  Config.signatureValid image && decide (s.host.counter ≤ Config.imageVersion image)

def State.firmwareGood (s : State) : Bool := s.imageGood s.firmware

/-- FWSVN: the security version of the running firmware (R384, R406); 0 while none is accepted. -/
def State.runningVersion (s : State) : BitVec 8 :=
  if s.firmwareGood then BitVec.ofNat 8 (Config.imageVersion s.firmware) else 0

/-- A staged image is the one to run from here on, if it still verifies (R406). -/
def State.activate (s : State) : State :=
  match s.host.staged with
  | none => s
  | some b => { s with host := { s.host with staged := none, image := if s.imageGood b then some b else s.host.image } }

/-- Whether a function may become ready (R34 to R36, R360, R390). -/
def State.mayBeReady (s : State) (fn : Function) : Bool :=
  s.plat.power && (functionBit fn).isSome && !s.hub.hasFailed fn && (functionRequires fn).all s.hub.isReady &&
    !(s.plat.fullTest && underFullTest fn) && !(s.host.restarting && fn == .hearth) &&
    (match fn with
     | .cfg => Config.recordValid
     | .hearth => s.firmwareGood
     | .sect n => !(s.sector n).testing && !(s.sector n).fenced &&
         (List.range 192).any fun c => coreSector c == n && !(s.core c).retired
     | _ => true)

/-- The bits of CORESVC of a sector's cores: those that are not retired (R384). -/
def State.coresOf (s : State) (n : Nat) : BitVec 192 :=
  (List.range 192).foldl (fun (v : BitVec 192) c =>
    if coreSector c = n ∧ !(s.core c).retired then v ||| BitVec.ofNat 192 (2 ^ c) else v) 0

/-- A Cordlink port has trained (R405): its ready bit reads 1. -/
def State.trainPort (s : State) (port : Nat) : State :=
  if 24 ≤ port ∨ s.hub.hasFailed (.clnk port) ∨ !s.plat.power then s
  else
    { s with ports := sput .untrained s.ports port .trained, hub := s.hub.setReady (.clnk port) true }.wakeAll

/-- A function becomes ready (R34): a sector's cores with it, and what waits for a home goes on (R37). -/
def State.becomeReady (s : State) (fn : Function) : State :=
  if !s.mayBeReady fn then s
  else
    match fn with
    | .clnk n => s.trainPort n
    | .sect n => { s with hub := { s.hub.setReady fn true with coresvc := s.hub.coresvc ||| s.coresOf n } }.wakeAll
    | .cxlio => { s with hub := s.hub.setReady fn true, plat := { s.plat with cxlTraining := false } }.wakeAll
    | _ => { s with hub := s.hub.setReady fn true }.wakeAll

/-- The access code of an access that has failed at its home (R339): a .live load reads, a ranked drain writes, the others are
atomics. -/
def Op.accessCode (o : Op) : Nat :=
  match o.access with
  | .live _ _ _ _ => 0
  | .ranked _ _ op _ _ _ _ _ => if op < 32 then 3 else 1
  | _ => 3

/-- The accesses on their way to a home that has failed complete with an error (R37, R19): their results have no value, and a
record carries the address. -/
def State.failAccesses (s : State) : State :=
  let lost := s.ops.filter fun o => match o.homeSpan with
    | some (p, _) => decide (s.home p = .failed)
    | none => false
  (lost.foldl (fun s o =>
    let s := (s.dropOp o.id).deliverFree o
    match s.team? o.team with
    | some t => s.addRecord (s.opRecord o t { kind := accessViolation, addr := o.va, info := BitVec.ofNat 32 o.accessCode })
    | none => s) s).wakeAll

/-- A function fails or is retired: accesses it was to serve end with an error (R34, R37). -/
def State.failFunction (s : State) (fn : Function) : State :=
  let s := { s with hub := s.hub.fail fn }
  let s := match fn with
    | .clnk n => if n < 24 then { s with ports := sput .untrained s.ports n .failed } else s
    | _ => s
  s.failAccesses

/-- FUNCTION_READY (R34 to R36, R406); for CXL.io also the end of a retraining of the CXL link (R30) (log 39). -/
def execFunctionReady (fn : Function) (s : State) : Host.Outcome State Fault Refusal := .next (s.becomeReady fn)

/-- FUNCTION_FAIL (R34): a function's self-test has failed. -/
def execFunctionFail (fn : Function) (s : State) : Host.Outcome State Fault Refusal :=
  if s.plat.power then .next (s.failFunction fn) else .next s

/-- A core retired (R36): its sector stays ready while a core of it is in service; without one the ready bit reads 0 and the
fail bit stays as it is (DESIGN CHOICE, log 37). -/
def State.retireCore (s : State) (c : Nat) : State :=
  if 192 ≤ c then s
  else
    let s := s.mapCore c fun k => { k with retired := true }
    let s := { s with hub := { s.hub with coresvc := s.hub.coresvc &&& ~~~(BitVec.ofNat 192 (2 ^ c)) } }
    let n := coreSector c
    if (List.range 192).any fun k => coreSector k == n && !(s.core k).retired then s
    else { s with hub := s.hub.withdraw (.sect n) }

/-- A 4 KiB page of HBM or the peat tier retired (R2, R384): it is an invalid mapping from now on (R383). -/
def State.retirePage (s : State) (pa : Nat) : State :=
  let frame := pa / 4096 * 4096
  if s.hub.retired.contains frame ∨ !(decide (targetOf frame = .hbm ∨ targetOf frame = .peat)) then s
  else { s with hub := { s.hub with retired := s.hub.retired ++ [frame], pageret := s.hub.pageret + 1 } }

/-- FUNCTION_RETIRED (R2, R36): firmware retires a function, a core or a page. -/
def execFunctionRetired (unit : RetiredUnit) (s : State) : Host.Outcome State Fault Refusal :=
  match unit with
  | .function fn =>
    let s := s.failFunction fn
    match functionBit fn with
    | some (true, i) => .next { s with hub := { s.hub with retB := setBit s.hub.retB i true } }
    | some (false, i) => .next { s with hub := { s.hub with retA := setBit s.hub.retA i true } }
    | none => .next s
  | .core c => .next (s.retireCore c)
  | .page pa => .next (s.retirePage pa.toNat)

/-! ## The freeze request -/

/-- The test port updated. -/
def State.mapTest (s : State) (f : TestPort → TestPort) : State := { s with test := f s.test }

/-- A freeze is requested, unless the package is frozen already (R28, R29). -/
def TestPort.request (t : TestPort) : TestPort := if t.frozen then t else { t with requested := true }

end Sys2Proof.Machine
end

