-- ==== Sys2Proof/Machine/Preempt.lean ====
section
/-! DEFINITION. Pre-emption (R362), the swap of contexts (R363), and in-field self-test (R357 to R359). -/

namespace Sys2Proof.Machine

/-! ## The scope of a pre-emption -/

/-- Whether a pre-emption concerns a team: one that is on a core of its scope, or in a context of its partition (R357, R362). -/
def State.preempts' (s : State) (p : Purpose) (t : Team) : Bool :=
  !decide (t.exit = .gone) && !t.relaunch && !(s.ctx t.ctx).swapped &&
    (match p with
     | .test n => coreSector t.core == n
     | .swap partition _ _ => (s.ctx t.ctx).partition == partition
     | .brown => true)

/-- The cores whose collectors report (R362). -/
def State.preemptCores (s : State) (p : Purpose) : List Nat :=
  (List.range 192).filter fun c => match p with
    | .test n => coreSector c == n
    | .swap partition _ _ => bitOf (s.partitionMask partition) (coreSector c)
    | .brown => true

/-- Whether a team is to stand still for a pre-emption under way or for its context, halted or swapped out (R342, R362,
R363). -/
def State.heldStill (s : State) (t : Team) : Bool :=
  (s.ctx t.ctx).halted || (s.ctx t.ctx).swapped || s.preempts.any fun p => decide (p.stage ≠ .requested) && s.preempts' p.purpose t

/-- The teams with a property go on where nothing holds them still. -/
def State.releaseTeams (s : State) (which : Team → Bool) : State :=
  let free (t : Team) : Team := if which t then { t with stopped := s.heldStill t } else t
  { s with teams := s.teams.map free }

/-- The first pre-emption at a stage, with its place in the list. -/
def State.preemptAt (s : State) (ok : Preempt → Bool) : Option (Nat × Preempt) :=
  ((s.preempts.mapIdx fun i p => (i, p)).find? fun e => ok e.2)

/-- A pre-emption at its next stage. -/
def State.setStage (s : State) (i : Nat) (p : Preempt) (g : PreemptStage) : State :=
  { s with preempts := s.preempts.set i { p with stage := g } }

/-- PREEMPTION (R362): every engine class of the scope stops at its unit; audit samples are abandoned. -/
def execPreemption (s : State) : Host.Outcome State Fault Refusal :=
  match s.preemptAt fun p => decide (p.stage = .requested) with
  | none => .next s
  | some (i, p) =>
    let stop (t : Team) : Team := if s.preempts' p.purpose t then { t with stopped := true } else t
    .next (({ s with teams := s.teams.map stop }.setStage i p .stopping).abandonSamples (s.preemptCores p.purpose))

/-- Whether every long operation of the teams of a pre-emption has been drained, and every trap entry is done (R59, R362). -/
def State.quiet (s : State) (p : Purpose) : Bool :=
  s.teams.all fun t => !s.preempts' p t || (s.teamGroups t.id).all fun g =>
    g.live.all fun j => (g.lane j).drained && (g.lane j).faulting.isNone && (match (g.lane j).status with
      | .waiting (.handler _ _ _) => false
      | _ => true)

/-! ## Placing a stopped team -/

/-- The slots of a stopped team's resident groups on a core (R20, R238), the quarter in which its group 0 stood tried first. -/
def State.restoreSlots (s : State) (t : Team) (core : Nat) : Option (List (Nat × Nat)) :=
  let gs := (s.teamGroups t.id).filter fun g => g.resident
  if s.memberOn t core || !s.coreRoom core t.sliceSize t.allotment t.tiles then none
  else [(gs.head?.map Group.firstQuarter).getD 0, 0, 1, 2, 3].findSome? fun q =>
    s.placeGroups core q (gs.map fun g => (g.grp, g.budget))

/-- A stopped team on a core, with its view dropped; the resume embers of its saved groups follow it to its sector. -/
def State.restoreTeam (s : State) (t : Team) (core : Nat) (slots : List (Nat × Nat)) : State :=
  let gs := ((s.teamGroups t.id).filter fun g => g.resident).zip slots
  let s := gs.foldl (fun s e => s.mapGroup e.1.id fun g =>
    { g with core := core, quarter := e.2.1, slot := e.2.2, age := s.clk.toNat }) s
  let saved (id : Nat) : Bool := s.groups.any fun g => g.team == t.id && g.id == id
  let follows (e : Ember) : Bool := e.sector != coreSector core && (match e.kind with
    | .resume gid => saved gid
    | _ => false)
  let move (s : State) (e : Ember) : State :=
    s.standEmber { e with sector := coreSector core, place := s.queuePlace e.ctx (coreSector core) }
  let first := ((s.groups.find? fun g => g.team == t.id && g.resident && !g.ended).map Group.firstQuarter)
  let away (g : Group) : Group :=
    if g.team = t.id ∧ !g.resident then
      { g with core := core, quarter := (first.map fun q => (q + g.grp) % 4).getD g.quarter }
    else g
  let s := (s.embers.filter follows).foldl move
    { s with embers := s.embers.filter fun e => !follows e, groups := s.groups.map away }
  let place := s.freeTeamSlot core
  (s.mapTeam t.id fun t => { t with core := core, sector := coreSector core, teamSlot := place, view := [] }).visit (coreSector core) t.ctx

/-- A team without a core, while the cores for several are being found. -/
def State.uproot (s : State) (tid : Nat) : State :=
  (s.mapTeam tid fun t => { t with core := 192 }).mapGroups fun g => if g.team = tid then { g with core := 192 } else g

/-- Teams restored one after another, each on the first of its cores with room; none where one finds no room. -/
def State.restoreAll (s : State) (ts : List Team) (cores : Team → List Nat) : Option State :=
  let s := ts.foldl (fun s t => s.uproot t.id) s
  ts.foldl (fun r t =>
    match r with
    | none => none
    | some s => (cores t).findSome? fun c => (s.restoreSlots t c).map fun sl => s.restoreTeam t c sl) (some s)

/-! ## Self-test -/

/-- The partition of a sector, if it is in one (R395). -/
def State.sectorPartition (s : State) (n : Nat) : Option Nat :=
  (List.range 16).find? fun p => bitOf (s.partitionMask p) n

/-- The other sectors in service of a sector's partition. -/
def State.otherSectors (s : State) (n : Nat) : List Nat :=
  match s.sectorPartition n with
  | none => []
  | some p => (s.partitionSectors p).filter fun k => k != n

/-- Sixty seconds of real time in nanoseconds. -/
def minute : Nat := 60000000000

/-- Whether the in-field test of a sector is due (R357, R373): its turn has come after the interval of STCTL, or STEST has asked
for it. -/
def State.testDue (s : State) (n : Nat) : Bool :=
  let c := s.sector n
  let interval := bitsOf s.hub.stctl.toNat 0 16
  n < 16 && s.sectorReady n && !c.testing && !(s.sectors.any fun e => e.2.testing) &&
    (c.request || (interval != 0 && decide (c.tested + interval * minute ≤ s.real) &&
      ((s.sectorPartition n).isNone || !(s.otherSectors n).isEmpty)))

/-- SELF_TEST_INTERVAL (R357): the sector takes no more work, and its teams are to be pre-empted. -/
def execSelfTestInterval (sector : Nat) (s : State) : Host.Outcome State Fault Refusal :=
  if !s.testDue sector then .next s
  else
    let s := s.mapSector sector fun c => { c with testing := true, request := false }
    .next { s with preempts := s.preempts ++ [{ purpose := .test sector }] }

/-- A sector evacuated for its test (R357): each team on a core of another sector with room; where its partition has no other
sector in service they stand still until the test ends. Then its ready bit reads 0 (log 37). -/
def State.evacuate (s : State) (i n : Nat) : State :=
  let ts := s.teams.filter (s.preempts' (.test n))
  let others := s.otherSectors n
  let cores := (List.range 192).filter fun c =>
    others.contains (coreSector c) && s.coreOpen ((s.sectorPartition n).getD 0) c none
  let moved := if others.isEmpty then some s else s.restoreAll ts fun _ => cores
  match moved with
  | none => s
  | some s =>
    let s := { s with preempts := s.preempts.eraseIdx i, hub := s.hub.setReady (.sect n) false }
    let s := s.mapSector n fun c => { c with result := 3 }
    if others.isEmpty then s else s.releaseTeams fun t => ts.any fun x => x.id == t.id

/-- PREEMPTION_COMPLETE (R362): every collector has reported. -/
def execPreemptionComplete (s : State) : Host.Outcome State Fault Refusal :=
  match s.preemptAt fun p => decide (p.stage = .stopping) && s.quiet p.purpose with
  | none => .next s
  | some (i, p) =>
    match p.purpose with
    | .test n => .next (s.evacuate i n)
    | _ => .next (s.setStage i p .complete)

/-- The SuspectOutput record of a commit log entry (R359). -/
def suspectRecord (e : LogEntry) (clk : DWord) : ErrorRecord :=
  { ctx := e.ctx, kind := kindWord suspectOutput 0 true false, addr := e.low, info := BitVec.ofNat 32 e.devices.length,
    team := BitVec.ofNat 32 e.team, time := clk, aux := e.high,
    aux2 := BitVec.ofNat 64 (e.devices.getD 0 0 * 2 ^ 40 + e.devices.getD 1 0 * 2 ^ 20 + e.devices.getD 2 0) }

/-- The records a failed test writes (R359): one for each entry since the last pass, and where the log has wrapped since, one for
each context that had a team in the sector. -/
def Sector.suspects (c : Sector) (clk : DWord) : List ErrorRecord :=
  ((c.log.filter fun e => decide (c.passSeq ≤ e.lseq)).map fun e => suspectRecord e clk) ++
    (if c.lseq - c.passSeq ≤ 4096 then []
     else c.visitors.map fun x => { ctx := x, kind := kindWord suspectOutput 0 true false, info := 0x80000000#32,
                                    time := c.lastPass })

/-- The contexts with a team in a sector. -/
def State.contextsIn (s : State) (n : Nat) : List Nat :=
  ((s.teams.filter fun t => coreSector t.core == n && !decide (t.exit = .gone)).map fun t => t.ctx).eraseDups

/-- SELF_TEST_END (R357, R359): a sector that passes is back in service; one that fails is fenced, and what it has written is
reported as suspect (log 37). -/
def execSelfTestEnd (sector : Nat) (pass : Bool) (s : State) : Host.Outcome State Fault Refusal :=
  let c := s.sector sector
  if !c.testing ∨ c.result ≠ 3 then .next s
  else if pass then
    let s := s.mapSector sector fun c =>
      { c with testing := false, result := 1, lastPass := s.clk, passSeq := c.lseq, visitors := s.contextsIn sector,
               tested := s.real }
    .next ((s.becomeReady (.sect sector)).releaseTeams fun t => coreSector t.core == sector)
  else
    let s := s.mapSector sector fun c => { c with testing := false, fenced := true, result := 2, tested := s.real }
    let s := s.failFunction (.sect sector)
    .next { s with records := s.records ++ c.suspects s.clk }

/-! ## Context swap -/

/-- SWO of every host queue as its context stands (R391). -/
def State.updateSwo (s : State) : State :=
  let fix (qs : Sparse HostQueue) (n : Nat) : Sparse HostQueue :=
    let q : HostQueue := sget {} qs n
    let out := (s.ctx q.ctx.toNat).swapped
    if q.swo = out then qs else sput {} qs n { q with swo := out }
  { s with host := { s.host with queues := (List.range 1024).foldl fix s.host.queues } }

/-- Contexts out of the machine (R363): their views are dropped, everything else stays as it is. -/
def State.swapOut (s : State) (cs : List Nat) : State :=
  let s := cs.foldl (fun s c => s.mapCtx c fun x => { x with swapped := true }) s
  let away (t : Team) : Team := if cs.contains t.ctx then { t with view := [], stopped := true } else t
  { s with teams := s.teams.map away }.updateSwo

/-- The teams of a context that need a core. -/
def State.placedTeams (s : State) (c : Nat) : List Team :=
  s.teams.filter fun t => t.ctx == c && !decide (t.exit = .gone) && !t.relaunch

/-- A context back in the machine (R363): each team on its own core, or on another one of the partition with room; none where
they do not all fit. One that is not out stays as it is. -/
def State.swapIn (s : State) (c : Nat) : Option State :=
  let p := (s.ctx c).partition
  let out := (s.ctx c).swapped
  let s := s.mapCtx c fun x => { x with swapped := false }
  let cores (t : Team) : List Nat :=
    (t.core :: List.range 192).filter fun k => bitOf (s.partitionMask p) (coreSector k) && s.coreInService k &&
      s.sectorReady (coreSector k)
  if out then (s.restoreAll (s.placedTeams c) cores).map State.updateSwo else some s.updateSwo

/-- The status of the mailbox's command, after its results; the doorbell is cleared (R395). -/
def State.mailboxDone (s : State) (status : Nat) : State :=
  let put (m : Sparse Byte) (offset n v : Nat) : Sparse Byte := sputAll 0 m ((leBytes n v).mapIdx fun i b => (offset + i, b))
  { s with host := { s.host with mailbox := put (put s.host.mailbox 4 4 status) 0xFF8 8 0 } }

/-- A pre-emption that is over leaves the list, and the teams it held still go on. -/
def State.endPreempt (s : State) (i : Nat) : State := { s with preempts := s.preempts.eraseIdx i }.releaseTeams fun _ => true

/-- CONTEXT_SWAP_DONE (R363, R410): one context is out and another in, or every context is out for the loss of supply. -/
def swapEvent (s : State) : Host.Outcome State Fault Refusal :=
  match s.preemptAt fun p => decide (p.stage = .complete) with
  | none => .next s
  | some (i, p) =>
    match p.purpose with
    | .test _ => .next s
    | .swap _ out into =>
      match (s.swapOut [out]).swapIn into with
      | none => .next s
      | some r => .next ((r.endPreempt i).mailboxDone 0).wakeAll
    | .brown =>
      let cs := (s.contexts.filter fun e => e.2.live && !e.2.swapped).map fun e => e.1
      let s := s.swapOut cs
      .next { s with preempts := s.preempts.eraseIdx i, host := { s.host with brown := cs } }

end Sys2Proof.Machine
end

