-- ==== Sys2Proof/Machine/Arbitration.lean ====
section
/-! DEFINITION. The arbitration of shared resources (R21 to R27) (log 38).

The resources whose requests the machine holds are the 64 memory-side slice ports, numbered by home slice (R24), and the 64 banks
of each core's scratchpad, numbered 64 + 64 * core + bank (R27). The events that serve traffic of these resources stand here: each takes
place only where its traffic may be served. -/

namespace Sys2Proof.Machine

/-! ## Requests -/

/-- What stands behind a request: an access on its way, a spill or refill of a lane, the save of a group or its restoring, a
chunk of a copy queue, the next command of a chain, a step of a collective queue, the fetch of an accord slice, the operands of
an operation, a piece of a drain, the head unit of the publish queue, the swap of a context, or the replay of a sample. -/
inductive Traffic where
  | access (op : Nat)
  | spill (gid lane : Nat)
  | refill (gid lane : Nat)
  | save (gid : Nat)
  | restore (gid : Nat)
  | chunk (team queue : Nat)
  | chain (team queue : Nat)
  | step (team : Nat)
  | fetch (team : Nat)
  | operands (team : Nat)
  | drain (team : Nat)
  | unit
  | swap
  | replay (sample core : Nat)
  deriving DecidableEq, Repr

/-- A request at a resource (R21): its class, the cycle of its arrival, and its requester: 16 * core + quarter for accesses and the
spill engine, 16 * core + 4 and upwards for the engines of the core, 16 * 192 for the hub. -/
structure Request where
  traffic : Traffic
  resource : Nat
  cls : Nat
  arrival : Nat
  requester : Nat
  deriving DecidableEq, Repr

/-- A class after a number of promotions: never into class 0 (R22). -/
def promotedClass (cls n : Nat) : Nat := if cls ≤ 1 then cls else max 1 (cls - n)

/-- The classes that traffic has moved up by a cycle: one for each 2048 cycles since its arrival (R22). -/
def movedUp (clk : DWord) (arrival : Nat) : Nat := (clk.toNat - arrival) / 2048

/-- The class in which an access competes now (R22). -/
def State.rank (s : State) (o : Op) : Nat := promotedClass o.cls (max o.promoted (movedUp s.clk o.waited))

/-- The slice port of a place of this device; the bank of an offset of a team's slice. -/
def State.portOf (s : State) (place : Nat) : Option Nat := if s.isLocal place then some (homeSlice (place % 2 ^ 52)) else none

def bankOf (core offset : Nat) : Nat := 64 + 64 * core + offset / 4 % 64

/-- The slice port of a global address of a context, where it translates. -/
def State.globalPort (s : State) (c core : Nat) (a : DWord) : Option Nat :=
  match s.translate c core none a 0 with
  | .ok place _ => s.portOf place
  | _ => none

/-- The resource at which a generic address is served for an engine of a team's core, and whether it is a bank. -/
def State.addressPort (s : State) (t : Team) (a : DWord) : Option (Nat × Bool) :=
  match s.sliceOf t a with
  | some (m, o) => some (bankOf m.core o, true)
  | none => (s.globalPort t.ctx t.core a).map fun r => (r, false)

/-- The resource an access waits for (log 38). -/
def State.resourceOf (s : State) (o : Op) : Option Nat :=
  match o.homeSpan, o.span with
  | some (p, _), _ => s.portOf p
  | none, some (tid, offset, _) => (s.team? tid).map fun t => bankOf t.core offset
  | none, none => none

/-- The requester of a group's traffic (R21). -/
def Group.requester (g : Group) : Nat := 16 * g.core + g.quarter

/-- Whether an access can be granted its slot now. -/
def State.grantable (s : State) (o : Op) : Bool :=
  if o.isScratch then s.scratchReady o
  else
    match o.access with
    | .ranked _ _ _ _ _ _ _ _ => s.homeReady o
    | _ => s.performable o

/-- The requests of accesses that can be granted. -/
def State.accessRequests (s : State) : List Request :=
  s.ops.filterMap fun o =>
    if s.grantable o then (s.resourceOf o).map fun r =>
      { traffic := .access o.id, resource := r, cls := s.rank o, arrival := o.waited,
        requester := ((s.group? o.gid).map Group.requester).getD (16 * 192) }
    else none

/-- A request of traffic other than accesses, which moves up with the time that it has waited (R22). -/
def State.request (s : State) (w : Traffic) (cls arrival requester resource : Nat) : Request :=
  { traffic := w, resource, cls := promotedClass cls (movedUp s.clk arrival), arrival, requester }

/-- The requests of traffic of a team's engines at the resources of some generic addresses: in one class at banks and in another
at slice ports (R24, R27). -/
def State.requestsAt (s : State) (t : Team) (w : Traffic) (bank port arrival requester : Nat) (as : List DWord) : List Request :=
  (as.filterMap fun a => (s.addressPort t a).map fun r => s.request w (if r.2 then bank else port) arrival requester r.1).eraseDups

/-- The requests of the spill engines and of group saves (R24): class 1, at the port of the first arena address. -/
def State.spillRequests (s : State) : List Request :=
  s.groups.flatMap fun g =>
    match s.team? g.team with
    | none => []
    | some t =>
      let at' (w : Traffic) (arrival : Nat) (vas : List DWord) : List Request :=
        ((vas.head?.bind fun a => s.globalPort t.ctx g.core a).map (s.request w 1 arrival g.requester)).toList
      ((List.range 32).flatMap fun j =>
        let l := g.lane j
        if !s.engineTurn g j then []
        else
          (match l.spillDue g, l.lowestFrame with
            | true, some (a, d, b) => at' (.spill g.id j) l.stamp (g.spillAddrs t.rst j a b d)
            | _, _ => []) ++
            if l.refillDue.isSome then
              at' (.refill g.id j) l.stamp (g.refillAddrs t.rst j (frameBelow l.lo (l.link l.lowDepth)) l.lo (l.lowDepth - 1))
            else []) ++
        if g.saveDue && !t.stopped then at' (.save g.id) (g.lanes.foldl (fun a l => max a l.stamp) 0) [g.saveArea] else []

/-- The core on which a saved group can be placed now, and what its ember is (R103). -/
def State.restoreCore (s : State) (e : Ember) : Option Nat := e.cores.find? fun c => s.emberFits e c

/-- The requests of saved groups that come back (R24): class 1, at the port of the first address that is refilled. -/
def State.restoreRequests (s : State) : List Request :=
  s.embers.flatMap fun e =>
    match e.kind with
    | .resume gid =>
      match s.group? gid, s.restoreCore e with
      | some g, some c =>
        match s.team? g.team with
        | none => []
        | some t =>
          let vas := g.live.flatMap fun j => g.refillAddrs t.rst j (g.lane j).fp (g.lane j).hi (g.lane j).depth
          ((vas.head?.bind fun a => s.globalPort t.ctx c a).map
            (s.request (.restore gid) 1 e.first (16 * c + g.quarter))).toList
      | _, _ => []
    | _ => []

/-- The addresses that the next bytes of a copy or gather concern (R266, R270): the index of a gather's element, the source and the
destination. -/
def State.copyAddresses (s : State) (t : Team) (c : Command) : List DWord :=
  (if cmdKind c.bytes = 0 then [] else [cmdGidx c.bytes + BitVec.ofNat 64 (cmdIndex c.bytes * (c.done / cmdElem c.bytes))]) ++
    (match s.sourceOf t c.bytes c.done with
     | .ok a => [a]
     | .error _ => []) ++ [cmdDst c.bytes + BitVec.ofNat 64 c.done]

/-- The requests of a team's copy and collective queues (R24, R27, R266): class 3 at slice ports and 1 at banks. -/
def State.copyRequests (s : State) (t : Team) : List Request :=
  ((List.range 4).flatMap fun q =>
    match (t.engine q).queue with
    | [] => []
    | c :: _ =>
      let at' (w : Traffic) (as : List DWord) : List Request := s.requestsAt t w 1 3 c.lastProgress (16 * t.core + 4 + q) as
      if c.chain && c.bytes.isEmpty then at' (.chain t.id q) [c.next]
      else if s.channelTurnOf t q then at' (.chunk t.id q) (s.copyAddresses t c)
      else []) ++
    match (t.engine 4).queue with
    | [] => []
    | c :: _ =>
      if c.started && !c.moved && s.served t && decide (c.done < c.total) then
        s.requestsAt t (.step t.id) 1 3 c.lastProgress (16 * 192) [cmdDst c.bytes + BitVec.ofNat 64 c.done]
      else []

/-- The addresses at which an MMA reads its operands first: both buffers, and the scale arrays of block formats (R295, R297). -/
def State.operandAddresses (s : State) (t : Team) (x : Multiply) : List DWord :=
  let buffer (b o : Nat) : DWord := sliceAddress (descBase (t.buffer b) + o)
  let scales (k : Slot) (o : Nat) : List DWord := if k.blocks then [k.location t + BitVec.ofNat 64 o] else []
  buffer x.aBuf x.aOff :: buffer x.bBuf x.bOff :: (scales (s.slot t x.slotA) x.asco ++ scales (s.slot t x.slotB) x.bsco)

/-- The addresses that the next piece of a drain writes: a block, or a line of one copy and its scale codes (R307, R309). -/
def State.drainAddresses (s : State) (t : Team) (d : Drain) (i : Nat) : List DWord :=
  let k := s.slot t d.slot
  let tk := s.slot t d.tslot
  let codes (k : Slot) (o line length : Nat) : List DWord :=
    if k.blocks then [k.location t + BitVec.ofNat 64 (o + line * lineCodes k length)] else []
  if s.addsGlobal t d then
    (((d.blocks (storedBytes k.elem 1))[i]?).map fun b => BitVec.ofNat 64 (256 * b)).toList
  else if i < d.m then d.rowAt i :: codes k d.sco i d.n
  else d.colAt (i - d.m) :: codes tk d.tsco (i - d.m) d.m

/-- The requests of a team's matrix operation that runs (R24, R27, R293): class 0 at banks and 3 at slice ports. -/
def State.matrixRequests (s : State) (t : Team) : List Request :=
  match t.matrix.queue with
  | [] => []
  | m :: _ =>
    let at' (w : Traffic) (as : List DWord) : List Request := s.requestsAt t w 0 3 m.progress (16 * t.core + 8) as
    if !m.started || !s.served t then []
    else
      match m.work with
      | .multiply block =>
        let x := multiplyOf block
        match m.missing, t.matrix.accord x.tile with
        | (id, origin) :: _, some a => at' (.fetch t.id) [a.entry id + BitVec.ofNat 64 origin]
        | _, _ => if m.unopened then at' (.fetch t.id) [x.tbase] else at' (.operands t.id) (s.operandAddresses t x)
      | .load _ a => at' (.operands t.id) [a]
      | .zero _ => []
      | .drain _ block =>
        let d := drainOf block
        if m.done < s.drainPieces t d then at' (.drain t.id) (s.drainAddresses t d m.done) else []

/-- The requests of the replays of samples (R24, R27, R356): class 4 at slice ports and 3 at banks, at the audit slot and the
operands. -/
def State.replayRequests (s : State) : List Request :=
  s.samples.flatMap fun y =>
    match y.replayer, s.team? y.team with
    | some c, some t =>
      s.requestsAt t (.replay y.id c) 3 4 y.since (16 * c + 9)
        ((s.ctx y.ctx).slotAddress y.slot :: s.operandAddresses t (multiplyOf y.block))
    | _, _ => []

/-- The requests of the whole device: the head unit of the publish queue at the ports of its bytes (class 2, R24), and a context
swap at every port (class 0). -/
def State.hubRequests (s : State) : List Request :=
  (match s.queue with
    | p :: _ => ((p.bytes.filterMap fun e => s.portOf e.1).eraseDups).map (s.request .unit 2 p.queued (16 * 192))
    | [] => []) ++
    match s.preemptAt fun p => decide (p.stage = .complete) with
    | some _ => (List.range 64).map (s.request .swap 0 s.clk.toNat (16 * 192))
    | none => []

/-- Every request that can be granted. -/
def State.requests (s : State) : List Request :=
  let live := s.teams.filter fun t => !decide (t.exit = .gone)
  s.accessRequests ++ s.spillRequests ++ s.restoreRequests ++ live.flatMap s.copyRequests ++ live.flatMap s.matrixRequests ++
    s.hubRequests ++ s.replayRequests

/-! ## Grants -/

/-- The order of R21: class, arrival, requester. -/
def Request.before (a b : Request) : Bool :=
  decide (a.cls < b.cls ∨ (a.cls = b.cls ∧ (a.arrival < b.arrival ∨ (a.arrival = b.arrival ∧ a.requester < b.requester))))

/-- An access that has been granted runs to its end (R21). -/
def State.serve (s : State) (o : Op) : Host.Outcome State Fault Refusal :=
  if o.isArrival then arrivalEvent o.id s
  else if o.isScratch then scratchEvent o.id s
  else
    match o.access with
    | .ranked _ _ _ _ _ _ _ _ => rankedEvent o.id s
    | _ => performEvent o.id s

/-- What the service of traffic does. -/
def State.grant (s : State) (w : Traffic) : Host.Outcome State Fault Refusal :=
  match w with
  | .access op =>
    match s.op? op with
    | some o => s.serve o
    | none => .next s
  | .spill gid j => spillEvent gid j s
  | .refill gid j => refillEvent gid j s
  | .save gid => saveEvent gid s
  | .restore gid =>
    match (s.embers.find? fun x => decide (x.kind = .resume gid)).bind s.restoreCore with
    | some c => resumeEvent gid c s
    | none => .next s
  | .chunk t q => chunkEvent t q s
  | .chain t q => chainReadEvent t q s
  | .step t => collectiveEvent t s
  | .fetch t => sliceArriveEvent t s
  | .operands t => matrixEndEvent t s
  | .drain t => drainPieceEvent t s
  | .unit => applyEvent 0 s
  | .swap => swapEvent s
  | .replay y c => replayEvent y c s

/-- Whether traffic is ready: its service would do something now (R21). -/
def State.acts (s : State) (w : Traffic) : Bool :=
  match s.grant w with
  | .next t => decide (t ≠ s)
  | _ => true

/-- The request a resource grants its next slot (R21): of several that nothing orders, the one listed first. -/
def State.granted (s : State) (resource : Nat) : Option Request :=
  (s.requests.filter fun r => r.resource == resource && s.acts r.traffic).foldl (fun x r =>
    match x with
    | none => some r
    | some y => if r.before y then some r else some y) none

/-- RESOURCE_GRANT (R21). -/
def execResourceGrant (resource : Nat) (s : State) : Host.Outcome State Fault Refusal :=
  match s.granted resource with
  | none => .next s
  | some r => s.grant r.traffic

/-- The resources at which traffic has a request. -/
def State.resourcesOf (s : State) (w : Traffic) : List Nat := (s.requests.filter fun r => r.traffic == w).map fun r => r.resource

/-- Whether a resource grants its next slot to some traffic. -/
def State.grantsTo (s : State) (w : Traffic) (resource : Nat) : Bool := ((s.granted resource).map fun r => r.traffic) == some w

/-- Whether traffic is granted a slot by every resource it crosses (R21, R23). -/
def State.grantedAll (s : State) (w : Traffic) : Bool := (s.resourcesOf w).all (s.grantsTo w)

/-- Whether traffic may be served now (R21): every resource that it crosses grants it a slot, or, where the resources hold each
other up, some resource does (log 38). -/
def State.mayServe (s : State) (w : Traffic) : Bool :=
  s.grantedAll w ||
    ((s.resourcesOf w).any (s.grantsTo w) && !s.requests.any fun r => s.acts r.traffic && s.grantedAll r.traffic)

/-- An event of traffic, which takes place only where that may be served. -/
def State.inOrder (s : State) (w : Traffic) (event : Host.Outcome State Fault Refusal) : Host.Outcome State Fault Refusal :=
  if s.mayServe w then event else .next s

/-- Whether an access is due to move up (R22): it has waited 2048 cycles without a grant for the first time or since it last was. -/
def State.promotionDue (s : State) (resource : Nat) (o : Op) : Bool :=
  s.resourceOf o == some resource && decide (1 < promotedClass o.cls o.promoted ∧ o.waited + 2048 * (o.promoted + 1) ≤ s.clk.toNat)

/-- ARBITRATION_PROMOTION (R22): one class up, never into class 0; the arrival stays. A class that time has brought does not
wait for the event (State.rank), and other traffic has no count of its own (log 38). -/
def execArbitrationPromotion (resource request : Nat) (s : State) : Host.Outcome State Fault Refusal :=
  let promote (o : Op) : Op :=
    if o.id == request && s.promotionDue resource o then { o with promoted := o.promoted + 1 } else o
  .next { s with ops := s.ops.map promote }

/-! ## Events that serve traffic -/

/-- PERFORM (R21, R172, R173, R234, R320, R374). -/
def execPerform (op : Nat) (s : State) : Host.Outcome State Fault Refusal := s.inOrder (.access op) (performEvent op s)

/-- SCRATCHPAD_REQUEST_PERFORM (R21, R193, R194, R207). -/
def execScratchpadRequestPerform (op : Nat) (s : State) : Host.Outcome State Fault Refusal :=
  s.inOrder (.access op) (scratchEvent op s)

/-- BARRIER_ARRIVAL (R21, R223, R224, R227, R228). -/
def execBarrierArrival (op : Nat) (s : State) : Host.Outcome State Fault Refusal := s.inOrder (.access op) (arrivalEvent op s)

/-- RANKED_CONTRIBUTION (R21, R211, R212). -/
def execRankedContribution (op : Nat) (s : State) : Host.Outcome State Fault Refusal := s.inOrder (.access op) (rankedEvent op s)

/-- FRAME_SPILL (R21, R95, R98, R101). -/
def execFrameSpill (gid lane : Nat) (s : State) : Host.Outcome State Fault Refusal :=
  s.inOrder (.spill gid lane) (spillEvent gid lane s)

/-- FRAME_REFILL (R21, R97, R98, R102). -/
def execFrameRefill (gid lane : Nat) (s : State) : Host.Outcome State Fault Refusal :=
  s.inOrder (.refill gid lane) (refillEvent gid lane s)

/-- GROUP_SAVE (R21, R103). -/
def execGroupSave (gid : Nat) (s : State) : Host.Outcome State Fault Refusal := s.inOrder (.save gid) (saveEvent gid s)

/-- GROUP_RESUME (R21, R103). -/
def execGroupResume (gid core : Nat) (s : State) : Host.Outcome State Fault Refusal := s.inOrder (.restore gid) (resumeEvent gid core s)

/-- EMBER_DISPATCH (R21, R236, R239, R243, R346): the ember of a saved group restores it. -/
def execEmberDispatch (ember core : Nat) (inherited : List (Nat × Nat)) (s : State) : Host.Outcome State Fault Refusal :=
  match (s.ember? ember).map Ember.kind with
  | some (.resume gid) => s.inOrder (.restore gid) (dispatchEvent ember core inherited s)
  | _ => dispatchEvent ember core inherited s

/-- ENGINE_CHUNK (R21, R266, R270, R271). -/
def execEngineChunk (team queue : Nat) (s : State) : Host.Outcome State Fault Refusal :=
  s.inOrder (.chunk team queue) (chunkEvent team queue s)

/-- CHAIN_COMMAND_READ (R21, R269, R281). -/
def execChainCommandRead (team queue : Nat) (s : State) : Host.Outcome State Fault Refusal :=
  s.inOrder (.chain team queue) (chainReadEvent team queue s)

/-- COLLECTIVE_STEP (R21, R266, R277, R278). -/
def execCollectiveStep (team : Nat) (s : State) : Host.Outcome State Fault Refusal := s.inOrder (.step team) (collectiveEvent team s)

/-- ACCORD_SLICE_ARRIVE (R21, R304, R305). -/
def execAccordSliceArrive (team : Nat) (s : State) : Host.Outcome State Fault Refusal := s.inOrder (.fetch team) (sliceArriveEvent team s)

/-- MATRIX_OP_END (R21, R300, R303, R316). -/
def execMatrixOpEnd (team : Nat) (s : State) : Host.Outcome State Fault Refusal := s.inOrder (.operands team) (matrixEndEvent team s)

/-- MATRIX_DRAIN_END (R21, R307 to R310, R312). -/
def execMatrixDrainEnd (team : Nat) (s : State) : Host.Outcome State Fault Refusal := s.inOrder (.drain team) (drainPieceEvent team s)

/-- APPLY (R21, R172): this device's queue is device 0. -/
def execApply (device : Nat) (s : State) : Host.Outcome State Fault Refusal :=
  if device = 0 then s.inOrder .unit (applyEvent 0 s) else applyEvent device s

/-- CONTEXT_SWAP_DONE (R21, R363, R410). -/
def execContextSwapDone (s : State) : Host.Outcome State Fault Refusal := s.inOrder .swap (swapEvent s)

/-- AUDIT_REPLAY (R21, R356). -/
def execAuditReplay (sample core : Nat) (s : State) : Host.Outcome State Fault Refusal :=
  s.inOrder (.replay sample core) (replayEvent sample core s)

/-! ## Demand loads -/

/-- The lines that a plain load of w bytes at a place has to fill (R173 rule 3). -/
def State.missingLines (s : State) (t : Team) (place w : Nat) : List Nat :=
  (s.viewLines t place w).filter fun l => (sget none t.view l).isNone

/-- Whether the slice port of a place grants its next slot to a request that goes before a demand load of a group that arrives
now (R21, R24). -/
def State.portTaken (s : State) (g : Group) (place : Nat) : Bool :=
  match (s.portOf place).bind s.granted with
  | none => false
  | some r => r.before { traffic := r.traffic, resource := r.resource, cls := 2, arrival := s.clk.toNat, requester := g.requester }

/-- The place at whose port a plain load of a lane has to wait, if there is one: the line it has to fill is not granted yet
(R21, R24, log 22). -/
def loadHeld (f : Fields) (e : Env) (r : Reached) : Option Nat :=
  match r with
  | .memory place _ =>
    if modBit f 3 then none
    else ((e.s.missingLines e.t place (widthOf f)).map fun l => 128 * l).find? (e.s.portTaken e.g)
  | _ => none

/-- The place a lane's LD leads to (R164, R168, R184). -/
def ldReach (f : Fields) (e : Env) (j : Nat) : Reached := reachGeneric e j (e.address f j) (widthOf f) (widthOf f) 0 false

/-- LD, its lanes whose lines cannot be filled yet waiting for the port (R24). -/
def ldBody (f : Fields) : Body := fun e ls s =>
  let held (j : Nat) : Option Nat := loadHeld f e (ldReach f e j)
  let r := loadBody f (modBit f 2) (modBit f 3) (fun _ _ => none) (fun e j => e.address f j) (ldReach f) e
    (ls.filter fun j => (held j).isNone) s
  (r.1, fun j => match held j with
    | some place => { flow := .wait (.turn place) none }
    | none => r.2 j)

/-- LD (R184, R173, R174): the thread's earlier stores enter first. -/
def execLd (f : Fields) (s : State) : Host.Outcome State Fault Refusal :=
  .next (runCore (.ld f) f (afterStoresOf (globalAddress f) (ldBody f)) s)

end Sys2Proof.Machine
end

