-- ==== Sys2Proof/Machine/Debug.lean ====
section
/-! DEFINITION. The debugger (R364, R365, R408). -/

namespace Sys2Proof.Machine

/-! ## Halt and resume -/

/-- Whether a debugger's target names a group (R364). -/
def State.targets (s : State) (d : DebugTarget) (g : Group) : Bool :=
  !g.ended && (match d with
    | .group gid => g.id == gid
    | .team tid => g.team == tid
    | .role tid r => g.team == tid && g.role == r.toNat
    | .context c => ((s.team? g.team).map fun t => t.ctx == c).getD false)

/-- The groups of a target halted or released. -/
def State.setHalted (s : State) (d : DebugTarget) (v : Bool) : State :=
  s.mapGroups fun g => if s.targets d g then { g with halted := v } else g

/-- DEBUG_HALT (R364): a halted group issues nothing. -/
def execDebugHalt (target : DebugTarget) (s : State) : Host.Outcome State Fault Refusal :=
  if s.hub.dbgEn then .next (s.setHalted target true) else .next s

/-- DEBUG_RESUME (R364). -/
def execDebugResume (target : DebugTarget) (s : State) : Host.Outcome State Fault Refusal :=
  if s.hub.dbgEn then .next (s.setHalted target false).wakeAll else .next s

/-- DEBUGGER_ATTACH (R400, R408): attaching needs debug access. -/
def execDebuggerAttach (ctx : Nat) (attached : Bool) (s : State) : Host.Outcome State Fault Refusal :=
  if !(s.ctx ctx).live ∨ (attached ∧ !s.hub.dbgEn) then .next s
  else .next (s.mapCtx ctx fun x => { x with debug := attached })

/-- DBGCTL (R408). -/
def State.dbgctl (s : State) : Nat := natOf s.hub.dbgEn + 2 * natOf (s.contexts.any fun e => e.2.debug)

/-- A debugger's write of a register of a lane, by its name in the lane's frame (R51, R364). -/
def Group.writeName (g : Group) (j : Nat) (name : BitVec 7) (value : Word) : Group :=
  let l := g.lane j
  match placeOf l name with
  | some p =>
    if !nameOk l name then g
    else { g.mapLane j fun l => l.put g.budget { place := p, value } with
           scalars := putScalars g.scalars [{ place := p, value }] }
  | none => g

/-- The absolute register that a name means on a lane, where it stands in the arena and not in the ring: the group is saved, or
the frame is spilled (R93, R103). -/
def Group.arenaRow (g : Group) (j : Nat) (name : BitVec 7) : Option Nat :=
  match placeOf (g.lane j) name with
  | some (.ring r) => if g.resident && decide ((g.lane j).lo ≤ r) then none else some r
  | _ => none

/-- DEBUGGER_REGISTER_WRITE (R364): a register of a halted group, where it stands. -/
def execDebuggerRegisterWrite (gid lane : Nat) (name : BitVec 7) (value : Word) (s : State) :
    Host.Outcome State Fault Refusal :=
  match s.group? gid with
  | none => .next s
  | some g =>
    if !s.hub.dbgEn ∨ !g.halted ∨ 32 ≤ lane then .next s
    else
      match g.arenaRow lane name, s.team? g.team with
      | some r, some t =>
        if nameOk (g.lane lane) name && decide (s.reach t.ctx g.core (g.spillAddrs t.rst lane r (r + 1) 0) 1 = .ok) then
          .next (s.spillAll gid t.ctx g.core t.rst [(r, regOffset lane, leBytes 4 value.toNat)])
        else .next s
      | _, _ => .next (s.mapGroup gid fun g => g.writeName lane name value)

/-! ## Single step -/

/-- The sub-group of a lane (R83): the unexited threads that hold its program counter. -/
def Group.subgroup (g : Group) (j : Nat) : List Nat := g.live.filter fun k => decide ((g.lane k).pc = (g.lane j).pc)

/-- Whether a halted group may be stepped: what keeps it from issuing is the debugger alone. -/
def State.steppable (s : State) (g : Group) : Bool :=
  s.hub.dbgEn && g.halted && g.resident && !g.ended && !g.yielding && (match s.team? g.team with
    | some t => !t.stopped && !t.relaunch && !(s.ctx t.ctx).halted && !(s.ctx t.ctx).swapped
    | none => false)

/-- SINGLE_STEP (R365): the ready threads of the sub-group of the focus lane, or of the lowest unexited one, issue once, as the
next thing to happen; without a ready thread the step reports blocked. -/
def execSingleStep (gid : Nat) (focus : Option Nat) (s : State) : Host.Outcome State Fault Refusal :=
  match s.group? gid with
  | none => .next s
  | some g =>
    if !s.steppable g then .next s
    else
      let s := { s with host := { s.host with stepped := none } }
      match (focus.orElse fun _ => g.live.head?).bind fun j => (g.subgroup j).find? fun k => g.readyLanes.contains k with
      | none => .next s
      | some k => .next { s with agenda := .single gid k :: s.agenda }

/-- Whether a thread waits in its instruction (R365): in a wait but for that of its trap entry, for a drain, on a page or in a
service call. A thread that awaits its own results, or that its fault has stopped, does not. -/
def Lane.blocked (l : Lane) : Bool :=
  match l.status with
  | .waiting (.handler _ _ _) => false
  | .waiting _ => true
  | .stalled drain => drain && l.faulting.isNone
  | .parked (.page _) => true
  | .parked (.service _) => true
  | _ => false

/-- Whether the last single step reports blocked (R365): no thread was ready, or one of those that issued waits in it. -/
def State.stepBlocked (s : State) : Bool :=
  match s.host.stepped with
  | none => true
  | some (gid, lanes) => (lanesOf lanes).any fun j => (s.lane gid j).blocked

end Sys2Proof.Machine
end

