-- ==== Sys2Proof/Machine/System.lean ====
section
/-! DEFINITION. The system instructions of major 0x1F (R329 to R336, R351, R352, R366 to R376). -/

namespace Sys2Proof.Machine

/-! ## TRAP, BRK, RETT -/

/-- The values a trap instruction enters its handler with (R367). -/
def trapInfo (kind : Nat) (f : Fields) : FaultInfo := { kind, info := BitVec.ofNat 32 f.b.toNat }

/-- TRAP (R367). -/
def execTrap (f : Fields) (s : State) : Host.Outcome State Fault Refusal :=
  .next (runCore (.trap f) f (perLane fun _ _ => { flow := .trap (trapInfo trapKind f) }) s)

/-- The body of BRK (R367, R364): the handler, or a halt of the group where a debugger is attached. -/
def brkBody (f : Fields) : Body := fun e ls s =>
  if s.hub.dbgEn && (s.ctx e.t.ctx).debug then
    (if ls.isEmpty then s else s.mapGroup e.g.id fun g => { g with halted := true }, fun _ => {})
  else (s, fun _ => { flow := .trap (trapInfo breakpoint f) })

/-- BRK (R367). -/
def execBrk (f : Fields) (s : State) : Host.Outcome State Fault Refusal :=
  .next (runCore (.brk f) f (brkBody f) s)

/-- FP, 16 NQ and DEPTH of TFRAME (R329). -/
def Lane.trapFp (l : Lane) : Nat := bitsOf l.tframe.toNat 0 32

def Lane.trapN (l : Lane) : Nat := 16 * bitsOf l.tframe.toNat 44 4

def Lane.trapDepth (l : Lane) : Nat := bitsOf l.tframe.toNat 48 16

/-- The first register of the handler's entry frame (R331): right above the first 16 of a frame that a RET had released (R263). -/
def Lane.handlerBase (l : Lane) : Nat :=
  if l.trapN = 0 ∨ l.released = some l.trapFp then l.trapFp + 16 else l.trapFp + 32 + l.trapN

/-- The resume address of RETT, and whether MTC has written it (R331). -/
def resumeOf (f : Fields) (l : Lane) : DWord × Bool := if modBit f 0 then (l.tnpc, l.tnpcSet) else (l.tpc, l.tpcSet)

/-- Whether the interrupted frame and its link entry are resident (R331). -/
def Lane.interruptedResident (l : Lane) : Bool :=
  decide (l.lo ≤ l.trapFp ∧ (l.trapDepth = 0 ∨ l.linkLo ≤ l.trapDepth))

/-- RETT on a lane (R331): a refill is waited for, with the handler's registers released where it would not fit. -/
def rettLane (f : Fields) (e : Env) (j : Nat) : LaneOut :=
  let l := e.g.lane j
  let r := resumeOf f l
  if !l.tl then { fault := some { kind := illegalInstruction } }
  else if l.interruptedResident then
    transferLane e j r.1 (if r.2 then .branch else .none) fun l => l.fromHandler r.1 l.fetch
  else
    { change := fun l => if l.hi - l.trapFp ≤ e.g.budget then l else { l with hi := l.handlerBase },
      flow := .wait (.refill l.trapFp l.trapDepth) none }

/-- The body of RETT. -/
def rettBody (f : Fields) : Body := fun e ls s =>
  let back := ls.filter fun j => (e.g.lane j).tl && (e.g.lane j).interruptedResident
  (transferState e back (fun j => some (resumeOf f (e.g.lane j)).1) s, fun j => rettLane f e j)

/-- RETT (R331, R369). -/
def execRett (f : Fields) (s : State) : Host.Outcome State Fault Refusal :=
  .next (runCore (.rett f) f (rettBody f) s)

/-! ## SVC -/

/-- The number of service slots, and the address of slot j (R335, R351) (log 46). -/
def Context.svcSlots (x : Context) : Nat := 2 ^ bitsOf x.svcctl.toNat 0 4

def Context.svcAddress (x : Context) (j : Nat) : DWord := x.svcbase + BitVec.ofNat 64 (4096 * j)

/-- A word of a context reached for a store of SVC (R352 step 3): class, alignment, translation, home. -/
def Env.reachPosting (e : Env) (a : DWord) (align : Nat) : Reached :=
  if e.s.classOf e.t a ≠ .global then .fault (addressed addressFault a 1)
  else if a.toNat % align ≠ 0 then .fault (addressed misaligned a 1)
  else
    match e.s.translate e.t.ctx e.g.core none a 1 with
    | .denied => .fault (addressed accessViolation a 1)
    | .absent => .park a
    | .waits place => .wait (.home place)
    | .ok place page =>
      match e.s.home place with
      | .ready => .memory place page
      | .waiting => .notReady place page
      | .failed => .fault (addressed accessViolation a 1)

/-- The bytes of a posted slot but STATE, with their offsets (R351, R352 step 4); the reserved ones are 0 (R7). -/
def svcBytes (f : Fields) (e : Env) (ls : List Nat) (rseq : DWord) : List (Nat × Byte) :=
  let put (offset : Nat) (bs : List Byte) : List (Nat × Byte) := bs.mapIdx fun i b => (offset + i, b)
  let pc := match ls with
    | j :: _ => (e.g.lane j).pc
    | [] => 0
  put 0x004 (leBytes 4 (maskOf ls).toNat) ++ put 0x008 (leBytes 8 rseq.toNat) ++ put 0x010 (leBytes 4 e.g.whereWord.toNat) ++
    put 0x014 (leBytes 4 e.t.index) ++ put 0x018 (leBytes 8 pc.toNat) ++
    (ls.flatMap fun j => put (0x020 + 4 * j) (leBytes 4 (e.reg j f.a).toNat)) ++
    (ls.flatMap fun j => put (0x100 + 64 * j) (e.outBytes j)) ++ put 0x0A0 (List.replicate 0x60 0) ++
    put 0x900 (List.replicate 0x700 0)

/-- A service request posted in slot j at a place (R352 steps 4 and 5); signal is the place of the signal word. -/
def postService (f : Fields) (e : Env) (ls : List Nat) (j place : Nat) (signal : Option Nat) (s : State) : State :=
  let x := s.ctx e.t.ctx
  let s := s.writeBytes ((svcBytes f e ls x.rseq).map fun b => (place + b.1, b.2))
  let s := s.writeNat place 4 1
  let s := match signal with
    | some p => s.writeNat p 8 (max (s.readNat p 8) x.rseq.toNat)
    | none => s
  let s := s.mapCtx e.t.ctx fun x => { x with rseq := x.rseq + 1, svcNext := (j + 1) % x.svcSlots }
  (if x.svcnote.getLsbD 0 then s.raise e.t.ctx else s).wakeAll

/-- What every lane of S does where a word of SVC is not reached: the fault is one of all of them (R352 step 3). -/
def Reached.stopsAll (r : Reached) : LaneOut :=
  match r with
  | .fault i => { fault := some i, together := true }
  | r => r.stops.getD {}

/-- The body of SVC (R352). -/
def svcBody (f : Fields) : Body := fun e ls s =>
  let framed := ls.filter fun j => (e.g.lane j).n != 0
  let x := s.ctx e.t.ctx
  let all (o : LaneOut) (j : Nat) : LaneOut :=
    if framed.contains j then o else { fault := some { kind := illegalInstruction } }
  if framed.isEmpty then (s, all {})
  else
    match s.freeSlot e.t.ctx e.g.core with
    | none => (s, all { flow := .wait .slot none })
    | some j =>
      let stay (r : Reached) (a : DWord) : State × (Nat → LaneOut) :=
        (match r with
          | .park va => s.requestMove e.t.ctx va
          | .notReady place _ => framed.foldl (fun s j => s.blockedAt e.g j a place) s
          | _ => s, all r.stopsAll)
      let posted (place : Nat) (signal : Option Nat) : State × (Nat → LaneOut) :=
        (postService f e framed j place signal s, all { change := fun l => l.advance e.m, flow := .park (.service j) })
      match e.reachPosting (x.svcAddress j) 4 with
      | .memory place _ =>
        if x.svcsig = 0 then posted place none
        else
          match e.reachPosting x.svcsig 8 with
          | .memory p _ => posted place (some p)
          | r => stay r x.svcsig
      | r => stay r (x.svcAddress j)

/-- SVC (R352, R368). -/
def execSvc (f : Fields) (s : State) : Host.Outcome State Fault Refusal :=
  .next (runCore (.svc f) f (svcBody f) s)

/-! ## MFC and MTC -/

/-- Whether a thread may make a privileged write (R336). -/
def Env.privileged (e : Env) (j : Nat) : Bool := (e.g.lane j).tl || e.t.priv

/-- TSTAT of a lane (R329). -/
def Lane.tstat (l : Lane) : Word := BitVec.ofNat 32 (l.kind.toNat + 256 * natOf l.tl)

/-- The value of a register of a context (R335); from 0x110 on the doublewords of the latched fatal record. -/
def Context.register (x : Context) (n : Nat) : DWord :=
  let word (w : Word) : DWord := w.setWidth 64
  match n with
  | 0x100 => x.trapbase
  | 0x101 => word x.trapctl
  | 0x102 => word x.framectl
  | 0x103 => word x.embqctl
  | 0x104 => word x.audctl
  | 0x105 => x.audbase
  | 0x106 => x.audstat
  | 0x107 => x.eqbase
  | 0x108 => word x.eqctl
  | 0x109 => word x.eqhead
  | 0x10A => word x.eqtail
  | 0x10B => word x.eqovf
  | 0x10C => x.svcbase
  | 0x10D => word x.svcctl
  | 0x10E => x.svcsig
  | _ => sget 0 x.fatal (n - 0x110)

/-- The value of a thread or context register (R329, R335). -/
def cregValue (e : Env) (j n : Nat) : DWord :=
  let l := e.g.lane j
  let x := e.s.ctx e.t.ctx
  let word (w : Word) : DWord := w.setWidth 64
  match n with
  | 0x000 => word l.tstat
  | 0x001 => word l.tinfo
  | 0x002 => l.taddr
  | 0x003 => l.tpc
  | 0x004 => l.tnpc
  | 0x005 => l.tframe
  | 0x200 => BitVec.ofNat 64 e.g.core
  | 0x201 => BitVec.ofNat 64 (e.s.partitionCores x.partition).length
  | _ => x.register n

/-- MFC on a lane (R370); a number not in the table is illegal (R335). -/
def mfcLane (f : Fields) (e : Env) (j : Nat) : LaneOut :=
  let n := f.imm.toNat
  if !cregKnown n then { fault := some { kind := illegalInstruction } }
  else if cregWide n then { writes := e.setPair j f.d (cregValue e j n) }
  else { writes := e.setReg j f.d ((cregValue e j n).extractLsb' 0 32) }

/-- MFC (R370). -/
def execMfc (f : Fields) (s : State) : Host.Outcome State Fault Refusal :=
  .next (runCore (.mfc f) f (perLane (mfcLane f)) s)

/-- Whether a value lies in the stated range of a context register (R335). -/
def cregInRange (n : Nat) (v : DWord) : Bool :=
  match n with
  | 0x105 => v.toNat % 0x40000 == 0
  | 0x107 => v.toNat % 4096 == 0
  | 0x10C => v.toNat % 4096 == 0
  | 0x108 => decide (6 ≤ bitsOf v.toNat 0 5 ∧ bitsOf v.toNat 0 5 ≤ 16)
  | 0x10D => decide (bitsOf v.toNat 0 4 ≤ 10)
  | _ => true

/-- The records in a context's error queue that the reader has not taken: u (R340). -/
def Context.unread (x : Context) : Nat := (x.eqtail - x.eqhead).toNat

/-- The number of records a context's error queue holds: N (R340). -/
def Context.queueSize (x : Context) : Nat := 2 ^ bitsOf x.eqctl.toNat 0 5

/-- A context register written (R94, R237, R334, R335, R340, R354); reserved fields keep reading 0. -/
def Context.setRegister (x : Context) (n : Nat) (v : DWord) : Context :=
  let w : Word := v.extractLsb' 0 32
  match n with
  | 0x100 => { x with trapbase := v }
  | 0x101 => { x with trapctl := w &&& 0xF#32 }
  | 0x102 => { x with framectl := w &&& 0xFF#32 }
  | 0x103 => { x with embqctl := w &&& 0xFFFF#32 }
  | 0x104 => { x with audctl := w &&& 0xFF1F#32 }
  | 0x105 => { x with audbase := v }
  | 0x107 => { x with eqbase := v, eqhead := x.eqtail, queued := [] }
  | 0x108 => { x with eqctl := w &&& 0x1F#32, eqhead := x.eqtail, queued := [] }
  | 0x109 => if x.queueSize < (x.eqtail - w).toNat then x else { x with eqhead := w }
  | 0x10C => { x with svcbase := v }
  | 0x10D => { x with svcctl := w &&& 0xF#32 }
  | 0x10E => { x with svcsig := v }
  | _ => x

/-- The value MTC reads on a lane. -/
def mtcValue (f : Fields) (e : Env) (j : Nat) : DWord :=
  if cregWide f.imm.toNat then e.pair j f.a else (e.reg j f.a).setWidth 64

/-- The change of a lane whose own TPC or TNPC is written (R329, R370). -/
def Lane.setThreadRegister (l : Lane) (n : Nat) (v : DWord) : Lane :=
  if n = 0x003 then { l with tpc := v, tpcSet := true } else { l with tnpc := v, tnpcSet := true }

/-- The body of MTC (R370): a thread register lane by lane; a context register from the lowest privileged lane. -/
def mtcBody (f : Fields) : Body := fun e ls s =>
  let n := f.imm.toNat
  if !cregWritable n then (s, fun _ => { fault := some { kind := illegalInstruction } })
  else if n < 0x100 then (s, fun j => { change := fun l => l.setThreadRegister n (mtcValue f e j) })
  else
    let able := ls.filter fun j => e.privileged j
    match able with
    | [] => (s, fun _ => { fault := some { kind := privilege } })
    | low :: _ =>
      let good := cregInRange n (mtcValue f e low)
      (if good then s.mapCtx e.t.ctx fun x => x.setRegister n (mtcValue f e low) else s,
       fun j =>
         if !able.contains j then { fault := some { kind := privilege } }
         else if good then {}
         else { fault := some { kind := illegalInstruction }, together := true })

/-- MTC (R370). -/
def execMtc (f : Fields) (s : State) : Host.Outcome State Fault Refusal :=
  .next (runCore (.mtc f) f (mtcBody f) s)

/-! ## ERAISE, AUDIT, STEST -/

/-- The body of ERAISE (R371) (log 36). -/
def eraiseBody (f : Fields) : Body := fun e ls s =>
  match ls with
  | [] => (s, fun _ => {})
  | low :: _ =>
    let dead := modBit f 0
    let i : FaultInfo := { kind := errorRaised, info := e.reg low f.a, aux := e.pair low f.b }
    (s.addRecord (s.faultRecord e.g e.t (maskOf ls) i (e.g.lane low).pc 0 dead false),
     fun _ => { flow := if dead then .fatal errorRaised else .next })

/-- ERAISE (R371, R333). -/
def execEraise (f : Fields) (s : State) : Host.Outcome State Fault Refusal :=
  .next (runCore (.eraise f) f (eraiseBody f) s)

/-- The team's sampling state after AUDIT (R372): a mark, off, or on. -/
def Team.setAudit (t : Team) (mode : Nat) : Team :=
  match mode with
  | 0 => { t with markNext := true }
  | m => { t with audit := m }

/-- AUDIT (R372). -/
def execAudit (f : Fields) (s : State) : Host.Outcome State Fault Refusal :=
  .next (runCore (.audit f) f (fun e ls s =>
    (if ls.isEmpty then s else s.mapTeam e.t.id fun t => t.setAudit (modBits f 0 2), fun _ => {})) s)

/-- The status word of STEST (R373). -/
def Sector.status (x : Sector) : Word := BitVec.ofNat 32 (x.result + 4 * natOf x.request)

/-- A body for lanes that must be privileged (R336): the others raise Privilege, one by one. -/
def privilegedOnly (body : Body) : Body := fun e ls s =>
  let able := ls.filter fun j => e.privileged j
  let r := body e able s
  (r.1, fun j => if able.contains j then r.2 j else { fault := some { kind := privilege } })

/-- The body of STEST (R373). -/
def stestBody (f : Fields) : Body := fun e ls s =>
  match ls with
  | [] => (s, fun _ => {})
  | low :: _ =>
    let n := (e.reg low f.a).toNat
    if 16 ≤ n ∨ !bitOf (s.partitionMask (s.ctx e.t.ctx).partition) n then
      (s, fun _ => { fault := some { kind := addressFault }, together := true })
    else
      let s := if modBit f 0 then s else s.mapSector n fun x => { x with request := true }
      let w := (s.sector n).status
      (s, fun j => { writes := e.setReg j f.d w })

/-- STEST (R373). -/
def execStest (f : Fields) (s : State) : Host.Outcome State Fault Refusal :=
  .next (runCore (.stest f) f (privilegedOnly (stestBody f)) s)

/-! ## TLBGEN and LSWEEP -/

/-- The last-page registers of a group without some cached translations. -/
def Group.forget (gone : PageEntry → Bool) (g : Group) : Group :=
  g.mapLanes fun _ l => if l.lastPage.any gone then { l with lastPage := none } else l

/-- A team whose phase record keeps none of some cached translations, so that a rollback brings none back (R167, R375). -/
def Team.forget (gone : PageEntry → Bool) (t : Team) : Team :=
  { t with phase := t.phase.map fun ph => { ph with groups := ph.groups.map (Group.forget gone) } }

/-- Cached translations removed from every last-page register and TLB of the device. -/
def State.purge (s : State) (gone : PageEntry → Bool) : State :=
  let s := s.mapGroups (Group.forget gone)
  let s := { s with teams := s.teams.map (Team.forget gone) }
  let clean (c : Core) : Core := { c with tlb := c.tlb.filter fun p => !gone p }
  { s with cores := s.cores.filterMap fun e => if clean e.2 = {} then none else some (e.1, clean e.2) }

/-- The generation of an address space raised by one (R167); from 0xFFFF it goes to 0 after every entry is removed. -/
def State.raiseGeneration (s : State) (asid : Nat) : State :=
  let g := s.generation asid
  let s := if g = 0xFFFF then s.purge fun p => p.asid == asid else s
  { s with generations := sput 0 s.generations asid ((g + 1) % 65536) }

/-- The accesses of an address space that have been translated and are neither performed nor in a store buffer (R374): those on
their way, and the contributions that tiles are yet to apply (R211). -/
def State.translated (s : State) (asid : Nat) : List Nat :=
  ((s.ranks.filter fun t => (s.ctx t.ctx).asid == asid).flatMap fun t => t.ops) ++
  (s.ops.filter fun o => (o.homeSpan.isSome || o.isStore) && (match s.team? o.team with
    | some t => (s.ctx t.ctx).asid == asid
    | none => false)).map fun o => o.id

/-- The body of TLBGEN (R374). -/
def tlbgenBody (f : Fields) : Body := fun e ls s =>
  match ls with
  | [] => (s, fun _ => {})
  | low :: _ =>
    let v := (e.reg low f.a).toNat
    if 256 ≤ v then (s, fun _ => { fault := some { kind := illegalInstruction }, together := true })
    else
      let ids := s.translated v
      let s := s.raiseGeneration v
      let w := BitVec.ofNat 32 (s.generation v)
      let dests (j : Nat) : List Place := ownPlaces (j == low) (e.destPlaces j f.d false)
      (ls.foldl (fun s j => s.addOp e j (some e.pid) 0 (.generation ids w (dests j))) s,
       fun j => { places := dests j, waits := 1 })

/-- TLBGEN (R374, R336). -/
def execTlbgen (f : Fields) (s : State) : Host.Outcome State Fault Refusal :=
  .next (runCore (.tlbgen f) f (privilegedOnly (tlbgenBody f)) s)

/-- The page that holds an address of an address space swept (R167, R375). -/
def State.sweep (s : State) (asid : Nat) (a : DWord) : State :=
  s.purge fun p => p.asid == asid && p.page == a.toNat / pageBytes p.size

/-- LSWEEP (R375): an address outside the global class does nothing. -/
def execLsweep (f : Fields) (s : State) : Host.Outcome State Fault Refusal :=
  .next (runCore (.lsweep f) f (fun e ls s =>
    ((ls.filter fun j => globalAddress f e j).foldl (fun s j => s.sweep (s.ctx e.t.ctx).asid (e.address f j)) s,
     fun _ => {})) s)

/-! ## WAITSIG -/

/-- One lane of WAITSIG (R376, R226): over at once with the acquire where the target is met. -/
def waitsigLane (f : Fields) (e : Env) (j : Nat) (s : State) : State × LaneOut :=
  let a := e.pair j f.a
  let r := reachGeneric e j a 8 8 0 true
  let s := reachEffect e j r s
  match r with
  | .memory _ _ =>
    let target := (e.pair j f.b).toNat
    if s.signalReached e.t e.g j a target none then (s.dropView e.t.id, { writes := timedDone f })
    else (s, { flow := .wait (.signal a target (s.signalSeen e.t e.g j a none)) (timerOf f e.s) })
  | r => (s, r.stops.getD {})

/-- WAITSIG (R376), after the thread's earlier stores have entered, as for a load (R174). -/
def execWaitsig (f : Fields) (s : State) : Host.Outcome State Fault Refusal :=
  .next (runCore (.waitsig f) f (afterStoresOf (fun e j => decide (e.s.classOf e.t (e.pair j f.a) = .global))
    (inTurn (waitsigLane f))) s)

end Sys2Proof.Machine
end

