-- ==== Sys2Proof/Machine/Errors.lean ====
section
/-! DEFINITION. Error records reach their queue (R337 to R342), consumed errors (R343), and the completion of service calls
(R353). -/

namespace Sys2Proof.Machine

/-! ## The error queue -/

/-- The 64 bytes of a record with a number (R337). -/
def ErrorRecord.bytes (r : ErrorRecord) (seq : Word) : List Byte :=
  leBytes 4 r.kind.toNat ++ leBytes 4 seq.toNat ++ leBytes 8 r.pc.toNat ++ leBytes 8 r.addr.toNat ++
    leBytes 4 r.lanes.toNat ++ leBytes 4 r.info.toNat ++ leBytes 4 r.whereWord.toNat ++ leBytes 4 r.team.toNat ++
    leBytes 8 r.time.toNat ++ leBytes 8 r.aux.toNat ++ leBytes 8 r.aux2.toNat

/-- The record number after another (R337). -/
def nextSeq (w : Word) : Word := if w = 0xFFFFFFFF#32 then 1 else w + 1

/-- How far a number lies behind a new one, counted back along 1 to 0xFFFFFFFF (R342). -/
def seqDistance (new old : Word) : Nat := (new.toNat + 0xFFFFFFFF - old.toNat) % 0xFFFFFFFF

/-- The index of the oldest replayable record among those unread (R342). -/
def Context.oldestReplayable (x : Context) : Option Word :=
  ((x.queued.filter fun e => !e.2.2 && decide ((e.1 - x.eqhead).toNat < x.unread)).foldl
    (fun (r : Option (Word × Word × Bool)) e =>
      match r with
      | none => some e
      | some b => if seqDistance x.seq b.2.1 < seqDistance x.seq e.2.1 then some e else some b) none).map fun e => e.1

/-- The address of the record slot of an index (R340). -/
def Context.recordAddress (x : Context) (index : Word) : DWord :=
  x.eqbase + BitVec.ofNat 64 (64 * (index.toNat % x.queueSize))

/-- What becomes of a record that reaches its queue's writer (R342). -/
inductive Landing where
  | appended
  | over' (index : Word)
  | lost
  | halts
  deriving DecidableEq, Repr

/-- The table of R342. -/
def Context.landing (x : Context) (r : ErrorRecord) : Landing :=
  if isFatal r.kind then (if x.unread < x.queueSize then .appended else .halts)
  else if x.unread < x.queueSize - 2 then .appended
  else
    match x.oldestReplayable with
    | some i => .over' i
    | none => .lost

/-- The index a record is to be written at, given EQTAIL. -/
def Landing.index (l : Landing) (tail : Word) : Word :=
  match l with
  | .over' i => i
  | _ => tail

/-- A context with a record noted at an index: it takes the next number. -/
def Context.noteRecord (x : Context) (index : Word) (fatal : Bool) : Context :=
  { x with queued := (x.queued.filter fun e => !(e.1 == index)) ++ [(index, x.seq, fatal)], seq := nextSeq x.seq }

/-- The host's vector c raised where a record calls for it (R400): at EQNOTE unread records, and on every fatal record. -/
def State.noteQueue (s : State) (c : Nat) (fatal : Bool) : State :=
  let x := s.ctx c
  if fatal || (x.eqnote != 0 && x.unread == x.eqnote.toNat) then s.raise c else s

/-- A record lost (R342). -/
def Context.loseRecord (x : Context) : Context := { x with eqovf := x.eqovf + 1, seq := nextSeq x.seq }

/-- The doublewords of a record as FATAL0 to FATAL7 latch it (R335, R342). -/
def latched (bs : List Byte) : Sparse DWord :=
  (List.range 8).foldl (fun m i => sput 0 m i (BitVec.ofNat 64 (field bs (8 * i) 8))) []

/-- A record written at an index of a context's queue, where its page is (R340, R342): in M at its home, unbuffered; a page that
is not there is waited for, and a record whose page is not mapped or not writable is lost (log 26). -/
def State.writeRecord (s : State) (r : ErrorRecord) (index : Word) (append : Bool) : Option State :=
  let c := r.ctx
  let x := s.ctx c
  match s.translate c 0 none (x.recordAddress index) 1 with
  | .absent => none
  | .waits _ => none
  | .denied => some (s.mapCtx c Context.loseRecord)
  | .ok place _ =>
    match s.home place with
    | .waiting => none
    | .failed => some (s.mapCtx c Context.loseRecord)
    | .ready =>
      let s := s.writeBytes (placed place (r.bytes x.seq))
      let s := s.mapCtx c fun x => x.noteRecord index (isFatal r.kind)
      some (s.mapCtx c fun x => if append then { x with eqtail := x.eqtail + 1 } else { x with eqovf := x.eqovf + 1 })

/-- A record at the queue's writer (R342); none while its page is not there. -/
def State.landRecord (s : State) (r : ErrorRecord) : Option State :=
  let x := s.ctx r.ctx
  match x.landing r with
  | .appended => (s.writeRecord r x.eqtail true).map fun s => s.noteQueue r.ctx (isFatal r.kind)
  | .over' i => s.writeRecord r i false
  | .lost => some (s.mapCtx r.ctx Context.loseRecord)
  | .halts =>
    some ((s.mapCtx r.ctx fun x => { x with fatal := latched (r.bytes x.seq), seq := nextSeq x.seq }).haltContext r.ctx)

/-- A record whose place in its queue lies on a device without a usable port (R405): after 1 s it is lost (log 44). -/
def State.recordAway (s : State) (c index : Nat) : Option State :=
  let x := s.ctx c
  let va := match s.records[index]? with
    | some r => x.recordAddress ((x.landing r).index x.eqtail)
    | none => 0
  (s.awayOf c 0 [va] 1).map fun _ =>
    s.awayTurn (.record c) fun s => ({ s with records := s.records.eraseIdx index }.mapCtx c Context.loseRecord).wakeAll

/-- Whether record b reaches the queue behind the earlier record a (R338, R341): they share a thread, or b says that the team of
a fatal record a has been killed. -/
def ErrorRecord.precedes (a b : ErrorRecord) : Bool :=
  (a.gid.isSome && a.gid == b.gid && (a.lanes &&& b.lanes) != 0) ||
    (bitsOf b.kind.toNat 0 8 == teamKilled && a.tid == b.tid && isFatal a.kind)

/-- ERROR_RECORD_LAND (R338, R342): a record on its way reaches the queue's writer, behind the earlier records of its threads. -/
def execErrorRecordLand (ctx index : Nat) (s : State) : Host.Outcome State Fault Refusal :=
  match s.records[index]? with
  | none => .next s
  | some r =>
    if r.ctx ≠ ctx ∨ (s.records.take index).any (fun e => e.precedes r) then .next s
    else
      match s.landRecord r with
      | none => .next <| (s.recordAway ctx index).getD
          (s.requestMove ctx ((s.ctx ctx).recordAddress ((s.ctx ctx).landing r |>.index (s.ctx ctx).eqtail)))
      | some t => .next (({ t with records := t.records.eraseIdx index }).notAway (.record ctx)).wakeAll

/-! ## Consumed errors -/

/-- The code of a structure in an Uncorrectable record (R339). -/
def placeCode (p : ErrorPlace) : Nat :=
  match p with
  | .registerFile => 0
  | .scratchpad => 1
  | .viewCache => 2
  | .storeBuffer => 3
  | .accumulator => 4
  | .memorySideCache => 5
  | .hbm => 6
  | .peat => 7

/-- Whether the issue stream goes on behind an instruction with the one that follows it in its line, whatever its operands are. -/
def runsOn (i : Instr) : Bool :=
  match i with
  | .bra _ => false
  | .brx _ => false
  | .call _ => false
  | .callx _ => false
  | .ret _ => false
  | .exit _ => false
  | .join _ => false
  | .leave _ => false
  | .wait _ => false
  | .trap _ => false
  | .brk _ => false
  | .rett _ => false
  | .eraise _ => false
  | _ => true

/-- The program counter n instructions on from an address of a held line, as far as nothing there can lead the stream elsewhere. -/
def Line.streamPC (l : Line) (n : Nat) (p : DWord) : DWord :=
  match n with
  | 0 => p
  | k + 1 =>
    match l.instrAt p with
    | none => p
    | some (i, m) => if runsOn i && (l.instrAt (nextPC p m)).isSome then l.streamPC k (nextPC p m) else p

/-- The program counter of the record of a consumed error (R343): one of the next 256 instructions of the group's issue stream,
n instructions on from that of the lane, as far as the stream is settled: in the line that the lane holds, up to an instruction
that may lead elsewhere, and only while every thread of the group is there (log 36). -/
def Group.skidPC (g : Group) (j n : Nat) : DWord :=
  let l := g.lane j
  match l.fetch with
  | .held line => if g.live.all fun k => (g.lane k).pc == l.pc then line.streamPC (min n 255) l.pc else l.pc
  | _ => l.pc

/-- UNCORRECTABLE_CONSUMED (R343): a record, then the rollback or the kill of the team, whatever TL is; on a thread with TL = 1
the record is that of a double trap (R332). -/
def execUncorrectableConsumed (gid lane : Nat) (place : ErrorPlace) (skid : Nat) (s : State) :
    Host.Outcome State Fault Refusal :=
  match s.group? gid with
  | none => .next s
  | some g =>
    match s.team? g.team with
    | none => .next s
    | some t =>
      if t.exit = .gone ∨ 32 ≤ lane then .next s
      else
        let i : FaultInfo := { kind := uncorrectable, info := BitVec.ofNat 32 (placeCode place) }
        let l := g.lane lane
        if l.tl then .next (s.doubleTrap gid lane i (g.skidPC lane skid) l.kind.toNat).wakeAll
        else
          .next ((s.addRecord (s.faultRecord g t (maskOf [lane]) i (g.skidPC lane skid) 0 (!t.rst) false)).consume t.id).wakeAll

/-! ## Service completion -/

/-- The lanes of a group parked on a service slot (R352). -/
def Group.serviceLanes (g : Group) (slot : Nat) : List Nat :=
  g.live.filter fun j => decide ((g.lane j).status = .parked (.service slot))

/-- The absolute register of o0 of a lane (R87). -/
def Lane.outBase (l : Lane) : Nat := l.fp + 16 + l.n

/-- The arena addresses of a lane's o0 to o15, where they are not resident (R353). -/
def Group.outAddrs (g : Group) (rst : Bool) (j : Nat) : List DWord :=
  g.spillAddrs rst j (g.lane j).outBase ((g.lane j).outBase + 16) 0

/-- One lane's results written where its o0 to o15 are (R353 step 1). -/
def State.giveResults (s : State) (g : Group) (t : Team) (j : Nat) (bs : List Byte) : State :=
  let o := (g.lane j).outBase
  if g.resident ∧ (g.lane j).lo ≤ o then
    s.mapLane g.id j fun l =>
      { l with ring := sputAll 0 l.ring ((List.range 16).map fun i =>
          ((o + i) % g.budget, BitVec.ofNat 32 (field bs (4 * i) 4))) }
  else
    s.spillAll g.id t.ctx g.core t.rst ((List.range 16).map fun i => (o + i, regOffset j, leBytes 4 (field bs (4 * i) 4)))

/-- The service lanes of a group made ready, or its resume ember queued (R353 step 3). -/
def State.serviceReady (s : State) (g : Group) (t : Team) (slot : Nat) : State :=
  let ready := g.serviceLanes slot
  let s := s.mapGroup g.id fun g => g.mapLanes fun j l =>
    if ready.contains j then { l with status := .ready, stamp := s.clk.toNat } else l
  if g.resident then s else s.queueResume g t

/-- The completion of a posted slot at a place (R353). -/
def State.completeService (s : State) (c slot place : Nat) : State :=
  let served : List (Group × Team) := s.groups.filterMap fun g => (s.team? g.team).bind fun t =>
    if t.ctx = c ∧ !(g.serviceLanes slot).isEmpty then some (g, t) else none
  let s := served.foldl (fun s e => (e.1.serviceLanes slot).foldl (fun s j =>
    s.giveResults e.1 e.2 j (s.bytes (place + 0x100 + 64 * j) 64)) s) s
  let s := s.writeNat place 4 0
  (served.foldl (fun s e => s.serviceReady e.1 e.2 slot) s).wakeAll

/-- The addresses in the arenas that a completion writes, with their cores. -/
def State.serviceAddrs (s : State) (c slot : Nat) : List (Nat × DWord) :=
  s.groups.flatMap fun g =>
    match s.team? g.team with
    | none => []
    | some t =>
      if t.ctx ≠ c then []
      else ((g.serviceLanes slot).filter fun j => !(g.resident && decide ((g.lane j).lo ≤ (g.lane j).outBase))).flatMap fun j =>
        (g.outAddrs t.rst j).map fun a => (g.core, a)

/-- What a completion has to wait for in the arenas, if anything. -/
def State.serviceAbsent (s : State) (c slot : Nat) : Option (Option DWord) :=
  (s.serviceAddrs c slot).findSome? fun e => (s.reachOne c e.1 e.2 1).blocked

/-- A completion that waits no more. -/
def State.serviceOver (s : State) (ctx slot : Nat) : State :=
  s.mapCtx ctx fun x => { x with svcDone := x.svcDone.filter fun n => n != slot }

/-- A completion that has to wait: it is tried again once what it waits for has come (R353); where that is a device out of
reach, it is given up after 1 s, with a record (R405, log 44). -/
def State.serviceWaits (s : State) (ctx slot : Nat) (page : Option DWord) : State :=
  let r := s.mapCtx ctx fun x => { x with svcDone := if x.svcDone.contains slot then x.svcDone else x.svcDone ++ [slot] }
  match ((0, (s.ctx ctx).svcAddress slot) :: s.serviceAddrs ctx slot).findSome? fun e => s.awayOf ctx e.1 [e.2] 1 with
  | none => r.askFor ctx page
  | some va => (r.askFor ctx page).awayTurn (.service ctx slot) fun s =>
      (s.serviceOver ctx slot).addRecord (contextRecord ctx (unreachable va) s.clk)

/-- A slot index written to SVCDONE (R353, R400); a slot whose STATE is not 2 is ignored. -/
def State.serviceDone (s : State) (ctx slot : Nat) : State :=
  let x := s.ctx ctx
  if x.svcSlots ≤ slot then s
  else
    let over' := (s.notAway (.service ctx slot)).serviceOver ctx slot
    match s.reachOne ctx 0 (x.svcAddress slot) 1 with
    | .absent va => s.serviceWaits ctx slot (some va)
    | .waits => s.serviceWaits ctx slot none
    | .denied _ => over'
    | .ok =>
      let place := s.placeFor ctx 0 (x.svcAddress slot) 1
      if s.readNat place 4 ≠ 2 then over'
      else
        match s.serviceAbsent ctx slot with
        | some page => s.serviceWaits ctx slot page
        | none => over'.completeService ctx slot place

/-- SERVICE_COMPLETION (R353, R400): a slot reported done, or one whose completion has waited. -/
def execServiceCompletion (ctx slot : Nat) (s : State) : Host.Outcome State Fault Refusal := .next (s.serviceDone ctx slot)

end Sys2Proof.Machine
end

