-- ==== Sys2Proof/Machine/Migration.lean ====
section
/-! DEFINITION. The migration arbiter (R168 to R170, R399, R414). -/

namespace Sys2Proof.Machine

/-! ## Frames -/

/-- Whether an entry of a frame ring names a frame of a page size (R414): aligned, and wholly in HBM outside retired pages. -/
def State.frameGood (s : State) (size v : Nat) : Bool :=
  let n := pageBytes size
  decide (v % n = 0 ∧ targetOf v = .hbm ∧ targetOf (v + n - 1) = .hbm) && !s.hub.retired.any fun r => decide (v ≤ r ∧ r < v + n)

/-- The AddressFault record of a bad ring entry (R414). -/
def ringRecord (c v : Nat) (clk : DWord) : ErrorRecord := contextRecord c (addressed addressFault (BitVec.ofNat 64 v) 1) clk

/-- What the look for a frame finds: a frame, none, an entry whose home is not ready, or one whose home has failed (R37, R414). -/
inductive Taken where
  | frame (f : Nat)
  | none
  | waits
  | failed (place : Nat)
  deriving DecidableEq, Repr

/-- The record of memory that the arbiter cannot reach, since its home has failed (R19, R37). -/
def arbiterRecord (c place access : Nat) (clk : DWord) : ErrorRecord :=
  contextRecord c (addressed accessViolation (BitVec.ofNat 64 place) access) clk

/-- The next frame of a context's ring of a size (R414), bad entries skipped with a record; none where the next entry is 0. fuel
bounds the entries looked at: the ring has no more. -/
def takeFrom (fuel c size ring entries : Nat) (s : State) : Taken × State :=
  match fuel with
  | 0 => (.none, s)
  | k + 1 =>
    let i := sget 0 (s.ctx c).frameNext size
    let place := ring + 8 * i
    let v := s.readNat place 8
    match s.home place with
    | .waiting => (.waits, s)
    | .failed => (.failed place, s)
    | .ready =>
      if v = 0 then (.none, s)
      else
        let s := (s.writeNat place 8 0).mapCtx c fun x => { x with frameNext := sput 0 x.frameNext size ((i + 1) % entries) }
        if s.frameGood size v then (.frame v, s) else takeFrom k c size ring entries (s.addRecord (ringRecord c v s.clk))

/-- A frame for a page of a size in HBM, taken from its context's ring; a ring at PA 0 has none (R414). -/
def State.takeFrame (s : State) (c size : Nat) : Taken × State :=
  match (s.ctx c).frameRings[size]? with
  | none => (.none, s)
  | some (ring, entries) => if ring = 0 then (.none, s) else takeFrom entries c size ring.toNat entries s

/-- The frame a page moves to: from a ring for HBM, a free value for the other tiers (log 27). -/
def State.frameFor (s : State) (m : Move) (size : Nat) : Taken × State :=
  let n := pageBytes size
  match m.tier with
  | .hbm => s.takeFrame m.ctx size
  | .peat => (.frame (0x10000000000 + Config.tierFrame s.now % (0xC000000000 / n) * n), s)
  | .host => (.frame (0x8000000000000 + Config.tierFrame s.now % (0x8000000000000 / n) * n), s)

/-! ## Requests -/

/-- MIGRATION_REQUEST (R169): a request of the host or of the device. The device asks for HBM (R168). -/
def execMigrationRequest (ctx : Nat) (va : DWord) (tier : Tier) (byHost : Bool) (s : State) : Host.Outcome State Fault Refusal :=
  if !(s.ctx ctx).live ∨ (s.pageOf ctx va).isNone then .next s
  else .next (s.addMove ctx va (if byHost then tier else .hbm) byHost false)

/-- The leaf a request is about. -/
def State.moveLeaf (s : State) (m : Move) : Option Leaf := s.walk m.ctx m.va

/-- Whether a store buffer, an overflow line or a unit yet to be applied holds a store to n bytes from a place (R170). -/
def State.storesTo (s : State) (place n : Nat) : Bool :=
  let inside (e : Nat × Byte) : Bool := decide (place ≤ e.1 ∧ e.1 < place + n)
  (s.teams.any fun t => t.store.any inside) || s.parts.any fun p => p.bytes.any inside

/-- Whether a request waits for a hold-down of its party (R169). -/
def State.heldDown (s : State) (m : Move) : Bool :=
  s.holds.any fun h => h.host == m.byHost && (s.pageOf h.ctx h.va).isSome && s.pageOf h.ctx h.va == s.pageOf m.ctx m.va

/-- Whether another move of the same page is under way. -/
def State.underWay (s : State) (m : Move) : Bool :=
  s.moves.any fun x => x.started && x.id != m.id && s.pageOf x.ctx x.va == s.pageOf m.ctx m.va

/-- Whether a request can be taken up as far as its page is concerned (R169, R170): a local page, with no store to it pending
(log 41). -/
def State.moveReady (s : State) (m : Move) (l : Leaf) : Bool :=
  !m.started && !s.heldDown m && !s.underWay m && !entryRem l.entry &&
    !s.storesTo (entryFrame l.entry) (pageBytes l.size) && (m.byHost || !entryP l.entry)

/-- The places of a page's entries (R399). -/
def entryPlaces (place size : Nat) : List Nat := if size = 1 then (List.range 16).map fun i => place + 8 * i else [place]

/-- P of a page's entries, and FRAME where one is given (R169, R399). -/
def State.writeEntries (s : State) (place size : Nat) (present : Bool) (frame : Option Nat) : State :=
  (entryPlaces place size).foldl (fun s p =>
    let e := s.readNat p 8
    let e := e - bitsOf e 1 1 * 2 + 2 * natOf present
    let e := match frame with
      | some f => e - bitsOf e 12 40 * 4096 + f % 2 ^ 52 / 4096 * 4096
      | none => e
    s.writeNat p 8 e) s

/-- A request leaves the arbiter. -/
def State.dropMove (s : State) (id : Nat) : State := { s with moves := s.moves.filter fun m => !(m.id == id) }

/-- The status of MIGRATE, where the request came from the mailbox (R395, R396). -/
def State.answerMove (s : State) (m : Move) (status : Nat) : State := if m.mailbox then s.mailboxDone status else s

/-- A move ends since memory that it needs has failed (R19, R37): the request is over, with a record (log 41). -/
def State.failMove (s : State) (m : Move) (place access : Nat) : State :=
  ((s.dropMove m.id).answerMove m 2).addRecord (arbiterRecord m.ctx place access s.clk)

/-- A move starts (R169): its frame is taken, P is cleared, and the page is swept from every translation. -/
def State.startMove (s : State) (m : Move) (l : Leaf) : State :=
  match s.frameFor m l.size with
  | (.none, s) => if m.mailbox then (s.dropMove m.id).mailboxDone 2 else s
  | (.waits, s) => s
  | (.failed place, s) => s.failMove m place 0
  | (.frame f, s) =>
    let begun (x : Move) : Move :=
      if x.id = m.id then
        { x with started := true, entryPlace := l.base, size := l.size, frame := f, source := entryFrame l.entry }
      else x
    let s := { s with moves := s.moves.map begun }
    (s.writeEntries l.base l.size false none).sweep (s.ctx m.ctx).asid m.va

/-- Whether a request has to wait for the next entry of its ring or for that entry's home (R37, R414). -/
def State.frameWaits (s : State) (m : Move) (l : Leaf) : Bool :=
  decide (m.tier = .hbm) &&
    (match (s.ctx m.ctx).frameRings[l.size]? with
     | none => !m.mailbox
     | some (ring, _) =>
       let place := ring.toNat + 8 * sget 0 (s.ctx m.ctx).frameNext l.size
       if ring == 0 then !m.mailbox
       else
         match s.home place with
         | .waiting => true
         | .failed => false
         | .ready => !m.mailbox && s.readNat place 8 == 0)

/-- The first request, in order of arrival, whose move can start (log 41). -/
def State.nextMove (s : State) : Option (Move × Leaf) :=
  s.moves.findSome? fun m => (s.moveLeaf m).bind fun l =>
    if s.moveReady m l && !s.frameWaits m l then some (m, l) else none

/-- MIGRATION_START (R169, R170, R414). -/
def execMigrationStart (s : State) : Host.Outcome State Fault Refusal :=
  if !s.hub.isReady .migr then .next s
  else
    match s.nextMove with
    | none => .next s
    | some (m, l) => .next (s.startMove m l)

/-! ## Completion -/

/-- Bytes moved from one frame to another: what the target held is gone. -/
def movedBytes (mem : Memory) (source target n : Nat) : Memory :=
  let inside (f : Nat) (e : Nat × Byte) : Bool := decide (f ≤ e.1 ∧ e.1 < f + n)
  let moving := (mem.filter (inside source)).map fun e => (target + (e.1 - source), e.2)
  sputAll 0 (mem.filter fun e => !inside target e) moving

/-- Lanes parked on pages that are there now, or that are no longer mapped, become ready and execute their instruction again; a
saved group's resume ember is queued once every awaited page is there (R103, R168). -/
def State.wakePages (s : State) : State :=
  s.retryPhases.groups.foldl (fun s g =>
    match s.team? g.team with
    | none => s
    | some t =>
      let over' (j : Nat) : Bool :=
        match (g.lane j).status with
        | .parked (.page va) =>
          match s.walked t.ctx va with
          | .leaf l => entryP l.entry
          | .unmapped => true
          | .waits _ => false
        | _ => false
      let up := g.live.filter over'
      if up.isEmpty then s
      else
        let s := s.mapGroup g.id fun g => g.mapLanes fun j l =>
          if up.contains j then { l with status := .ready, stamp := s.clk.toNat } else l
        let left (j : Nat) : Bool := !up.contains j && (match (g.lane j).status with
          | .parked (.page _) => true
          | _ => false)
        if g.resident || g.live.any left then s else s.queueResume g t) s.retryPhases

/-- The hold-down after a contested move (R169). -/
def State.holdDown (s : State) (m : Move) : State :=
  if !m.contested then s
  else { s with holds := s.holds ++ [{ ctx := m.ctx, va := m.va, size := m.size, host := !m.byHost, since := s.real }] }

/-- A move completes (R169): the page's contents stand in the new frame, FRAME is written and P set. -/
def State.completeMove (s : State) (m : Move) : State :=
  let s := { s with mem := movedBytes s.mem m.source m.frame (pageBytes m.size) }
  let s := (s.writeEntries m.entryPlace m.size true (some m.frame)).dropMove m.id
  ((s.holdDown m).answerMove m 0).wakePages.wakeAll

/-- Whether a request has nothing left to do: its context is gone, its page is not mapped any more, or a device request's page
is there. -/
def State.moveIdle (s : State) (m : Move) : Bool :=
  !m.started && (!(s.ctx m.ctx).live || match s.walked m.ctx m.va with
    | .unmapped => true
    | .waits _ => false
    | .leaf l => !m.byHost && entryP l.entry)

/-- Places that stand for the memory a move under way still needs: the page where it is, the frame and the page's entries. -/
def Move.places (m : Move) : List Nat :=
  spanPlaces m.source (pageBytes m.size) ++ spanPlaces m.frame (pageBytes m.size) ++ [m.entryPlace]

/-- The oldest move under way that need not wait for a home (R37). -/
def State.movable (s : State) : Option Move :=
  s.moves.find? fun m => m.started && decide (s.homesOf m.places ≠ .waiting)

/-- MIGRATION_COMPLETE (R37, R168, R169): the oldest move under way that can completes, or a request whose page system software
has dealt with itself is over. -/
def execMigrationComplete (s : State) : Host.Outcome State Fault Refusal :=
  match s.movable with
  | some m =>
    match m.places.find? fun p => decide (s.home p = .failed) with
    | some place => .next (s.failMove m place (natOf (place < m.source ∨ m.source + pageBytes m.size ≤ place))).wakeAll
    | none => .next (s.completeMove m)
  | none =>
    match s.moves.find? s.moveIdle with
    | some m => .next ((s.dropMove m.id).answerMove m 1).wakePages.wakeAll
    | none => .next s.wakePages.wakeAll

/-- HOLDDOWN_EXPIRY (R169): 50 µs of real time after the move. -/
def execHolddownExpiry (s : State) : Host.Outcome State Fault Refusal :=
  .next { s with holds := s.holds.filter fun h => decide (s.real < h.since + 50000) }

end Sys2Proof.Machine
end

