-- ==== Sys2Proof/Machine/Hearth.lean ====
section
/-! DEFINITION. The Hearth: host queues (R385 to R391), launch records (R392 to R394), its restart, and the command links (R402,
R403). -/

namespace Sys2Proof.Machine

/-! ## Launch records -/

/-- A role entry of a launch record (R393), from its 32 bytes. -/
def roleOf (b : List Byte) : Role :=
  { entry := BitVec.ofNat 64 (field b 0 8), budget := 16 * field b 8 2, groups := field b 10 2, kmax := 32 * field b 12 2,
    tiles := field b 14 1, kind := field b 15 1 }

/-- CLU and LFLAGS of a record (R392). -/
def recordClu (b : List Byte) : Nat := field b 0x00C 4

def recordFlags (b : List Byte) : Nat := field b 0x010 4

/-- A launch record from its 512 bytes (R392). -/
def recordOf (b : List Byte) : Record :=
  let fl := recordFlags b
  { gx := field b 0 4, gy := field b 4 4, gz := field b 8 4, cx := bitsOf (recordClu b) 0 4, cy := bitsOf (recordClu b) 4 4,
    pri := bitsOf fl 0 2, rst := bitOf fl 2, aud := bitOf fl 3, priv := bitOf fl 4, pipe := bitOf fl 7,
    slice := field b 0x014 4, sba := field b 0x018 4, ringCtl := BitVec.ofNat 32 (field b 0x020 4),
    ringOff := BitVec.ofNat 32 (field b 0x024 4), ringTh := BitVec.ofNat 32 (field b 0x028 4),
    roles := (List.range (bitsOf fl 5 2)).map fun k => roleOf (b.drop (0x040 + 0x20 * k)),
    slots := (List.range 8).map fun j => BitVec.ofNat 64 (field b (0x0A0 + 8 * j) 8),
    buffers := (List.range 32).map fun n => BitVec.ofNat 64 (field b (0x100 + 8 * n) 8) }

/-- Whether a role entry is within R393; its entry counts for a grid launch only. -/
def Role.good (r : Role) (grid : Bool) : Bool :=
  decide (32 ≤ r.budget ∧ r.budget ≤ 512 ∧ 1 ≤ r.groups ∧ r.groups ≤ 64 ∧ 64 ≤ r.kmax ∧ r.kmax ≤ 65536 ∧ r.tiles ≤ 4 ∧
    r.kind ≤ 3) && (!grid || decide (r.entry.toNat % 128 = 8 ∧ r.entry.toNat < 2 ^ 56))

/-- Whether the kinds of a record's roles agree with R75 and R393: one main role, or distinct pipeline roles in order with a loader
budget no larger than the computer's. -/
def Record.rolesGood (r : Record) : Bool :=
  let kinds := r.roles.map fun x => x.kind
  let budget (k : Nat) : Option Nat := (r.roles.find? fun x => x.kind == k).map fun x => x.budget
  let pipes := [[1], [2], [3], [1, 2], [1, 3], [2, 3], [1, 2, 3]]
  (if r.pipe then pipes.contains kinds else kinds == [0]) &&
    decide ((r.roles.map fun x => x.groups).foldl (· + ·) 0 ≤ 64) &&
    (match budget 1, budget 2 with
     | some l, some c => decide (l ≤ c)
     | _, _ => true)

/-- Whether the ring a record names is one of R246: of a pipeline record, its words aligned in a declared buffer (log 46). -/
def Record.ringGood (r : Record) : Bool :=
  let c := r.ringCtl.toNat
  let d := r.buffers.getD (bitsOf c 0 5) 0
  !bitOf c 15 || (r.pipe && descV d && decide (r.ringOff.toNat % 8 = 0 ∧ r.ringOff.toNat + 16 * (bitsOf c 8 4 + 1) ≤ descSize d))

/-- Whether a record's buffers have the values of R196's layout, lie in its slice and do not overlap (R392, R394). -/
def Record.buffersGood (r : Record) : Bool :=
  let ds := (r.buffers.mapIdx fun i d => (i, d)).filter fun e => descV e.2
  ds.all fun e => decide (descBase e.2 + descSize e.2 ≤ 4096 * r.slice ∧ descKind e.2 ≠ 3 ∧ bitsOf e.2.toNat 52 3 ≤ 5) &&
    !ds.any fun x => x.1 != e.1 && decide (descBase x.2 < descBase e.2 + descSize e.2 ∧ descBase e.2 < descBase x.2 + descSize x.2)

/-- Whether a launch record passes R394, for a grid launch or for the roles of an ember (log 40). -/
def recordGood (b : List Byte) (grid : Bool) : Bool :=
  let r := recordOf b
  let total := r.gx * r.gy * r.gz
  let clu := recordClu b
  let fl := recordFlags b
  let ctl := r.ringCtl.toNat
  decide (1 ≤ r.gx ∧ 1 ≤ r.gy ∧ 1 ≤ r.gz ∧ total < 2 ^ 32 ∧ 1 ≤ r.cx ∧ r.cx ≤ 8 ∧ 1 ≤ r.cy ∧ r.cy ≤ 6 ∧ r.cx * r.cy ≤ 12 ∧
      clu < 256 ∧ fl < 256 ∧ 1 ≤ bitsOf fl 5 2 ∧ 1 ≤ r.slice ∧ r.slice ≤ 128 ∧ r.sba ≤ 64) &&
    decide (bitsOf ctl 5 3 = 0 ∧ bitsOf ctl 12 3 = 0 ∧ bitsOf ctl 16 16 = 0) &&
    (r.roles.all fun x => x.good grid) && r.rolesGood && r.ringGood && r.buffersGood &&
    (r.slots.all fun d => decide (bitsOf d.toNat 0 4 ≤ 11)) && (decide (r.cx * r.cy ≤ 1) || decide (total % (r.cx * r.cy) = 0))

/-! ## Queues -/

/-- A host queue by number; a queue updated. -/
def State.hostQueue (s : State) (q : Nat) : HostQueue := sget {} s.host.queues q

def State.mapQueue (s : State) (q : Nat) (f : HostQueue → HostQueue) : State :=
  { s with host := { s.host with queues := sput {} s.host.queues q (f (s.hostQueue q)) } }

/-- A write to KICK (R386, R37): the maximum is kept; a narrower write is ignored and sets NARROW. -/
def State.kick (s : State) (queue : Nat) (wide : Bool) (value : DWord) : State :=
  if 1024 ≤ queue ∨ !s.hub.isReady .hqt then s
  else
    s.mapQueue queue fun q =>
      if !wide then { q with narrow := true }
      else { q with kick := if q.kick.toNat < value.toNat then value else q.kick }

/-- KICK (R386). -/
def execKick (queue : Nat) (wide : Bool) (value : DWord) (s : State) : Host.Outcome State Fault Refusal :=
  .next (s.kick queue wide value)

/-- QCTL written (R385, R391): LOG2N keeps its value while EN = 1. -/
def HostQueue.setControl (q : HostQueue) (v : Word) (swapped : Bool) : HostQueue :=
  { q with en := v.getLsbD 0, log2n := if q.en then q.log2n else v.extractLsb' 2 5, ctx := v.extractLsb' 8 10, swo := swapped }

/-- A write to QCTL (R385). -/
def State.writeControl (s : State) (queue : Nat) (value : Word) : State :=
  if 1024 ≤ queue ∨ !s.plat.power then s
  else s.mapQueue queue fun q => q.setControl value (s.ctx (bitsOf value.toNat 8 10)).swapped

/-- QCTL_WRITE (R385). -/
def execQctlWrite (queue : Nat) (value : Word) (s : State) : Host.Outcome State Fault Refusal :=
  .next (s.writeControl queue value)

/-- The place of command i of a queue (R385). -/
def HostQueue.place (q : HostQueue) (i : Nat) : Nat :=
  let base := bitsOf q.qbase.toNat 12 51 * 4096
  (if q.qbase.getLsbD 63 then base % 2 ^ 52 else 0x8000000000000 + base % 0x8000000000000) + 64 * (i % 2 ^ q.log2n.toNat)

/-- The fields of a command (R387). -/
def commandOpc (b : List Byte) : Nat := field b 0 1

def commandCse (b : List Byte) : Bool := bitOf (field b 0 8) 8

def commandOrd (b : List Byte) : Bool := bitOf (field b 0 8) 9 || commandOpc b == 3

/-- Whether a command has a nonzero reserved field or an unknown OPC (R387). -/
def commandBad (b : List Byte) : Bool :=
  decide (bitsOf (field b 0 8) 10 54 ≠ 0 ∨ 4 < commandOpc b) || (b.drop 0x28).any fun x => x != 0

/-- BADCMD with the index of the command (R385, R387). -/
def State.noteBad (s : State) (queue index : Nat) : State :=
  s.mapQueue queue fun q => { q with badcmd := true, badIndex := BitVec.ofNat 32 index }

/-- Whether the Hearth works (R34, R390, R410). -/
def State.hearthUp (s : State) : Bool := s.hub.isReady .hearth && !s.host.restarting && !s.plat.quiescing

/-- HOST_COMMAND_ACCEPT (R388, R389, R391): the next command of an enabled, switched-in queue is journalled and PROG raised; a
queue that is too far ahead is stopped. -/
def execHostCommandAccept (queue : Nat) (s : State) : Host.Outcome State Fault Refusal :=
  let q := s.hostQueue queue
  let i := q.prog.toNat
  if 1024 ≤ queue ∨ !s.hearthUp ∨ !q.en ∨ q.swo ∨ q.kick.toNat ≤ i then .next s
  else if 2 ^ q.log2n.toNat < q.kick.toNat - i then .next (s.mapQueue queue fun q => { q with overrun := true, en := false })
  else if s.home (q.place i) ≠ .ready then .next s
  else
    let b := s.bytes (q.place i) 64
    let bad := commandBad b
    let e : JournalEntry := { id := s.ids, queue, index := i, ctx := q.ctx.toNat, bytes := b, bad, acted := bad }
    let s := { s with ids := s.ids + 1, host := { s.host with journal := s.host.journal ++ [e] } }
    let s := s.mapQueue queue fun q => { q with prog := q.prog + 1 }
    .next (if bad then s.noteBad queue i else s)

/-! ## Actions -/

/-- Whether a journalled command may start (R387, R388): every earlier one of its queue has started, with ORD completed, and no
WAIT before it holds. -/
def State.mayStart (s : State) (e : JournalEntry) : Bool :=
  !e.acted && s.hearthUp && (s.ctx e.ctx).live && !(s.ctx e.ctx).swapped &&
    !s.host.journal.any fun x => x.queue == e.queue && decide (x.index < e.index) &&
      (!x.acted || commandOrd e.bytes)

/-- The first journalled command with an operation code that may start. -/
def State.nextCommand (s : State) (opc : Nat) : Option JournalEntry :=
  s.host.journal.find? fun e => commandOpc e.bytes == opc && s.mayStart e

/-- An entry of the journal updated. -/
def State.mapEntry (s : State) (id : Nat) (f : JournalEntry → JournalEntry) : State :=
  { s with host := { s.host with journal := s.host.journal.map fun e => if e.id = id then f e else e } }

/-- The actions of a command are done (R388). -/
def State.acted (s : State) (e : JournalEntry) : State := s.mapEntry e.id fun e => { e with acted := true, away := none }

/-- A command found bad at its start (R387): no effect. -/
def State.actBad (s : State) (e : JournalEntry) : State :=
  (s.mapEntry e.id fun e => { e with acted := true, bad := true, away := none }).noteBad e.queue e.index

/-- What reaching n bytes at a global address of a context for the Hearth gives: they are there, a page or home is waited for, the
device that holds an address cannot be reached, an access that is denied or whose home has failed (R19), or bytes that are not all
global (R163). -/
inductive HostReach where
  | bytes (bs : List Byte)
  | wait (va : Option DWord)
  | away (va : DWord)
  | fault (i : FaultInfo)
  | bad
  deriving DecidableEq, Repr

/-- n bytes at a global address of a context, read from M. -/
def State.hostBytes (s : State) (c : Nat) (va : DWord) (n : Nat) : HostReach :=
  if 2 ^ 56 < va.toNat + n then .bad
  else
    (List.range n).foldl (fun r i =>
      match r with
      | .bytes acc =>
        match s.translate c 0 none (va + BitVec.ofNat 64 i) 0 with
        | .denied => .fault (addressed accessViolation (va + BitVec.ofNat 64 i) 0)
        | .absent => .wait (some (va + BitVec.ofNat 64 i))
        | .waits _ => .wait none
        | .ok place _ =>
          match s.home place with
          | .ready => .bytes (acc ++ [s.byte place])
          | .waiting => if isRemote place then .away (va + BitVec.ofNat 64 i) else .wait none
          | .failed => .fault (addressed accessViolation (va + BitVec.ofNat 64 i) 0)
      | r => r) (.bytes [])

/-- No device that a command names is out of reach (any more). -/
def State.reached (s : State) (e : JournalEntry) : State := s.mapEntry e.id fun e => { e with away := none }

/-- A command waits; a page that it waits for is asked for. -/
def State.hostWait (s : State) (e : JournalEntry) (page : Option DWord) : State := (s.reached e).askFor e.ctx page

/-- A command whose operand lies on a device without a usable port (R405): after 1 s it is over, with a record. -/
def State.hostAway (s : State) (e : JournalEntry) (va : DWord) (over' : State → State) : State :=
  match e.away with
  | none => s.mapEntry e.id fun e => { e with away := some s.real }
  | some since => if s.overdue since then (over' s).addRecord (contextRecord e.ctx (unreachable va) s.clk) else s

/-- A command whose operand cannot be read (R19, R387): it is bad, and a record carries the address. -/
def State.hostFault (s : State) (e : JournalEntry) (i : FaultInfo) : State :=
  (s.addRecord (contextRecord e.ctx i s.clk)).actBad e

/-- Every core of a partition invalidates its instruction cache (R394 step 1, R70). -/
def State.clearIcaches (s : State) (partition : Nat) : State :=
  ((List.range 192).filter fun c => bitOf (s.partitionMask partition) (coreSector c)).foldl (fun s c =>
    s.mapCore c fun k => { k with icache := [] }) s

/-- HQ_NOP (R387). -/
def execHqNop (s : State) : Host.Outcome State Fault Refusal :=
  match s.nextCommand 0 with
  | none => .next s
  | some e => .next (s.acted e)

/-- The operands of a command (R387). -/
def commandOp0 (b : List Byte) : DWord := BitVec.ofNat 64 (field b 0x08 8)

def commandOp1 (b : List Byte) : DWord := BitVec.ofNat 64 (field b 0x10 8)

/-- A grid started from a good record (R394): caches, slots with the record, and the central counter. -/
def State.startGrid (s : State) (e : JournalEntry) (r : Record) : State :=
  let x := s.ctx e.ctx
  let i : Instance :=
    { id := s.ids, ctx := e.ctx, record := r, grid := true, ember := gridEmber r (commandOp1 e.bytes), partition := x.partition,
      total := r.gx * r.gy * r.gz, journal := some e.id }
  let s := s.clearIcaches x.partition
  { s with ids := s.ids + 1, instances := s.instances ++ [i] }.mapEntry e.id fun e => { e with acted := true, grid := some i.id }

/-- HQ_LAUNCH (R387, R394). -/
def execHqLaunch (s : State) : Host.Outcome State Fault Refusal :=
  match s.nextCommand 1 with
  | none => .next s
  | some e =>
    let va := commandOp0 e.bytes
    if va.toNat % 64 ≠ 0 then .next (s.actBad e)
    else
      match s.hostBytes e.ctx va 512 with
      | .bad => .next (s.actBad e)
      | .fault i => .next (s.hostFault e i)
      | .wait page => .next (s.hostWait e page)
      | .away va => .next (s.hostAway e va fun s => s.actBad e)
      | .bytes b => if recordGood b true then .next (s.startGrid e (recordOf b)) else .next (s.actBad e)

/-- HQ_EMBER (R237, R387, R394): the ember joins the queue of the least loaded sector of the partition. -/
def execHqEmber (s : State) : Host.Outcome State Fault Refusal :=
  match s.nextCommand 2 with
  | none => .next s
  | some e =>
    let x := s.ctx e.ctx
    if (commandOp0 e.bytes).toNat % 64 ≠ 0 ∨ (commandOp1 e.bytes).toNat % 8 ≠ 0 then .next (s.actBad e)
    else
      match s.hostBytes e.ctx (commandOp0 e.bytes) 512, s.hostBytes e.ctx (commandOp1 e.bytes) 64 with
      | .wait page, _ => .next (s.hostWait e page)
      | _, .wait page => .next (s.hostWait e page)
      | .away va, _ => .next (s.hostAway e va fun s => s.actBad e)
      | _, .away va => .next (s.hostAway e va fun s => s.actBad e)
      | .fault i, _ => .next (s.hostFault e i)
      | _, .fault i => .next (s.hostFault e i)
      | .bytes b, .bytes m =>
        let r := recordOf b
        if !recordGood b false || emberBad r.roles.length m then .next (s.actBad e)
        else
          match s.partitionSectors x.partition with
          | [] => .next s
          | n :: _ =>
            .next (((s.clearIcaches x.partition).submit e.ctx (s.leastLoaded x.partition n) r m []).acted e)
      | _, _ => .next (s.actBad e)

/-- A signal word of a context as the Hearth reaches it for a kind of access (R254, R376): its place, a wait, a device out of reach,
or the fault. -/
inductive WordReach where
  | place (p : Nat)
  | wait (va : Option DWord)
  | away
  | fault (i : FaultInfo)
  deriving DecidableEq, Repr

def State.hostWord (s : State) (c : Nat) (va : DWord) (access : Nat) : WordReach :=
  let fault (kind : Nat) : WordReach := .fault { kind, addr := va, info := BitVec.ofNat 32 access }
  if 2 ^ 56 ≤ va.toNat then fault addressFault
  else if va.toNat % 8 ≠ 0 then fault misaligned
  else
    match s.translate c 0 none va access with
    | .denied => fault accessViolation
    | .absent => .wait (some va)
    | .waits _ => .wait none
    | .ok place _ =>
      match s.home place with
      | .ready => .place place
      | .waiting => if isRemote place then .away else .wait none
      | .failed => fault accessViolation

/-- HQ_SIGNAL (R387, R254). -/
def execHqSignal (s : State) : Host.Outcome State Fault Refusal :=
  match s.nextCommand 3 with
  | none => .next s
  | some e =>
    match s.hostWord e.ctx (commandOp0 e.bytes) 3 with
    | .place p => .next ((s.raiseWord p (commandOp1 e.bytes).toNat).acted e)
    | .wait page => .next (s.hostWait e page)
    | .away => .next (s.hostAway e (commandOp0 e.bytes) fun s => s.acted e)
    | .fault i => .next ((s.addRecord (contextRecord e.ctx i s.clk)).acted e)

/-- HQ_WAIT (R387): later commands of the queue are held until the word reaches the value. -/
def execHqWait (s : State) : Host.Outcome State Fault Refusal :=
  match s.nextCommand 4 with
  | none => .next s
  | some e =>
    match s.hostWord e.ctx (commandOp0 e.bytes) 0 with
    | .place p => if (commandOp1 e.bytes).toNat ≤ s.readNat p 8 then .next (s.acted e) else .next (s.reached e)
    | .wait page => .next (s.hostWait e page)
    | .away => .next (s.hostAway e (commandOp0 e.bytes) fun s => s.acted e)
    | .fault i => .next ((s.addRecord (contextRecord e.ctx i s.clk)).acted e)

/-! ## Completion -/

/-- Whether a grid is done (R387): every team has exited and no unit of any is left to apply, on any device. -/
def State.gridDone (s : State) (iid : Nat) : Bool :=
  let ts := s.teams.filter fun t => t.inst == iid
  ((s.instance? iid).map fun i => decide (i.total ≤ i.next)).getD true && (ts.all fun t => decide (t.exit = .gone)) &&
    !(s.clusters.any fun k => k.inst == iid && decide (k.members.length < k.cx * k.cy)) &&
    !s.parts.any fun p => ts.any fun t => t.id == p.team

/-- HOST_COMMAND_COMPLETE (R387, R388): a command whose effect is complete leaves the journal; CSIG is raised where CSE asks. -/
def execHostCommandComplete (entry : Nat) (s : State) : Host.Outcome State Fault Refusal :=
  match s.host.journal.find? fun e => e.id == entry with
  | none => .next s
  | some e =>
    if !s.hearthUp || !e.acted || !((e.grid.map s.gridDone).getD true) then .next s
    else
      let gone := { s with host := { s.host with journal := s.host.journal.filter fun x => x.id != entry } }
      if !commandCse e.bytes then .next gone
      else
        match s.hostWord e.ctx (BitVec.ofNat 64 (field e.bytes 0x18 8)) 3 with
        | .place p => .next (gone.raiseWord p (field e.bytes 0x20 8))
        | .wait page => .next (s.hostWait e page)
        | .away => .next (s.hostAway e (BitVec.ofNat 64 (field e.bytes 0x18 8)) fun _ => gone)
        | .fault i => .next (gone.addRecord (contextRecord e.ctx i s.clk))

/-! ## Restart and command links -/

/-- HEARTH_RESTART (R390, R403, R406). -/
def execHearthRestart (s : State) : Host.Outcome State Fault Refusal :=
  if !s.hub.isReady .hearth then .next s
  else .next { s with hub := s.hub.withdraw .hearth, host := { s.host with restarting := true } }

/-- The messages that wait for the Hearth are handled (R402, R403), each once, and every link has its 16 permits. -/
def Sector.relink (c : Sector) : Sector :=
  { c with handledUp := c.handledUp ++ (c.waitingUp.filter fun n => !c.handledUp.contains n).eraseDups, waitingUp := [],
           permitsUp := 16, permitsDown := 16 }

/-- HEARTH_RESTART_END (R390, R403, R406): the journal is taken up where it stands; a staged image runs from here on. -/
def execHearthRestartEnd (s : State) : Host.Outcome State Fault Refusal :=
  if !s.host.restarting then .next s
  else
    let relinked (e : Nat × Sector) : Option (Nat × Sector) := if e.2.relink = {} then none else some (e.1, e.2.relink)
    let s := s.activate
    let s := { s with host := { s.host with restarting := false }, hub := { s.hub with fwsvn := s.runningVersion },
                      sectors := s.sectors.filterMap relinked }
    .next (s.becomeReady .hearth)

/-- COMMAND_LINK_MESSAGE (R402, R403): a message with a number already handled is dropped and acknowledged again; one to a Hearth
that restarts takes a permit and waits. -/
def execCommandLinkMessage (sector : Nat) (toHearth : Bool) (number : Word) (s : State) : Host.Outcome State Fault Refusal :=
  if 16 ≤ sector then .next s
  else
    .next (s.mapSector sector fun c =>
      if !toHearth then
        if c.permitsDown = 0 ∨ c.handledDown.contains number then c else { c with handledDown := c.handledDown ++ [number] }
      else if s.host.restarting then
        if c.permitsUp = 0 then c else { c with waitingUp := c.waitingUp ++ [number], permitsUp := c.permitsUp - 1 }
      else if c.permitsUp = 0 ∨ c.handledUp.contains number then c
      else { c with handledUp := c.handledUp ++ [number] })

end Sys2Proof.Machine
end

