-- ==== Sys2Proof/Machine/Mailbox.lean ====
section
/-! DEFINITION. The mailbox (R395 to R397, R404, R406 to R408), the registers a host writes (R382 to R385, R400, R401), and host
accesses to device memory (R179). -/

namespace Sys2Proof.Machine

/-! ## The mailbox page -/

/-- n bytes of the mailbox at an offset; as a number. -/
def State.mailBytes (s : State) (offset n : Nat) : List Byte := (List.range n).map fun i => sget 0 s.host.mailbox (offset + i)

def State.mail (s : State) (offset n : Nat) : Nat := leNat (s.mailBytes offset n)

/-- Bytes written into the mailbox. -/
def State.putMail (s : State) (offset : Nat) (bs : List Byte) : State :=
  { s with host := { s.host with mailbox := sputAll 0 s.host.mailbox (bs.mapIdx fun i b => (offset + i, b)) } }

/-- An operand of a command: its offset, its size in bytes, and the number of its low bits that are not reserved (R396). -/
structure Operand where
  offset : Nat
  size : Nat
  bits : Nat
  deriving DecidableEq, Repr

/-- Whether every reserved operand bit from 0x008 to 0x0FF is zero (R396). -/
def State.operandsGood (s : State) (os : List Operand) : Bool :=
  (os.all fun o => decide (s.mail o.offset o.size < 2 ^ o.bits)) &&
    (List.range 0xF8).all fun i =>
      let a := 8 + i
      (os.any fun o => decide (o.offset ≤ a ∧ a < o.offset + o.size)) || sget 0 s.host.mailbox a == 0

/-- Whether a command of a code waits at the doorbell (R395). -/
def State.commandWaits (s : State) (code : Nat) : Bool :=
  s.plat.power && s.mail 0xFF8 8 == 1 && s.mail 0 4 == code

/-- A mailbox command (R395): without it at the doorbell nothing happens; with a nonzero reserved bit status 1; else its act,
which answers for itself. -/
def State.command (s : State) (code : Nat) (os : List Operand) (act : State → State) : Host.Outcome State Fault Refusal :=
  if !s.commandWaits code then .next s
  else if !s.operandsGood os then .next (s.mailboxDone 1)
  else .next (act s)

/-! ## Partitions and contexts -/

/-- PARTSET (R395, R396). -/
def setPartition (s : State) : State :=
  let p := s.mail 0x008 4
  let mask := s.mail 0x00C 4
  let taken := (List.range 16).any fun q => q != p && decide (s.partitionMask q &&& mask ≠ 0)
  let running := s.contexts.any fun e => e.2.live && e.2.partition == p
  if taken then s.mailboxDone 1
  else if running then s.mailboxDone 4
  else { s with host := { s.host with partitions := sput 0 s.host.partitions p mask } }.mailboxDone 0

def execPartset (s : State) : Host.Outcome State Fault Refusal :=
  s.command 0x01 [⟨0x008, 4, 4⟩, ⟨0x00C, 4, 16⟩] setPartition

/-- Whether a count of ring entries is a power of two from 16 to 2^20 (R396). -/
def ringCount (n : Nat) : Bool := (List.range 17).any fun k => n == 2 ^ (k + 4)

/-- The shadow capacity in lines of the dies of a partition (R13, R181, R397). -/
def State.partitionCapacity (s : State) (p : Nat) : Nat :=
  16 * sliceCapacity * (List.range 4).countP fun d => decide (s.partitionMask p / 2 ^ (4 * d) % 16 ≠ 0)

/-- The HBM frame rings of CTXNEW, by page size code (R396, R414). -/
def State.newRings (s : State) : List (DWord × Nat) :=
  (BitVec.ofNat 64 (s.mail 0x030 8), s.mail 0x038 4) ::
    (List.range 3).map fun z => (BitVec.ofNat 64 (s.mail (0x0D0 + 16 * z) 8), s.mail (0x0D8 + 16 * z) 4)

/-- Whether the operands of CTXNEW are good (R396, R397). -/
def State.newGood (s : State) : Bool :=
  let p := s.mail 0x008 4
  let mask := s.partitionMask p
  let log := s.mail 0x03C 4
  decide (mask ≠ 0 ∧ s.mail 0x010 8 % 4096 = 0 ∧ s.mail 0x010 8 < 2 ^ 52 ∧ s.mail 0x020 8 % 4096 = 0 ∧
      s.mail 0x020 8 < 2 ^ 56 ∧ s.mail 0x028 8 % 4096 = 0 ∧ 8 ≤ log ∧ log ≤ 20) &&
    ringCount (s.mail 0x038 4) &&
    ((s.newRings.drop 1).all fun r => r.1 == 0 || ringCount r.2) &&
    (List.range 16).all fun n =>
      let a := s.mail (0x040 + 8 * n) 8
      decide (a % 4096 = 0 ∧ a < 2 ^ 56) && (bitOf mask n || a == 0)

/-- A context with the host page of another one (R400). -/
def Context.withPage (x y : Context) : Context := { x with eqnote := y.eqnote, svcnote := y.svcnote }

/-- The new context of CTXNEW (R397): the registers of R335 at their reset values. -/
def State.newContext (s : State) : Context :=
  { live := true, partition := s.mail 0x008 4, asid := s.mail 0x00C 4, root := BitVec.ofNat 64 (s.mail 0x010 8),
    quota := s.mail 0x018 4, job := s.mail 0x01C 4, pool := BitVec.ofNat 64 (s.mail 0x020 8), poolSize := s.mail 0x028 8,
    emberRings := (List.range 16).map fun n => BitVec.ofNat 64 (s.mail (0x040 + 8 * n) 8), emberLog := s.mail 0x03C 4,
    frameRings := s.newRings }

/-- CTXNEW (R396, R397): status 2 where 1024 contexts exist or the quotas exceed the capacity; else the lowest free number. -/
def makeContext (s : State) : State :=
  if !s.newGood then s.mailboxDone 1
  else
    let p := s.mail 0x008 4
    let quotas := ((s.contexts.filter fun e => e.2.live && e.2.partition == p).map fun e => e.2.quota).foldl (· + ·) 0
    match (List.range 1024).find? fun c => !(s.ctx c).live with
    | none => s.mailboxDone 2
    | some c =>
      if s.partitionCapacity p < quotas + s.mail 0x018 4 then s.mailboxDone 2
      else (((s.mapCtx c fun x => s.newContext.withPage x).updateSwo).putMail 0x008 (leBytes 4 c)).mailboxDone 0

/-- The operands of CTXNEW (R396). -/
def newOperands : List Operand :=
  [⟨0x008, 4, 4⟩, ⟨0x00C, 4, 8⟩, ⟨0x010, 8, 64⟩, ⟨0x018, 4, 32⟩, ⟨0x01C, 4, 32⟩, ⟨0x020, 8, 64⟩, ⟨0x028, 8, 64⟩,
   ⟨0x030, 8, 64⟩, ⟨0x038, 4, 32⟩, ⟨0x03C, 4, 5⟩] ++ ((List.range 16).map fun n => ⟨0x040 + 8 * n, 8, 64⟩) ++
    (List.range 3).flatMap fun z => [⟨0x0D0 + 16 * z, 8, 64⟩, ⟨0x0D8 + 16 * z, 4, 32⟩]

def execCtxnew (s : State) : Host.Outcome State Fault Refusal := s.command 0x02 newOperands makeContext

/-- A context freed, with what its teams have left behind. -/
def State.freeContext (s : State) (c : Nat) : State :=
  let gone (tid : Nat) : Bool := ((s.team? tid).map fun t => t.ctx == c).getD false
  State.updateSwo { s with
           contexts := sput {} s.contexts c (({} : Context).withPage (s.ctx c)),
           groups := s.groups.filter fun g => !gone g.team,
           teams := s.teams.filter fun t => t.ctx != c,
           clusters := s.clusters.filter fun k => !((s.instance? k.inst).map fun i => i.ctx == c).getD false,
           instances := s.instances.filter fun i => i.ctx != c,
           embers := s.embers.filter fun e => e.ctx != c,
           keys := s.keys.filter fun k => k.ctx != c,
           releases := s.releases.filter fun r => r.1 != c,
           records := s.records.filter fun r => r.ctx != c,
           moves := s.moves.filter fun m => m.ctx != c,
           samples := s.samples.filter fun x => x.ctx != c,
           ranks := s.ranks.filter fun r => r.ctx != c }

/-- CTXFREE (R395): busy while teams of the context exist. -/
def endContext (s : State) : State :=
  let c := s.mail 0x008 4
  if !(s.ctx c).live then s.mailboxDone 1
  else if s.teams.any fun t => t.ctx == c && !decide (t.exit = .gone) then s.mailboxDone 4
  else (s.freeContext c).mailboxDone 0

def execCtxfree (s : State) : Host.Outcome State Fault Refusal := s.command 0x03 [⟨0x008, 4, 10⟩] endContext

/-- CTXSWAP (R363, R395): the answer comes when the swap is done. -/
def swapContexts (s : State) : State :=
  let a := s.mail 0x008 4
  let b := s.mail 0x00C 4
  let x := s.ctx a
  let y := s.ctx b
  if !x.live ∨ !y.live ∨ a = b ∨ x.partition ≠ y.partition then s.mailboxDone 1
  else if s.preempts.any fun p => match p.purpose with
      | .swap _ _ _ => true
      | _ => false then s
  else { s with preempts := s.preempts ++ [{ purpose := .swap x.partition a b }] }

def execCtxswap (s : State) : Host.Outcome State Fault Refusal :=
  s.command 0x04 [⟨0x008, 4, 10⟩, ⟨0x00C, 4, 10⟩] swapContexts

/-! ## Pages, device number, routes -/

/-- A tier by its code (R396). -/
def tierOf (n : Nat) : Option Tier :=
  match n with
  | 0 => some .hbm
  | 1 => some .peat
  | 2 => some .host
  | _ => none

/-- MIGRATE (R169, R396, R414): the answer comes with the move, at once where there is no frame for it, or where the device has
asked for the page first. -/
def migratePage (s : State) : State :=
  let c := s.mail 0x008 4
  let va : DWord := BitVec.ofNat 64 (s.mail 0x010 8)
  match tierOf (s.mail 0x018 4), s.walked c va with
  | some _, .waits _ => s
  | some tier, .leaf l =>
    if !(s.ctx c).live ∨ entryRem l.entry then s.mailboxDone 1
    else if s.moves.any fun m => m.mailbox then s
    else
      let r := s.addMove c va tier true true
      if r.moves.any fun m => m.mailbox then r else r.mailboxDone (Config.lostMigrate s.now)
  | _, _ => s.mailboxDone 1

def execMigrate (s : State) : Host.Outcome State Fault Refusal :=
  s.command 0x05 [⟨0x008, 4, 10⟩, ⟨0x010, 8, 64⟩, ⟨0x018, 4, 2⟩] migratePage

/-- DEVNUM (R395, R404): once per power-on. -/
def setDevnum (s : State) : State :=
  if s.hub.dnv then s.mailboxDone 1
  else { s with hub := { s.hub with dnv := true, devnum := BitVec.ofNat 20 (s.mail 0x008 4) } }.mailboxDone 0

def execDevnum (s : State) : Host.Outcome State Fault Refusal := s.command 0x06 [⟨0x008, 4, 20⟩] setDevnum

/-- One entry of the route tables written (R404): 0 to 1023 the group table, from 1024 the table of the own group. -/
def State.setRoute (s : State) (i mask : Nat) : State :=
  if i < 1024 then { s with routes := sput 0 s.routes i (BitVec.ofNat 24 mask) }
  else { s with ownRoutes := sput 0 s.ownRoutes (i - 1024) (BitVec.ofNat 24 mask) }

/-- ROUTE (R396, R404). -/
def setRoutes (s : State) : State :=
  let first := s.mail 0x008 4
  let n := s.mail 0x00C 4
  let mask (i : Nat) : Nat := s.mail (0x100 + 4 * i) 4
  if n = 0 ∨ 958 < n ∨ 2048 < first + n ∨ (List.range n).any fun i => decide (2 ^ 24 ≤ mask i) then s.mailboxDone 1
  else (((List.range n).foldl (fun s i => s.setRoute (first + i) (mask i)) s).mailboxDone 0).wakeAll

def execRoute (s : State) : Host.Outcome State Fault Refusal :=
  s.command 0x07 [⟨0x008, 4, 11⟩, ⟨0x00C, 4, 32⟩] setRoutes

/-! ## Attestation, debug, firmware -/

/-- NCORE, NHBM and NPEAT (R384). -/
def State.ncore (s : State) : Nat := (List.range 192).countP fun c => s.hub.coresvc.getLsbD c

def State.nhbm (s : State) : Nat := (List.range 8).countP fun n => s.hub.readyA.getLsbD (16 + n)

def State.npeat (s : State) : Nat := if s.hub.readyB.getLsbD 3 then 8 else 0

/-- DEVINFO (R384). -/
def State.devinfo (s : State) : Nat :=
  s.ncore * 2 ^ 56 + s.nhbm * 2 ^ 52 + s.npeat * 2 ^ 48 + s.hub.fwsvn.toNat * 2 ^ 40 + natOf s.hub.dnv * 2 ^ 20 +
    s.hub.devnum.toNat

/-- The first 128 bytes of an attestation report (R407). -/
def State.attestation (s : State) (nonce : List Byte) : List Byte :=
  nonce ++ (List.range 32).map Config.recordDigest ++ (List.range 32).map (Config.digest s.firmware) ++ leBytes 8 s.devinfo ++
    leBytes 4 s.dbgctl ++ leBytes 4 s.host.counter ++
    (List.range 16).map (Config.partitionMap ((List.range 16).map s.partitionMask))

/-- The signature of the device identity key over a message: 3309 bytes. -/
def identitySignature (message : List Byte) : List Byte := (List.range 3309).map (Config.signature message)

/-- ATTEST (R396, R407): the report, and zeros up to the doorbell. -/
def attestReport (s : State) : State :=
  let nonce := s.mailBytes 0x008 32
  let m := s.attestation nonce
  let r := m ++ identitySignature m
  ({ s with host := { s.host with nonce } }.putMail 0x100 (r ++ List.replicate (0xEF8 - r.length) 0)).mailboxDone 0

def execAttest (s : State) : Host.Outcome State Fault Refusal := s.command 0x08 [⟨0x008, 32, 256⟩] attestReport

/-- DEBUGEN (R396, R408). -/
def enableDebug (s : State) : State :=
  let token := s.mailBytes 0x100 3373
  let good := token.take 32 == (List.range 32).map Config.identity && (token.drop 32).take 32 == s.host.nonce &&
    Config.signatureValid token
  if s.mail 0x008 4 ≠ 3373 then s.mailboxDone 1
  else if good then { s with hub := { s.hub with dbgEn := true } }.mailboxDone 0
  else s.mailboxDone 3

def execDebugen (s : State) : Host.Outcome State Fault Refusal := s.command 0x09 [⟨0x008, 4, 32⟩] enableDebug

/-- The place of a host physical address (R383). -/
def hostPlace (hpa : Nat) : Nat := 0x8000000000000 + hpa % 0x8000000000000

/-- FWLOAD (R406): an image that verifies and is not older than the key store's counter is staged. The command waits for the
homes of the image; where one has failed, there is no image to verify (R37, log 40). -/
def loadFirmware (s : State) : State :=
  let place := hostPlace (s.mail 0x008 8)
  let image := s.bytes place (s.mail 0x010 4)
  match s.homesOf (spanPlaces place (s.mail 0x010 4)) with
  | .waiting => s
  | .failed => s.mailboxDone 2
  | .ready =>
    if !s.imageGood image then s.mailboxDone 3
    else { s with host := { s.host with staged := some image, counter := max s.host.counter (Config.imageVersion image) } }.mailboxDone 0

def execFwload (s : State) : Host.Outcome State Fault Refusal :=
  s.command 0x0A [⟨0x008, 8, 64⟩, ⟨0x010, 4, 32⟩] loadFirmware

/-- How the homes of the self-test report's destination stand, where a report is to be written (R37). -/
def State.reportHome (s : State) : Home :=
  if s.host.report.isEmpty ∨ s.host.reportTo = 0 then .ready
  else s.homesOf (spanPlaces (hostPlace s.host.reportTo) s.host.report.length)

/-- The self-test report, if there is one, at its destination in host memory (R360). -/
def State.writeReport (s : State) : State :=
  if s.host.report.isEmpty ∨ s.host.reportTo = 0 then s else s.writeBytes (placed (hostPlace s.host.reportTo) s.host.report)

/-- STREPORT (R360, R396). The command waits for the homes of the destination; where one has failed, nothing is written (R37,
log 40). -/
def nameReport (s : State) : State :=
  let a := s.mail 0x008 8
  let r := { s with host := { s.host with reportTo := a } }
  if a % 64 ≠ 0 then s.mailboxDone 1
  else
    match r.reportHome with
    | .waiting => s
    | .failed => r.mailboxDone 2
    | .ready => r.writeReport.mailboxDone 0

def execStreport (s : State) : Host.Outcome State Fault Refusal := s.command 0x0B [⟨0x008, 8, 64⟩] nameReport

/-- TRANSPORT (R361, R396). -/
def setTransport (s : State) : State :=
  let on := s.mail 0x008 4 == 1
  { s with plat := { s.plat with tflag := on, tset := if on then Config.oscillator s.now else s.plat.tset } }.mailboxDone 0

def execTransport (s : State) : Host.Outcome State Fault Refusal := s.command 0x0C [⟨0x008, 4, 1⟩] setTransport

/-! ## Registers -/

/-- A write to FRMQRY (R401): the answer holds for the moment it is given. -/
def State.frameQuery (s : State) (pa : DWord) : State :=
  { s with hub := { s.hub with frmPa := pa, frmDone := true, frmClean := !s.storesTo (pa.toNat / 4096 * 4096) 4096 } }

/-- FRMQRY (R401). -/
def execFrmqry (pa : DWord) (s : State) : Host.Outcome State Fault Refusal :=
  if !s.plat.power then .next s else .next (s.frameQuery pa)

/-- A value of n bytes written into a 64-bit register at a byte of it. -/
def mergeBytes (old : DWord) (at' n : Nat) (v : DWord) : DWord :=
  BitVec.ofNat 64 (leNat ((leBytes 8 old.toNat).mapIdx fun i b =>
    if at' ≤ i ∧ i < at' + n then BitVec.ofNat 8 (v.toNat / 2 ^ (8 * (i - at'))) else b))

/-- QERR as a register (R385). -/
def HostQueue.qerr (q : HostQueue) : DWord :=
  BitVec.ofNat 64 (natOf q.narrow + 2 * natOf q.overrun + 4 * natOf q.badcmd + q.badIndex.toNat * 2 ^ 32)

/-- QERR with the bits cleared that are written as 1 (R4, R385). -/
def HostQueue.clearErrors (q : HostQueue) (w : DWord) : HostQueue :=
  let v := q.qerr &&& ~~~w
  { q with narrow := v.getLsbD 0, overrun := v.getLsbD 1, badcmd := v.getLsbD 2, badIndex := v.extractLsb' 32 32 }

/-- A write into a host queue's entry (R385, R386): QBASE, ignored while EN = 1, QCTL, KICK and QERR. -/
def State.writeQueue (s : State) (q offset n : Nat) (v : DWord) : State :=
  if offset = 0x08 then s.writeControl q (v.extractLsb' 0 32)
  else if 0x10 ≤ offset ∧ offset < 0x18 then s.kick q (n == 8) v
  else s.mapQueue q fun x =>
    if offset < 8 then (if x.en then x else { x with qbase := mergeBytes x.qbase offset n v })
    else if 0x20 ≤ offset ∧ offset < 0x28 then x.clearErrors (mergeBytes 0 (offset - 0x20) n v)
    else x

/-- A write into a context's host page (R400): SVCDONE, EQNOTE and SVCNOTE. -/
def State.writePage (s : State) (c offset : Nat) (v : DWord) : State :=
  match offset with
  | 0x008 => if (s.ctx c).live then s.serviceDone c (bitsOf v.toNat 0 10) else s
  | 0x018 => s.mapCtx c fun x => { x with eqnote := v.extractLsb' 0 32 }
  | 0x020 => s.mapCtx c fun x => { x with svcnote := v.extractLsb' 0 32 &&& 1#32 }
  | _ => s

/-- A write into the mailbox page (R395, R396): an unknown command at the doorbell is answered with status 1. -/
def State.writeMail (s : State) (offset n : Nat) (v : DWord) : State :=
  let s := s.putMail offset (leBytes n v.toNat)
  let code := s.mail 0 4
  if s.mail 0xFF8 8 == 1 && !decide (1 ≤ code ∧ code ≤ 0x0C) then s.mailboxDone 1 else s

/-- How the last host access was answered (R37, R382). -/
def State.answer (s : State) (a : HostAnswer) : State := { s with host := { s.host with answer := a } }

/-- Whether an access to BAR0 is one of 4 or 8 bytes, naturally aligned (R382). -/
def accessGood (offset bytes : Nat) : Bool := (bytes == 4 || bytes == 8) && offset % bytes == 0

/-- The host programs an HDM decoder (R381, R383). The decoders lie outside BAR0, at places the spec does not give: the model has
them at 0x800000 and 0x800008 (DESIGN CHOICE, log 33). -/
def State.writeDecoder (s : State) (offset : Nat) (v : DWord) : State :=
  match offset with
  | 0x800000 => { s with host := { s.host with hdm0 := { base := v, on := true } } }
  | 0x800008 => { s with host := { s.host with hdm1 := { base := v, on := true } } }
  | _ => s

/-- A write to the register at an offset (R4, R6, R382): one to a read-only register or to an offset without one changes nothing. -/
def State.writeRegister (s : State) (offset bytes : Nat) (value : DWord) : State :=
  if offset = 0x20 then (if value.getLsbD 0 then s.mapTest fun t => { t.request with latch := true } else s)
  else if 0x68 ≤ offset ∧ offset < 0x70 then s.frameQuery (mergeBytes s.hub.frmPa (offset - 0x68) bytes value)
  else if offset = 0x60 then { s with hub := { s.hub with stctl := value.extractLsb' 0 32 &&& 0xFFFF#32 } }
  else if 0x1000 ≤ offset ∧ offset < 0x2000 then s.writeMail (offset - 0x1000) bytes value
  else if 0x100000 ≤ offset ∧ offset < 0x110000 then
    s.writeQueue ((offset - 0x100000) / 0x40) ((offset - 0x100000) % 0x40) bytes value
  else if 0x200000 ≤ offset ∧ offset < 0x600000 then
    s.writePage ((offset - 0x200000) / 0x1000) ((offset - 0x200000) % 0x1000) value
  else s.writeDecoder offset value

/-- REGISTER_WRITE (R4, R382): an access of another size or unaligned is answered as an unsupported request. -/
def execRegisterWrite (offset : Nat) (bytes : Nat) (value : DWord) (s : State) : Host.Outcome State Fault Refusal :=
  if !s.plat.power then .next s
  else if accessGood offset bytes then .next ((s.writeRegister offset bytes value).answer .success)
  else .next (s.answer .unsupported)

/-! ## Host accesses to device memory -/

/-- Whether n bytes from a PA are device memory that the host can reach (R179, R383) (log 33). -/
def deviceMemory (pa n : Nat) : Bool :=
  decide ((targetOf pa = .hbm ∨ targetOf pa = .peat) ∧ targetOf (pa + n - 1) = targetOf pa)

/-- The PA of a host address, and the decoder's range (R381, R383): decoder 0 covers HBM, decoder 1 the peat tier. -/
def HdmDecoder.map (d : HdmDecoder) (first size hpa : Nat) : Option Nat :=
  if d.on ∧ d.base.toNat ≤ hpa ∧ hpa < d.base.toNat + size then some (first + (hpa - d.base.toNat)) else none

def State.decoded (s : State) (hpa : Nat) : Option Nat :=
  (s.host.hdm0.map 0 0x8000000000 hpa).orElse fun _ => s.host.hdm1.map 0x10000000000 0xC000000000 hpa

/-- The host address and the number of bytes of an access. -/
def accessSpan (access : HostAccess) : Nat × Nat :=
  match access with
  | .read hpa n => (hpa, n)
  | .write hpa bs => (hpa, bs.length)

/-- HOST_MEMORY_ACCESS (R179, R37, R383): at the home, as a .live load or a plain write to M. A home that is not ready is waited
for; where one has failed the access completes with an error response. An address outside the decoders' ranges is not this
device's (log 33). -/
def execHostMemoryAccess (access : HostAccess) (s : State) : Host.Outcome State Fault Refusal :=
  let n := (accessSpan access).2
  match s.decoded (accessSpan access).1 with
  | none => .fault .noSuchAddress
  | some pa =>
    if n = 0 then .next s
    else if !deviceMemory pa n then .fault .noSuchAddress
    else
      match s.homesOf ((List.range n).map fun i => pa + i), access with
      | .failed, _ => .next (s.answer .error)
      | .waiting, _ => .next s
      | .ready, .read _ _ => .next ({ s with host := { s.host with reads := s.bytes pa n } }.answer .success)
      | .ready, .write _ bs => .next ((s.writeBytes (placed pa bs)).wakeAll.answer .success)

end Sys2Proof.Machine
end

