-- ==== Sys2Proof/Machine/Registers.lean ====
section
/-! DEFINITION. What the host reads in BAR0 (R4, R6, R382, R384, R385, R400, R401, R408, R409). -/

namespace Sys2Proof.Machine

/-- FRZCTL (R31): FREEZE is write-only and reads 0. -/
def State.frzctl (s : State) : Nat := 2 * natOf s.test.frozen

/-- PWRSTAT (R409). -/
def State.pwrstat (s : State) : Nat := natOf s.hub.stretch + 2 * natOf s.hub.quiesced

/-- FRMQRY as it reads (R401): DONE and CLEAN. -/
def State.frmqry (s : State) : Nat := natOf s.hub.frmDone + 2 * natOf s.hub.frmClean

/-- The doubleword at an offset of the hub status block (R384). -/
def State.hubWord (s : State) (offset : Nat) : Nat :=
  match offset with
  | 0x00 => s.hub.readyA.toNat
  | 0x08 => s.hub.readyB.toNat
  | 0x10 => s.hub.failA.toNat
  | 0x18 => s.hub.failB.toNat
  | 0x20 => s.frzctl
  | 0x28 => s.devinfo
  | 0x30 => bitsOf s.hub.coresvc.toNat 0 64
  | 0x38 => bitsOf s.hub.coresvc.toNat 64 64
  | 0x40 => bitsOf s.hub.coresvc.toNat 128 64
  | 0x48 => s.hub.pageret.toNat
  | 0x50 => s.dbgctl
  | 0x58 => s.pwrstat
  | 0x60 => s.hub.stctl.toNat
  | 0x68 => s.frmqry
  | _ => 0

/-- QCTL as it reads (R385). -/
def HostQueue.qctl (q : HostQueue) : Nat := natOf q.en + 2 * natOf q.swo + 4 * q.log2n.toNat + 256 * q.ctx.toNat

/-- The doubleword at an offset of a host queue's entry (R385). -/
def HostQueue.word (q : HostQueue) (offset : Nat) : Nat :=
  match offset with
  | 0x00 => q.qbase.toNat
  | 0x08 => q.qctl
  | 0x10 => q.kick.toNat
  | 0x18 => q.prog.toNat
  | 0x20 => q.qerr.toNat
  | _ => 0

/-- CTXSTAT (R400). -/
def Context.ctxstat (x : Context) : Nat := natOf x.live + 2 * natOf x.halted + 4 * natOf x.swapped + 8 * natOf x.debug

/-- The doubleword at an offset of a context's host page (R400): SVCDONE is write-only and reads 0. -/
def Context.pageWord (x : Context) (offset : Nat) : Nat :=
  match offset with
  | 0x000 => x.ctxstat
  | 0x010 => x.eqtail.toNat
  | 0x018 => x.eqnote.toNat
  | 0x020 => x.svcnote.toNat
  | _ => 0

/-- The doubleword at an aligned offset of BAR0 (R382): every offset without a register reads as zero. -/
def State.barWord (s : State) (offset : Nat) : Nat :=
  if offset < 0x1000 then s.hubWord offset
  else if offset < 0x2000 then s.mail (offset - 0x1000) 8
  else if 0x100000 ≤ offset ∧ offset < 0x110000 then (s.hostQueue ((offset - 0x100000) / 0x40)).word ((offset - 0x100000) % 0x40)
  else if 0x200000 ≤ offset ∧ offset < 0x600000 then (s.ctx ((offset - 0x200000) / 0x1000)).pageWord ((offset - 0x200000) % 0x1000)
  else 0

/-- What a read of n bytes of BAR0 by the host returns (R4, R6, R382); none is an unsupported-request status, for a read that is not
one of 4 or 8 bytes, naturally aligned. Reading changes nothing. -/
def State.readRegister (s : State) (offset bytes : Nat) : Option DWord :=
  if accessGood offset bytes then
    some (BitVec.ofNat 64 (bitsOf (s.barWord (offset / 8 * 8)) (8 * (offset % 8)) (8 * bytes)))
  else none

end Sys2Proof.Machine
end

