-- ==== Sys2Proof/Machine/TestPort.lean ====
section
/-! DEFINITION. The test access port and the debug freeze (R28 to R33). -/

namespace Sys2Proof.Machine

/-! ## Data registers -/

/-- The n low bits of a number, least significant first. -/
def lowBits (n w : Nat) : List Bool := (List.range n).map fun i => bitOf w i

/-- One step of the bitwise CRC-32C on a state. -/
def crcBit (c : Nat) (b : Bool) : Nat :=
  let x := c ^^^ natOf b
  if x % 2 = 1 then (x / 2) ^^^ 0x82F63B78 else x / 2

/-- CRC-32C of a string of bits (R33). -/
def crcBits (bs : List Bool) : Nat := bs.foldl crcBit 0xFFFFFFFF ^^^ 0xFFFFFFFF

/-- A bit of bytes. -/
def bitAt (bs : List Byte) (byte bit : Nat) : Bool := (bs.getD byte 0).getLsbD (bit % 8)

/-- The group in a slot of a core, and the team of a team slot. -/
def State.groupAt (s : State) (core slot : Nat) : Option Group :=
  s.groups.find? fun g => g.resident && !g.ended && g.core == core && g.slot == slot

def State.teamAt (s : State) (core teamSlot : Nat) : Option Team :=
  s.teams.find? fun t => !decide (t.exit = .gone) && t.core == core && t.teamSlot == teamSlot

/-- A line of a core's view cache as a chain shows it: its bytes, its number and its team. -/
def State.viewBytes (s : State) (e : Nat × Nat) : List Byte :=
  ((s.team? e.1).bind fun t => sget none t.view e.2).map (fun l => l.bytes) |>.getD [] |>.append (leBytes 8 e.2 ++ leBytes 8 e.1)

/-- An entry of a TLB as a chain shows it. -/
def PageEntry.scanBytes (p : PageEntry) : List Byte :=
  leBytes 8 p.entry.toNat ++ leBytes 8 p.page ++ leBytes 1 p.asid ++ leBytes 1 p.size

/-- The block of an entry of an engine queue, or of the matrix queue as 5. -/
def Team.queueBlock (t : Team) (q index : Nat) : Option (List Byte) :=
  if q = 5 then
    (t.matrix.queue[index]?).map fun m =>
      match m.work with
      | .multiply b => b
      | .drain _ b => b
      | .zero _ => []
      | .load _ a => leBytes 8 a.toNat
  else ((t.engine q).queue[index]?).map fun c => c.bytes

/-- A word of a queue: the number of the last command accepted, that of the last one ended, and the CRC register. -/
def Team.queueWord (t : Team) (q word : Nat) : Nat :=
  match word with
  | 0 => if q = 5 then t.matrix.seqa else (t.engine q).seqa
  | 1 => if q = 5 then t.matrix.seqc else (t.engine q).seqc
  | _ => if q = 5 then 0 else (t.engine q).crcr.toNat

/-- What a scan place holds (R33); none where nothing stands there. -/
def State.scanned (s : State) (p : Config.ScanPlace) : Option Bool :=
  match p with
  | .clk b => some (s.clk.getLsbD b)
  | .register c n j row b => (s.groupAt c n).map fun g => (sget 0 (g.lane j).ring row).getLsbD b
  | .thread c n j byte b => (s.groupAt c n).map fun g => bitAt (g.lane j).saveBytes byte b
  | .group c n byte b => (s.groupAt c n).bind fun g => (s.team? g.team).map fun t => bitAt (g.saveBytes t) byte b
  | .scalar c n i b => (s.groupAt c n).map fun g => (sget 0 g.scalars i).getLsbD b
  | .slice c n o b => (s.teamAt c n).map fun t => (sget 0 t.slice o).getLsbD b
  | .tile c n e b => (s.teamAt c n).map fun t => (sget 0 t.matrix.tiles e).getLsbD b
  | .hub o b => (s.readRegister o 4).map fun v => v.getLsbD b
  | .context c n b => if (s.ctx c).live then some (((s.ctx c).register n).getLsbD b) else none
  | .buffer c n i b => (s.teamAt c n).map fun t => (t.buffer i).getLsbD b
  | .view c i k b => ((s.coreLines c)[i]?).map fun e => bitAt (s.viewBytes e) k b
  | .tlb c i b => ((s.core c).tlb[i]?).map fun p => bitAt p.scanBytes (b / 8) b
  | .store c n i b => (s.teamAt c n).bind fun t => (t.store[i]?).map fun e => bitAt (leBytes 8 e.1 ++ [e.2]) (b / 8) b
  | .command c n q i k b => (s.teamAt c n).bind fun t => (t.queueBlock q i).map fun bs => bitAt bs k b
  | .queue c n q w b => (s.teamAt c n).map fun t => bitOf (t.queueWord q w) b
  | .icache c i k b => ((s.core c).icache[i]?).map fun e => bitAt (e.2.words.flatMap fun w => leBytes 4 w.toNat) k b
  | .ember n i k b => ((s.sectorEmbers n)[i]?).map fun e => bitAt (s.emberBytes e) k b
  | .other => none

/-- Bit i of a chain: of the chain map, or of what the map says stands there (log 11). -/
def State.chainBit (s : State) (chain i : Nat) : Bool :=
  if chain = 0 then bitOf Config.chainMap i
  else (s.scanned (Config.scanPlace chain i)).getD (Config.scanBit s.clk.toNat chain i)

/-- The read-out of SCANRD (R33): length, bits, CRC-32C; length 0 where the package is not frozen or debug access is not
enabled. -/
def State.scanOut (s : State) : List Bool :=
  let chain := s.test.chain.toNat
  let n := if s.test.frozen && s.hub.dbgEn then Config.scanLength chain % 2 ^ 32 else 0
  let bits := (List.range n).map (s.chainBit chain)
  lowBits 32 n ++ bits ++ lowBits 32 (crcBits bits)

/-- The STATUS byte (R32). -/
def State.tapStatus (s : State) : Nat :=
  natOf s.test.frozen + 2 * natOf s.test.latch + 4 * natOf s.test.freezeHigh + 8 * natOf s.hub.dbgEn

/-- The bits the selected data register captures (R32). What FREEZE, RELEASE and SCANSEL capture the spec leaves open (log 8);
BYPASS captures 0 (log 11). -/
def State.captured (s : State) : List Bool :=
  match s.test.instruction.toNat with
  | 0x01 => lowBits 32 Config.identification.toNat
  | 0x10 => lowBits 1 (Config.freeWord s.now 0).toNat
  | 0x11 => lowBits 1 (Config.freeWord s.now 0).toNat
  | 0x12 => lowBits 8 s.tapStatus
  | 0x20 => lowBits 16 (Config.freeWord s.now 0).toNat
  | 0x21 => s.scanOut
  | _ => [false]

/-- A code in the instruction register, and what its data register captures (R32). -/
def State.loadTap (s : State) (code : BitVec 8) : State :=
  let s := s.mapTest fun t => { t with instruction := code }
  s.mapTest fun t => { t with captured := s.captured }

/-! ## Instructions -/

/-- IDCODE (R32). -/
def execTapIdcode (s : State) : Host.Outcome State Fault Refusal := .next (s.loadTap 0x01#8)

/-- FREEZE (R29, R32): sets the latch and requests a freeze. -/
def execTapFreeze (s : State) : Host.Outcome State Fault Refusal :=
  .next ((s.mapTest fun t => { t.request with latch := true }).loadTap 0x10#8)

/-- RELEASE (R29): clears the latch, only while FREEZE_N is high. -/
def execTapRelease (s : State) : Host.Outcome State Fault Refusal :=
  .next ((s.mapTest fun t => if t.freezeHigh then { t with latch := false } else t).loadTap 0x11#8)

/-- STATUS (R32). -/
def execTapStatus (s : State) : Host.Outcome State Fault Refusal := .next (s.loadTap 0x12#8)

/-- SCANSEL (R32). -/
def execScansel (s : State) : Host.Outcome State Fault Refusal := .next (s.loadTap 0x20#8)

/-- SCANRD (R33). -/
def execScanrd (s : State) : Host.Outcome State Fault Refusal := .next (s.loadTap 0x21#8)

/-- BYPASS, and every code that is not listed (R32). -/
def execBypass (code : BitVec 8) (s : State) : Host.Outcome State Fault Refusal := .next (s.loadTap code)

/-- DATA_REGISTER_SHIFT (R32, R33): the register captures anew and is shifted out; SCANSEL takes the bits shifted in. -/
def execDataRegisterShift (bits : Nat) (s : State) : Host.Outcome State Fault Refusal :=
  let got := s.captured
  .next (s.mapTest fun t =>
    { t with captured := got, out := got,
             chain := if t.instruction.toNat = 0x20 then BitVec.ofNat 16 bits else t.chain })

/-! ## Freeze -/

/-- FREEZE_N falls (R29). -/
def execFreezeNLow (s : State) : Host.Outcome State Fault Refusal :=
  .next (s.mapTest fun t => { t.request with freezeHigh := false })

/-- FREEZE_N rises (R29). -/
def execFreezeNHigh (s : State) : Host.Outcome State Fault Refusal :=
  .next (s.mapTest fun t => { t with freezeHigh := true })

/-- A write of 1 to FRZCTL.FREEZE (R29, R31). -/
def execFrzctlFreeze (s : State) : Host.Outcome State Fault Refusal :=
  .next (s.mapTest fun t => { t.request with latch := true })

/-- FREEZE_EDGE (R28): every clock stops; the memories are in self-refresh and keep their contents. -/
def execFreezeEdge (s : State) : Host.Outcome State Fault Refusal :=
  if s.test.requested && !s.test.frozen then .next (s.mapTest fun t => { t with frozen := true, requested := false })
  else .next s

/-! ## Loss of supply -/

/-- BROWN_N is low (R410): the host queues stop accepting, and every partition is to be pre-empted and swapped out. -/
def State.quiesce (s : State) : State :=
  { s with plat := { s.plat with quiescing := true }, preempts := s.preempts ++ [{ purpose := Purpose.brown }] }

/-- BROWN_N is high again with power intact (R410): the contexts swap in and acceptance resumes. -/
def State.unquiesce (s : State) : State :=
  let s := s.host.brown.foldl (fun s c => s.mapCtx c fun x => { x with swapped := false }) s
  let s := { s with plat := { s.plat with quiescing := false }, hub := { s.hub with quiesced := false },
                    host := { s.host with brown := [] },
                    preempts := s.preempts.filter fun p => !decide (p.purpose = Purpose.brown) }
  ((s.releaseTeams fun _ => true).updateSwo).wakeAll

/-- The device follows the level of BROWN_N (R410), once its clocks run (R28). -/
def State.followBrown (s : State) : State :=
  if !s.plat.power || s.test.frozen then s
  else if s.plat.brownHigh then (if s.plat.quiescing then s.unquiesce else s)
  else if s.plat.quiescing then s
  else s.quiesce

/-- CLOCK_RESTART (R29, R30): the frozen state goes on unchanged; every trained Cordlink port and the CXL link retrain. -/
def execClockRestart (s : State) : Host.Outcome State Fault Refusal :=
  if s.test.frozen && !s.test.latch && s.test.freezeHigh then
    let retrained (e : Nat × Port) : Nat × Port := if e.2 = .trained then (e.1, .retraining s.real) else e
    .next { s with test := { s.test with frozen := false }, plat := { s.plat with cxlTraining := s.plat.power },
                   ports := s.ports.map retrained }.followBrown
  else .next s

end Sys2Proof.Machine
end

