-- ==== Sys2Proof/Machine/Power.lean ====
section
/-! DEFINITION. Cordlink ports (R405), power and the transport record (R360, R361, R409, R410). -/

namespace Sys2Proof.Machine

/-! ## Ports -/

/-- LINK_LOSS (R405): a trained port retrains. -/
def execLinkLoss (port : Nat) (s : State) : Host.Outcome State Fault Refusal :=
  if sget Port.untrained s.ports port = .trained then
    .next { s with ports := sput .untrained s.ports port (.retraining s.real) }
  else .next s

/-- LINK_TRAINED (R405). -/
def execLinkTrained (port : Nat) (s : State) : Host.Outcome State Fault Refusal := .next (s.trainPort port)

/-- PORT_FAIL_TIMEOUT (R405): a port that has retrained for 100 ms is failed, with device event vector 1024 + n. -/
def execPortFailTimeout (port : Nat) (s : State) : Host.Outcome State Fault Refusal :=
  match sget Port.untrained s.ports port with
  | .retraining t =>
    if s.real < t + 100000000 ∨ 24 ≤ port then .next s
    else .next ((s.failFunction (.clnk port)).raise (1024 + port))
  | _ => .next s

/-! ## Power-on and the full self-test -/

/-- POWER_ON (R360, R361, R406): retired functions read as failed; a firmware image that verifies and is not older than the
counter is to run, a staged one first; with the transport flag set the full self-test starts, counted and timed in the record. -/
def execPowerOn (s : State) : Host.Outcome State Fault Refusal :=
  if s.plat.power then .next s
  else
    let flag := s.plat.tflag
    let s := s.activate
    .next { s with
      hub := { s.hub with failA := s.hub.retA, failB := s.hub.retB, fwsvn := s.runningVersion },
      test := if s.test.freezeHigh then s.test else s.test.request,
      plat := { s.plat with power := true, fullTest := flag, tcount := s.plat.tcount + natOf flag,
                            tlast := if flag then Config.oscillator s.now else s.plat.tlast } }

/-- TRANSPORT_N_LOW (R361): FLAG and PIN are set (log 39). -/
def execTransportNLow (s : State) : Host.Outcome State Fault Refusal :=
  .next { s with plat := { s.plat with tflag := true, tpin := true, tset := Config.oscillator s.now } }

/-- The self-test report but its signature (R360): 64 results of 16 bytes, their last 8 bytes reserved (R7) (log 14). -/
def State.reportBody (s : State) : List Byte :=
  (List.range 32).map Config.identity ++
    (List.range 32).map (fun i => Config.reportHeader s.hub.fwsvn.toNat s.plat.tlast s.plat.tcount (32 + i)) ++
    leBytes 8 s.hub.readyA.toNat ++ leBytes 8 s.hub.readyB.toNat ++ leBytes 8 s.hub.failA.toNat ++ leBytes 8 s.hub.failB.toNat ++
    (List.range 64).flatMap fun i => leBytes 2 (Config.selfTestFunction i).toNat ++ leBytes 2 (Config.selfTestErrors s.now i).toNat ++
      leBytes 4 (Config.selfTestPages s.now i).toNat ++ List.replicate 8 0

/-- FULL_SELF_TEST_END (R360, R361): the failures are known, the signed report is written, and the flag is cleared. The report
waits for the homes of its destination; where one has failed, it stays for a later STREPORT (R37, log 40). -/
def execFullSelfTestEnd (failed : List Function) (s : State) : Host.Outcome State Fault Refusal :=
  if !s.plat.fullTest then .next s
  else
    let r := failed.foldl State.failFunction s
    let b := r.reportBody
    let r := { r with host := { r.host with report := b ++ identitySignature b },
                      plat := { r.plat with fullTest := false, tflag := false, tpin := false } }
    match r.reportHome with
    | .waiting => .next s
    | .failed => .next r
    | .ready => .next r.writeReport

/-! ## Supply -/

/-- SUPPLY_DROOP (R409). -/
def execSupplyDroop (s : State) : Host.Outcome State Fault Refusal :=
  if s.plat.power then .next { s with hub := { s.hub with stretch := true } } else .next s

/-- DROOP_END (R409). -/
def execDroopEnd (s : State) : Host.Outcome State Fault Refusal := .next { s with hub := { s.hub with stretch := false } }

/-- BROWN_N falls (R410): the host queues stop accepting, and every partition is to be pre-empted and swapped out. -/
def execBrownNFall (s : State) : Host.Outcome State Fault Refusal :=
  .next { s with plat := { s.plat with brownHigh := false } }.followBrown

/-- Whether the steps of R410 are done: every context out, the publish queue empty. -/
def State.quiesceReady (s : State) : Bool :=
  s.plat.quiescing && !s.hub.quiesced && s.queue.isEmpty && !s.preempts.any fun p => decide (p.purpose = Purpose.brown)

/-- QUIESCE_COMPLETE (R409, R410). -/
def execQuiesceComplete (s : State) : Host.Outcome State Fault Refusal :=
  if s.quiesceReady then .next { s with hub := { s.hub with quiesced := true } } else .next s

/-- BROWN_N rises (R410): with power intact the contexts swap in and acceptance resumes. -/
def execBrownNRise (s : State) : Host.Outcome State Fault Refusal :=
  .next { s with plat := { s.plat with brownHigh := true } }.followBrown

/-- What power failure leaves of a core: whether it is retired. -/
def keptCores (cs : Sparse Core) : Sparse Core :=
  cs.filterMap fun e => if e.2.retired then some (e.1, { retired := true }) else none

/-- POWER_LOSS (R410, R361): what has been applied stays in memory, and the flash records, the retirements and the key store's
counter stay; all else is as after reset. The agenda and the numbering of steps are the model's own (log 39). -/
def execPowerLoss (s : State) : Host.Outcome State Fault Refusal :=
  let r := State.reset
  .next { r with
    agenda := s.agenda, turn := s.turn, tapIn := s.tapIn, now := s.now, real := s.real, ids := s.ids, mem := s.mem,
    cores := keptCores s.cores,
    hub := { r.hub with retA := s.hub.retA, retB := s.hub.retB, pageret := s.hub.pageret, retired := s.hub.retired },
    test := { r.test with freezeHigh := s.test.freezeHigh },
    host := { r.host with counter := s.host.counter, staged := s.host.staged, image := s.host.image },
    plat := { r.plat with brownHigh := s.plat.brownHigh, tflag := s.plat.tflag, tpin := s.plat.tpin, tcount := s.plat.tcount,
                          tset := s.plat.tset, tlast := s.plat.tlast } }

end Sys2Proof.Machine
end

