-- ==== Sys2Proof/Machine/Dispatch.lean ====
section
/-! DEFINITION. exec: one arm per constructor of Instr, each a direct call of its meaning. -/

namespace Sys2Proof.Machine

def exec (i : Instr) (s : State) : Host.Outcome State Fault Refusal :=
  match i with
  | .iadd f => Sys2Proof.Machine.execIadd f s
  | .iaddLong f => Sys2Proof.Machine.execIaddLong f s
  | .isub f => Sys2Proof.Machine.execIsub f s
  | .isubLong f => Sys2Proof.Machine.execIsubLong f s
  | .imul f => Sys2Proof.Machine.execImul f s
  | .imulLong f => Sys2Proof.Machine.execImulLong f s
  | .imulh f => Sys2Proof.Machine.execImulh f s
  | .imulhLong f => Sys2Proof.Machine.execImulhLong f s
  | .and f => Sys2Proof.Machine.execAnd f s
  | .andLong f => Sys2Proof.Machine.execAndLong f s
  | .or f => Sys2Proof.Machine.execOr f s
  | .orLong f => Sys2Proof.Machine.execOrLong f s
  | .xor f => Sys2Proof.Machine.execXor f s
  | .xorLong f => Sys2Proof.Machine.execXorLong f s
  | .andn f => Sys2Proof.Machine.execAndn f s
  | .andnLong f => Sys2Proof.Machine.execAndnLong f s
  | .shl f => Sys2Proof.Machine.execShl f s
  | .shlLong f => Sys2Proof.Machine.execShlLong f s
  | .shr f => Sys2Proof.Machine.execShr f s
  | .shrLong f => Sys2Proof.Machine.execShrLong f s
  | .shra f => Sys2Proof.Machine.execShra f s
  | .shraLong f => Sys2Proof.Machine.execShraLong f s
  | .imin f => Sys2Proof.Machine.execImin f s
  | .iminLong f => Sys2Proof.Machine.execIminLong f s
  | .imax f => Sys2Proof.Machine.execImax f s
  | .imaxLong f => Sys2Proof.Machine.execImaxLong f s
  | .mov f => Sys2Proof.Machine.execMov f s
  | .movLong f => Sys2Proof.Machine.execMovLong f s
  | .sel f => Sys2Proof.Machine.execSel f s
  | .selLong f => Sys2Proof.Machine.execSelLong f s
  | .popc f => Sys2Proof.Machine.execPopc f s
  | .popcLong f => Sys2Proof.Machine.execPopcLong f s
  | .fadd f => Sys2Proof.Machine.execFadd f s
  | .faddLong f => Sys2Proof.Machine.execFaddLong f s
  | .fsub f => Sys2Proof.Machine.execFsub f s
  | .fsubLong f => Sys2Proof.Machine.execFsubLong f s
  | .fmul f => Sys2Proof.Machine.execFmul f s
  | .fmulLong f => Sys2Proof.Machine.execFmulLong f s
  | .fmin f => Sys2Proof.Machine.execFmin f s
  | .fminLong f => Sys2Proof.Machine.execFminLong f s
  | .fmax f => Sys2Proof.Machine.execFmax f s
  | .fmaxLong f => Sys2Proof.Machine.execFmaxLong f s
  | .hadd2 f => Sys2Proof.Machine.execHadd2 f s
  | .hadd2Long f => Sys2Proof.Machine.execHadd2Long f s
  | .hmul2 f => Sys2Proof.Machine.execHmul2 f s
  | .hmul2Long f => Sys2Proof.Machine.execHmul2Long f s
  | .nop => Sys2Proof.Machine.execNop s
  | .nopLong f => Sys2Proof.Machine.execNopLong f s
  | .iaddi f => Sys2Proof.Machine.execIaddi f s
  | .movi f => Sys2Proof.Machine.execMovi f s
  | .imad f => Sys2Proof.Machine.execImad f s
  | .imadw f => Sys2Proof.Machine.execImadw f s
  | .iaddc f => Sys2Proof.Machine.execIaddc f s
  | .isubb f => Sys2Proof.Machine.execIsubb f s
  | .ineg f => Sys2Proof.Machine.execIneg f s
  | .iabs f => Sys2Proof.Machine.execIabs f s
  | .rot f => Sys2Proof.Machine.execRot f s
  | .clz f => Sys2Proof.Machine.execClz f s
  | .brev f => Sys2Proof.Machine.execBrev f s
  | .bfe f => Sys2Proof.Machine.execBfe f s
  | .bfi f => Sys2Proof.Machine.execBfi f s
  | .lea f => Sys2Proof.Machine.execLea f s
  | .icmp f => Sys2Proof.Machine.execIcmp f s
  | .icmpi f => Sys2Proof.Machine.execIcmpi f s
  | .pfun f => Sys2Proof.Machine.execPfun f s
  | .pmov f => Sys2Proof.Machine.execPmov f s
  | .vote f => Sys2Proof.Machine.execVote f s
  | .lxch f => Sys2Proof.Machine.execLxch f s
  | .bcast f => Sys2Proof.Machine.execBcast f s
  | .redg f => Sys2Proof.Machine.execRedg f s
  | .ffma f => Sys2Proof.Machine.execFfma f s
  | .fcmp f => Sys2Proof.Machine.execFcmp f s
  | .frcp f => Sys2Proof.Machine.execFrcp f s
  | .fsqrt f => Sys2Proof.Machine.execFsqrt f s
  | .frsq f => Sys2Proof.Machine.execFrsq f s
  | .fex2 f => Sys2Proof.Machine.execFex2 f s
  | .flg2 f => Sys2Proof.Machine.execFlg2 f s
  | .fsinp f => Sys2Proof.Machine.execFsinp f s
  | .fcosp f => Sys2Proof.Machine.execFcosp f s
  | .hfma2 f => Sys2Proof.Machine.execHfma2 f s
  | .bfma2 f => Sys2Proof.Machine.execBfma2 f s
  | .dadd f => Sys2Proof.Machine.execDadd f s
  | .dmul f => Sys2Proof.Machine.execDmul f s
  | .dfma f => Sys2Proof.Machine.execDfma f s
  | .dcmp f => Sys2Proof.Machine.execDcmp f s
  | .cvti f => Sys2Proof.Machine.execCvti f s
  | .cvtf f => Sys2Proof.Machine.execCvtf f s
  | .cvtw f => Sys2Proof.Machine.execCvtw f s
  | .qcvt f => Sys2Proof.Machine.execQcvt f s
  | .dqcvt f => Sys2Proof.Machine.execDqcvt f s
  | .fredg f => Sys2Proof.Machine.execFredg f s
  | .fmode f => Sys2Proof.Machine.execFmode f s
  | .fclass f => Sys2Proof.Machine.execFclass f s
  | .ld f => Sys2Proof.Machine.execLd f s
  | .st f => Sys2Proof.Machine.execSt f s
  | .phase f => Sys2Proof.Machine.execPhase f s
  | .fence f => Sys2Proof.Machine.execFence f s
  | .invv f => Sys2Proof.Machine.execInvv f s
  | .pref f => Sys2Proof.Machine.execPref f s
  | .cvta f => Sys2Proof.Machine.execCvta f s
  | .lds f => Sys2Proof.Machine.execLds f s
  | .sts f => Sys2Proof.Machine.execSts f s
  | .ldsr f => Sys2Proof.Machine.execLdsr f s
  | .stsr f => Sys2Proof.Machine.execStsr f s
  | .bdecl f => Sys2Proof.Machine.execBdecl f s
  | .bset f => Sys2Proof.Machine.execBset f s
  | .bqry f => Sys2Proof.Machine.execBqry f s
  | .tlook f => Sys2Proof.Machine.execTlook f s
  | .tinst f => Sys2Proof.Machine.execTinst f s
  | .tdrop f => Sys2Proof.Machine.execTdrop f s
  | .atom f => Sys2Proof.Machine.execAtom f s
  | .atcas f => Sys2Proof.Machine.execAtcas f s
  | .red f => Sys2Proof.Machine.execRed f s
  | .bra f => Sys2Proof.Machine.execBra f s
  | .brx f => Sys2Proof.Machine.execBrx f s
  | .call f => Sys2Proof.Machine.execCall f s
  | .callx f => Sys2Proof.Machine.execCallx f s
  | .ret f => Sys2Proof.Machine.execRet f s
  | .enter f => Sys2Proof.Machine.execEnter f s
  | .win f => Sys2Proof.Machine.execWin f s
  | .exit f => Sys2Proof.Machine.execExit f s
  | .join f => Sys2Proof.Machine.execJoin f s
  | .leave f => Sys2Proof.Machine.execLeave f s
  | .wait f => Sys2Proof.Machine.execWait f s
  | .fdepth f => Sys2Proof.Machine.execFdepth f s
  | .fspill f => Sys2Proof.Machine.execFspill f s
  | .ffill f => Sys2Proof.Machine.execFfill f s
  | .binit f => Sys2Proof.Machine.execBinit f s
  | .barv f => Sys2Proof.Machine.execBarv f s
  | .bwait f => Sys2Proof.Machine.execBwait f s
  | .btest f => Sys2Proof.Machine.execBtest f s
  | .cbarv f => Sys2Proof.Machine.execCbarv f s
  | .cbwait f => Sys2Proof.Machine.execCbwait f s
  | .enq f => Sys2Proof.Machine.execEnq f s
  | .putq f => Sys2Proof.Machine.execPutq f s
  | .signal f => Sys2Proof.Machine.execSignal f s
  | .role f => Sys2Proof.Machine.execRole f s
  | .yield f => Sys2Proof.Machine.execYield f s
  | .claim f => Sys2Proof.Machine.execClaim f s
  | .jdec f => Sys2Proof.Machine.execJdec f s
  | .xcopy f => Sys2Proof.Machine.execXcopy f s
  | .xgath f => Sys2Proof.Machine.execXgath f s
  | .xchain f => Sys2Proof.Machine.execXchain f s
  | .xseq f => Sys2Proof.Machine.execXseq f s
  | .xwait f => Sys2Proof.Machine.execXwait f s
  | .xpub f => Sys2Proof.Machine.execXpub f s
  | .xcoll f => Sys2Proof.Machine.execXcoll f s
  | .xstop f => Sys2Proof.Machine.execXstop f s
  | .xcrc f => Sys2Proof.Machine.execXcrc f s
  | .mma f => Sys2Proof.Machine.execMma f s
  | .mzero f => Sys2Proof.Machine.execMzero f s
  | .mloada f => Sys2Proof.Machine.execMloada f s
  | .mdrain f => Sys2Proof.Machine.execMdrain f s
  | .mwait f => Sys2Proof.Machine.execMwait f s
  | .mseq f => Sys2Proof.Machine.execMseq f s
  | .apref f => Sys2Proof.Machine.execApref f s
  | .ainv f => Sys2Proof.Machine.execAinv f s
  | .aqry f => Sys2Proof.Machine.execAqry f s
  | .trap f => Sys2Proof.Machine.execTrap f s
  | .brk f => Sys2Proof.Machine.execBrk f s
  | .svc f => Sys2Proof.Machine.execSvc f s
  | .rett f => Sys2Proof.Machine.execRett f s
  | .mfc f => Sys2Proof.Machine.execMfc f s
  | .mtc f => Sys2Proof.Machine.execMtc f s
  | .eraise f => Sys2Proof.Machine.execEraise f s
  | .audit f => Sys2Proof.Machine.execAudit f s
  | .stest f => Sys2Proof.Machine.execStest f s
  | .tlbgen f => Sys2Proof.Machine.execTlbgen f s
  | .lsweep f => Sys2Proof.Machine.execLsweep f s
  | .waitsig f => Sys2Proof.Machine.execWaitsig f s
  | .tapIdcode => Sys2Proof.Machine.execTapIdcode s
  | .tapFreeze => Sys2Proof.Machine.execTapFreeze s
  | .tapRelease => Sys2Proof.Machine.execTapRelease s
  | .tapStatus => Sys2Proof.Machine.execTapStatus s
  | .scansel => Sys2Proof.Machine.execScansel s
  | .scanrd => Sys2Proof.Machine.execScanrd s
  | .bypass code => Sys2Proof.Machine.execBypass code s
  | .freezeNLow => Sys2Proof.Machine.execFreezeNLow s
  | .freezeNHigh => Sys2Proof.Machine.execFreezeNHigh s
  | .frzctlFreeze => Sys2Proof.Machine.execFrzctlFreeze s
  | .freezeEdge => Sys2Proof.Machine.execFreezeEdge s
  | .clockRestart => Sys2Proof.Machine.execClockRestart s
  | .arbitrationPromotion resource request => Sys2Proof.Machine.execArbitrationPromotion resource request s
  | .resourceGrant resource => Sys2Proof.Machine.execResourceGrant resource s
  | .issueRunCap core quarter => Sys2Proof.Machine.execIssueRunCap core quarter s
  | .functionReady fn => Sys2Proof.Machine.execFunctionReady fn s
  | .functionFail fn => Sys2Proof.Machine.execFunctionFail fn s
  | .functionRetired unit => Sys2Proof.Machine.execFunctionRetired unit s
  | .frameSpill gid lane => Sys2Proof.Machine.execFrameSpill gid lane s
  | .frameRefill gid lane => Sys2Proof.Machine.execFrameRefill gid lane s
  | .spillTranslationReply gid lane bad => Sys2Proof.Machine.execSpillTranslationReply gid lane bad s
  | .groupSave gid => Sys2Proof.Machine.execGroupSave gid s
  | .groupResume gid core => Sys2Proof.Machine.execGroupResume gid core s
  | .fill team line => Sys2Proof.Machine.execFill team line s
  | .drop team line => Sys2Proof.Machine.execDrop team line s
  | .storeEnter op => Sys2Proof.Machine.execStoreEnter op s
  | .commit team => Sys2Proof.Machine.execCommit team s
  | .partArrive source => Sys2Proof.Machine.execPartArrive source s
  | .apply device => Sys2Proof.Machine.execApply device s
  | .perform op => Sys2Proof.Machine.execPerform op s
  | .publish team queue => Sys2Proof.Machine.execPublish team queue s
  | .keyRelease ctx key => Sys2Proof.Machine.execKeyRelease ctx key s
  | .shadowLineGrant op => Sys2Proof.Machine.execShadowLineGrant op s
  | .scratchpadRequestPerform op => Sys2Proof.Machine.execScratchpadRequestPerform op s
  | .barrierArrival op => Sys2Proof.Machine.execBarrierArrival op s
  | .timedWaitExpiry gid lane => Sys2Proof.Machine.execTimedWaitExpiry gid lane s
  | .rankedContribution op => Sys2Proof.Machine.execRankedContribution op s
  | .rankStallTimeout tile => Sys2Proof.Machine.execRankStallTimeout tile s
  | .teamExit team => Sys2Proof.Machine.execTeamExit team s
  | .joinDecrement team => Sys2Proof.Machine.execJoinDecrement team s
  | .emberDispatch ember core inherited => Sys2Proof.Machine.execEmberDispatch ember core inherited s
  | .emberRingMove ember => Sys2Proof.Machine.execEmberRingMove ember s
  | .localSlotTimeout core => Sys2Proof.Machine.execLocalSlotTimeout core s
  | .emberAged ember => Sys2Proof.Machine.execEmberAged ember s
  | .gridClaim grid core inherited => Sys2Proof.Machine.execGridClaim grid core inherited s
  | .clusterMemberStart cluster member => Sys2Proof.Machine.execClusterMemberStart cluster member s
  | .engineCommandStart team queue => Sys2Proof.Machine.execEngineCommandStart team queue s
  | .engineChunk team queue => Sys2Proof.Machine.execEngineChunk team queue s
  | .chainCommandRead team queue => Sys2Proof.Machine.execChainCommandRead team queue s
  | .engineCommandEnd team queue => Sys2Proof.Machine.execEngineCommandEnd team queue s
  | .collectiveStep team => Sys2Proof.Machine.execCollectiveStep team s
  | .collStallTimeout team => Sys2Proof.Machine.execCollStallTimeout team s
  | .matrixOpStart team => Sys2Proof.Machine.execMatrixOpStart team s
  | .matrixOpEnd team => Sys2Proof.Machine.execMatrixOpEnd team s
  | .accordSliceArrive team => Sys2Proof.Machine.execAccordSliceArrive team s
  | .matrixDrainEnd team => Sys2Proof.Machine.execMatrixDrainEnd team s
  | .auditReplay sample core => Sys2Proof.Machine.execAuditReplay sample core s
  | .uncorrectableConsumed gid lane place skid => Sys2Proof.Machine.execUncorrectableConsumed gid lane place skid s
  | .errorRecordLand ctx index => Sys2Proof.Machine.execErrorRecordLand ctx index s
  | .serviceCompletion ctx slot => Sys2Proof.Machine.execServiceCompletion ctx slot s
  | .selfTestInterval sector => Sys2Proof.Machine.execSelfTestInterval sector s
  | .selfTestEnd sector pass => Sys2Proof.Machine.execSelfTestEnd sector pass s
  | .powerOn => Sys2Proof.Machine.execPowerOn s
  | .transportNLow => Sys2Proof.Machine.execTransportNLow s
  | .fullSelfTestEnd failed => Sys2Proof.Machine.execFullSelfTestEnd failed s
  | .preemption => Sys2Proof.Machine.execPreemption s
  | .preemptionComplete => Sys2Proof.Machine.execPreemptionComplete s
  | .contextSwapDone => Sys2Proof.Machine.execContextSwapDone s
  | .debugHalt target => Sys2Proof.Machine.execDebugHalt target s
  | .singleStep gid focus => Sys2Proof.Machine.execSingleStep gid focus s
  | .migrationRequest ctx va tier byHost => Sys2Proof.Machine.execMigrationRequest ctx va tier byHost s
  | .migrationStart => Sys2Proof.Machine.execMigrationStart s
  | .migrationComplete => Sys2Proof.Machine.execMigrationComplete s
  | .holddownExpiry => Sys2Proof.Machine.execHolddownExpiry s
  | .hostMemoryAccess access => Sys2Proof.Machine.execHostMemoryAccess access s
  | .kick queue wide value => Sys2Proof.Machine.execKick queue wide value s
  | .qctlWrite queue value => Sys2Proof.Machine.execQctlWrite queue value s
  | .hostCommandAccept queue => Sys2Proof.Machine.execHostCommandAccept queue s
  | .hqNop => Sys2Proof.Machine.execHqNop s
  | .hqLaunch => Sys2Proof.Machine.execHqLaunch s
  | .hqEmber => Sys2Proof.Machine.execHqEmber s
  | .hqSignal => Sys2Proof.Machine.execHqSignal s
  | .hqWait => Sys2Proof.Machine.execHqWait s
  | .hostCommandComplete entry => Sys2Proof.Machine.execHostCommandComplete entry s
  | .hearthRestart => Sys2Proof.Machine.execHearthRestart s
  | .hearthRestartEnd => Sys2Proof.Machine.execHearthRestartEnd s
  | .commandLinkMessage sector toHearth number => Sys2Proof.Machine.execCommandLinkMessage sector toHearth number s
  | .partset => Sys2Proof.Machine.execPartset s
  | .ctxnew => Sys2Proof.Machine.execCtxnew s
  | .ctxfree => Sys2Proof.Machine.execCtxfree s
  | .ctxswap => Sys2Proof.Machine.execCtxswap s
  | .migrate => Sys2Proof.Machine.execMigrate s
  | .devnum => Sys2Proof.Machine.execDevnum s
  | .route => Sys2Proof.Machine.execRoute s
  | .attest => Sys2Proof.Machine.execAttest s
  | .debugen => Sys2Proof.Machine.execDebugen s
  | .fwload => Sys2Proof.Machine.execFwload s
  | .streport => Sys2Proof.Machine.execStreport s
  | .transport => Sys2Proof.Machine.execTransport s
  | .frmqry pa => Sys2Proof.Machine.execFrmqry pa s
  | .registerWrite offset bytes value => Sys2Proof.Machine.execRegisterWrite offset bytes value s
  | .linkLoss port => Sys2Proof.Machine.execLinkLoss port s
  | .linkTrained port => Sys2Proof.Machine.execLinkTrained port s
  | .portFailTimeout port => Sys2Proof.Machine.execPortFailTimeout port s
  | .unreachableTimeout op => Sys2Proof.Machine.execUnreachableTimeout op s
  | .supplyDroop => Sys2Proof.Machine.execSupplyDroop s
  | .droopEnd => Sys2Proof.Machine.execDroopEnd s
  | .brownNFall => Sys2Proof.Machine.execBrownNFall s
  | .quiesceComplete => Sys2Proof.Machine.execQuiesceComplete s
  | .brownNRise => Sys2Proof.Machine.execBrownNRise s
  | .resultArrival gid lane => Sys2Proof.Machine.execResultArrival gid lane s
  | .unassignedCode f major minor => Sys2Proof.Machine.execUnassignedCode f major minor s
  | .dataRegisterShift bits => Sys2Proof.Machine.execDataRegisterShift bits s
  | .powerLoss => Sys2Proof.Machine.execPowerLoss s
  | .debugResume target => Sys2Proof.Machine.execDebugResume target s
  | .debuggerAttach ctx attached => Sys2Proof.Machine.execDebuggerAttach ctx attached s
  | .debuggerRegisterWrite gid lane name value => Sys2Proof.Machine.execDebuggerRegisterWrite gid lane name value s

end Sys2Proof.Machine
end

