-- ==== Sys2Proof/Machine/Auto.lean ====
section
/-! DEFINITION. The internal event that comes next when the agenda does not say (log 3): the first of the candidates below, in their
order, that changes the state. -/

namespace Sys2Proof.Machine

/-! ## Candidates -/

/-- Every lane of every group that has not ended. -/
def State.allLanes (s : State) : List (Nat × Nat) :=
  (s.groups.filter fun g => !g.ended).flatMap fun g => (List.range 32).map fun j => (g.id, j)

/-- The reply to a spill that waits for its translation, once the page table answers (R101). -/
def State.spillReply (s : State) (gid j : Nat) : List Instr :=
  match s.group? gid with
  | none => []
  | some g =>
    if !(g.lane j).spillBlocked then []
    else
      match s.team? g.team, (g.lane j).lowestFrame with
      | some t, some (a, d, b) =>
        match s.reach t.ctx g.core (g.spillAddrs t.rst j a b d) 1 with
        | .ok => [.spillTranslationReply gid j false]
        | .absent _ => []
        | .waits => []
        | .denied _ => [.spillTranslationReply gid j true]
      | _, _ => []

/-- Results, waits, spills and saves of threads and groups. -/
def State.threadEvents (s : State) : List Instr :=
  (s.allLanes.flatMap fun e =>
    [.resultArrival e.1 e.2, .timedWaitExpiry e.1 e.2, .frameSpill e.1 e.2, .frameRefill e.1 e.2] ++ s.spillReply e.1 e.2) ++
    (s.groups.filter fun g => !g.ended).map fun g => .groupSave g.id

/-- Pending accesses performed, stores entered, arrivals, contributions and late errors. -/
def State.accessEvents (s : State) : List Instr :=
  s.ops.flatMap fun o => [.storeEnter o.id, .shadowLineGrant o.id, .scratchpadRequestPerform o.id, .barrierArrival o.id,
    .perform o.id, .rankedContribution o.id, .unreachableTimeout o.id]

/-- Units on their way and applied. -/
def State.unitEvents (s : State) : List Instr :=
  ((List.range s.sent.length).map fun i => .partArrive (.sent i)) ++ [.apply 0] ++ s.remoteQueues.map fun e => .apply e.1

/-- Commits, exits, engines and matrix operations of teams. -/
def State.teamEvents (s : State) : List Instr :=
  (s.teams.filter fun t => !decide (t.exit = .gone)).flatMap fun t =>
    [.commit t.id, .teamExit t.id, .joinDecrement t.id] ++
      ((List.range 5).flatMap fun q =>
        [.engineCommandStart t.id q, .chainCommandRead t.id q, .engineChunk t.id q, .publish t.id q,
         .engineCommandEnd t.id q]) ++
      [.collectiveStep t.id, .collStallTimeout t.id, .matrixOpStart t.id, .accordSliceArrive t.id, .matrixOpEnd t.id,
       .publish t.id 5, .matrixDrainEnd t.id]

/-- Keys released, embers moved, aged and dispatched, members and grids started. -/
def State.dispatchEvents (s : State) : List Instr :=
  ((s.keys.filter fun k => k.holder.isSome).map fun k => .keyRelease k.ctx k.key) ++
    (s.embers.flatMap fun e =>
      let fit := if s.keysFree e || s.hasMarks e then e.cores.filter fun c => s.emberFits e c else []
      [.emberRingMove e.id, .emberAged e.id] ++ fit.map fun c => match e.kind with
        | .resume gid => .groupResume gid c
        | _ => .emberDispatch e.id c []) ++
    ((List.range 192).map fun c => .localSlotTimeout c) ++
    (s.clusters.flatMap fun k => (List.range (k.cx * k.cy)).map fun r => .clusterMemberStart k.id { rank := r }) ++
    s.instances.flatMap fun i => ((List.range 192).filter fun c => s.pulls i c).map fun c => .gridClaim i.id c []

/-- The hub, the Hearth, the migration arbiter, records, audits and tests. -/
def State.hubEvents (s : State) : List Instr :=
  (s.records.mapIdx fun i r => .errorRecordLand r.ctx i) ++
    [.preemption, .preemptionComplete, .contextSwapDone, .quiesceComplete, .migrationStart, .migrationComplete,
     .holddownExpiry, .hqNop, .hqLaunch, .hqEmber, .hqSignal, .hqWait] ++
    (s.host.journal.map fun e => .hostCommandComplete e.id) ++ (s.host.queues.map fun e => .hostCommandAccept e.1) ++
    (s.contexts.flatMap fun e => e.2.svcDone.map fun n => .serviceCompletion e.1 n) ++
    (s.samples.flatMap fun x => (List.range 192).map fun c => .auditReplay x.id c) ++
    ((List.range s.ranks.length).map fun i => .rankStallTimeout i) ++ ((List.range 16).map fun n => .selfTestInterval n) ++
    s.ops.filterMap fun o => (s.resourceOf o).map fun r => .arbitrationPromotion r o.id

/-- Grants at the resources that have a request (R21). -/
def State.grantEvents (s : State) : List Instr := ((s.requests.map fun r => r.resource).eraseDups).map .resourceGrant

/-- The candidates, in order: what shared resources grant comes before what is not ordered by them. -/
def State.candidates (s : State) : List Instr :=
  .freezeEdge :: (s.grantEvents ++ s.threadEvents ++ s.accessEvents ++ s.unitEvents ++ s.teamEvents ++ s.dispatchEvents ++ s.hubEvents)

/-- Whether an event happens and changes the state. -/
def State.moves' (s : State) (i : Instr) : Bool :=
  match exec i s with
  | .next t => decide (t ≠ s)
  | _ => false

/-- The internal event that comes next. -/
def State.autoEvent (s : State) : Option Instr := s.candidates.find? s.moves'

/-! ## Standing clocks -/

/-- Whether an event may happen while the clocks stand (R28, R29, R410). -/
def eventWhileStopped (i : Instr) : Bool :=
  match i with
  | .tapIdcode => true
  | .tapFreeze => true
  | .tapRelease => true
  | .tapStatus => true
  | .scansel => true
  | .scanrd => true
  | .bypass _ => true
  | .dataRegisterShift _ => true
  | .freezeNLow => true
  | .freezeNHigh => true
  | .clockRestart => true
  | .powerOn => true
  | .powerLoss => true
  | .transportNLow => true
  | .brownNFall => true
  | .brownNRise => true
  | _ => false

/-- Whether an event may happen while the device is quiesced (R386, R409, R410): the hub's registers answer. -/
def eventWhileQuiesced (i : Instr) : Bool :=
  match i with
  | .kick _ _ _ => true
  | .qctlWrite _ _ => true
  | .registerWrite _ _ _ => true
  | .frzctlFreeze => true
  | .freezeEdge => true
  | _ => false

/-- Whether an event is an access by the host, over the CXL link (R381, R382). -/
def hostEvent (i : Instr) : Bool :=
  match i with
  | .kick _ _ _ => true
  | .qctlWrite _ _ => true
  | .registerWrite _ _ _ => true
  | .frzctlFreeze => true
  | .frmqry _ => true
  | .hostMemoryAccess _ => true
  | _ => false

/-- Whether an event may happen now; the host sees a device that does not respond while the CXL link retrains (R30). -/
def State.eventOpen (s : State) (i : Instr) : Bool :=
  (s.running || eventWhileStopped i || (s.plat.power && !s.test.frozen && eventWhileQuiesced i)) &&
    !(s.plat.cxlTraining && hostEvent i)

end Sys2Proof.Machine
end

