-- ==== Sys2Proof/Machine/Loader.lean ====
section
/-! DEFINITION. Placing one instruction where the next step fetches it (log 1): a line that holds it, and, where no thread is
about to issue, the smallest context, launch and thread that could run it. -/

namespace Sys2Proof.Machine

/-- The fetch line that holds an instruction's words at a slot, short NOPs everywhere else (R63, R66). -/
def lineWith (base : DWord) (slot len : Nat) (ws : List Word) : Line :=
  let start := (List.range 30).foldl (fun v i => if slot < i ∧ i < slot + len then v else v + 2 ^ i) 0
  let word (i : Nat) : Word := if slot ≤ i ∧ i < slot + len then ws.getD (i - slot) 0 else nopWord
  { base, words := BitVec.ofNat 32 start :: 1#32 :: (List.range 30).map word }

/-- A team of one group on core 0, of a grid of one team, for a context. -/
def loaderTeam (tid iid cid : Nat) : Team :=
  { id := tid, ctx := 0, inst := iid, index := 0, teamx := 0, teamy := 0, teamz := 0, rank := 0, cluster := some cid,
    core := 0, sector := 0, teamSlot := 0, entry := 8, arg := 0, join := 0, keys := [], pri := 0, rst := false, aud := false,
    priv := false, pipe := false, sliceSize := 4096, allotment := 4096, tiles := 4 }

/-- A group of budget 64 with one ready thread at slot 0 of a line it holds. -/
def loaderGroup (gid tid : Nat) (line : Line) : Group :=
  { id := gid, team := tid, grp := 0, role := 0, budget := 64, kmax := 1024, core := 0, quarter := 0, slot := 0,
    arena := 0x100000, lanes := { status := .ready, pc := line.base + 8, fetch := .held line } :: List.replicate 31 {} }

/-- The machine with one thread that is about to issue from a line. -/
def State.installThread (s : State) (line : Line) : State :=
  let n := s.ids
  let record : Record := { roles := [{ entry := 8, budget := 64, groups := 1, kmax := 1024, tiles := 4, kind := 0 }] }
  { s with ids := n + 4, plat := { s.plat with power := true },
           contexts := sput {} s.contexts 0 { s.ctx 0 with live := true },
           host := { s.host with partitions := sput 0 s.host.partitions 0 1 },
           instances := s.instances ++ [{ id := n, ctx := 0, record, grid := true, ember := [], partition := 0, next := 1,
                                          total := 1 }],
           clusters := s.clusters ++ [{ id := n + 1, inst := n, base := 0, cx := 1, cy := 1, die := 0, x0 := 0, y0 := 0,
                                        members := [(0, n + 2)] }],
           teams := s.teams ++ [loaderTeam (n + 2) n (n + 1)],
           groups := s.groups ++ [loaderGroup (n + 3) (n + 2) line] }

/-- The machine whose next issue is at core 0 quarter 0 of the group a quarter would choose, with a line in its hands. -/
def State.placeLine (s : State) (len : Nat) (ws : List Word) : State :=
  let fresh := lineWith 0 0 len ws
  let quarter := if s.running then s.nextQuarter else none
  match quarter.bind fun q => (s.pickGroup q.1 q.2).bind fun g => g.longest.map fun j => (q, g, j) with
  | none => { s.installThread fresh with agenda := [.issue 0 0] }
  | some (q, g, j) =>
    let p := (g.lane j).pc
    let slot := match slotOf p with
      | some i => if i + len ≤ 30 then i else 0
      | none => 0
    let base := lineBase p
    let line := lineWith base slot len ws
    let put (l : Lane) : Lane :=
      if l.status = .ready ∧ l.pc = p then { l with pc := base + BitVec.ofNat 64 (8 + 4 * slot), fetch := .held line }
      else l
    { s.mapGroup g.id (fun g => g.mapLanes fun _ l => put l) with agenda := [.issue q.1 q.2] }

end Sys2Proof.Machine
end

