-- ==== Sys2Proof/Machine/Step.lean ====
section
/-! DEFINITION. One step of the machine (log 3): a test-port byte that has arrived, else the head of the agenda, else, in
turns, an issue by the picker and an internal event. -/

namespace Sys2Proof.Machine

/-- An issue by a quarter of a core, or nothing where none of its groups has a thread to issue. -/
def issueAt (core quarter : Nat) (s : State) : Host.Outcome State Fault Refusal :=
  match s.prepare core quarter with
  | (s, some i) => exec i s
  | (s, none) => .next s

/-- One instruction of a halted sub-group, or nothing where it has no thread to issue (R365). -/
def singleAt (gid j : Nat) (s : State) : Host.Outcome State Fault Refusal :=
  match s.prepareSingle gid j with
  | (s, some i) => exec i s
  | (s, none) => .next s

/-- An event of the agenda or of the machine; while the clocks stand only those that do not need them. -/
def eventAt (i : Instr) (s : State) : Host.Outcome State Fault Refusal :=
  if s.eventOpen i then exec i s else .next s

/-- One step. -/
def step (s0 : State) : Host.Outcome State Fault Refusal :=
  let s := s0.tick
  match s.tapIn with
  | some b => exec (decodeTap b) { s with tapIn := none }
  | none =>
    match s.agenda with
    | .event i :: r => eventAt i { s with agenda := r }
    | .issue c q :: r => if s.running then issueAt c q { s with agenda := r } else .next { s with agenda := r }
    | .single g j :: r =>
      if s.running then singleAt g j { s with agenda := r } else .next { s with agenda := r }
    | [] =>
      if !s.running then .next s
      else if s.turn then
        match s.nextQuarter with
        | some (c, q) => issueAt c q { s with turn := false, lastQuarter := 4 * c + q }
        | none => .next { s with turn := false }
      else
        match s.autoEvent with
        | some i => exec i { s with turn := true }
        | none => .next { s with turn := true }

/-- The state with an instruction placed where the next step fetches it (log 1): a test-port byte on the test port, the words
of an instruction in the line of the thread that issues next. -/
def State.withFetchWord (s : State) (nbits w : Nat) : State :=
  if nbits < 32 then { s with tapIn := some (BitVec.ofNat 8 w) }
  else
    let ws := tableWords (w % 2 ^ nbits)
    { s.placeLine (formLength (ws.getD 0 0) (ws.getD 1 0)) ws with tapIn := none }

end Sys2Proof.Machine
end

