-- ==== Sys2Proof/Laws/Decode.lean ====
section
/-! SUPPORT. Reading an instruction back from its words (R3, R47 to R49, R62 to R64), said once for each length. -/

namespace Sys2Proof

open Machine

theorem extract_low {a b : Nat} (x : BitVec a) (y : BitVec b) (start n : Nat) (h : start + n ≤ b) :
    (x ++ y).extractLsb' start n = y.extractLsb' start n := by
  apply BitVec.eq_of_getLsbD_eq
  intro i hi
  have h' : start + i < b := by omega
  simp [BitVec.getLsbD_append, h', hi]

theorem extract_high {a b : Nat} (x : BitVec a) (y : BitVec b) (start n : Nat) (h : b ≤ start) :
    (x ++ y).extractLsb' start n = x.extractLsb' (start - b) n := by
  apply BitVec.eq_of_getLsbD_eq
  intro i hi
  have h' : ¬ (start + i < b) := by omega
  have h'' : start + i - b = start - b + i := by omega
  simp [BitVec.getLsbD_append, h', hi, h'']

theorem extract_all {n : Nat} (x : BitVec n) : x.extractLsb' 0 n = x := by
  apply BitVec.eq_of_getLsbD_eq
  intro i hi
  simp [hi]

theorem bit_low {a b : Nat} (x : BitVec a) (y : BitVec b) (i : Nat) (h : i < b) : (x ++ y).getLsbD i = y.getLsbD i := by
  simp [BitVec.getLsbD_append, h]

theorem bit_high {a b : Nat} (x : BitVec a) (y : BitVec b) (i : Nat) (h : b ≤ i) : (x ++ y).getLsbD i = x.getLsbD (i - b) := by
  simp [BitVec.getLsbD_append, Nat.not_lt.2 h]

theorem majorOf_baseWord (m : BitVec 5) (f : Fields) : majorOf (baseWord m f) = m := by
  unfold majorOf baseWord
  simp (disch := omega) only [extract_high, Nat.reduceSub, extract_all]

theorem baseFields_baseWord (m : BitVec 5) (f : Fields) :
    baseFields (baseWord m f) = { f with c := 0, la := 0, sc := 0, mod := 0, imm := 0 } := by
  unfold baseFields baseWord
  simp (disch := omega) only [extract_high, extract_low, bit_low, bit_high, Nat.reduceSub, extract_all]
  simp

theorem minorOf_extensionWord (n : BitVec 10) (f : Fields) : minorOf (extensionWord n f) = n := by
  unfold minorOf extensionWord
  simp (disch := omega) only [extract_high, Nat.reduceSub, extract_all]

theorem longFields_words (m : BitVec 5) (n : BitVec 10) (f : Fields) (imm : Word) :
    longFields (baseWord m f) (extensionWord n f) imm = { f with imm := imm } := by
  unfold longFields
  rw [baseFields_baseWord]
  unfold extensionWord
  simp (disch := omega) only [extract_high, extract_low, Nat.reduceSub, extract_all]

theorem baseWord_ne_nop (m : BitVec 5) (f : Fields) (h : m ≠ 0x0D#5 ∨ f.d ≠ 0x70#7) : baseWord m f ≠ nopWord := by
  intro e
  have h1 : majorOf (baseWord m f) = majorOf nopWord := by rw [e]
  have h2 : (baseFields (baseWord m f)).d = (baseFields nopWord).d := by rw [e]
  rw [majorOf_baseWord] at h1
  rw [baseFields_baseWord] at h2
  rcases h with h | h
  · exact h (h1.trans (by decide))
  · exact h (h2.trans (by decide))

theorem takeWord_bytesOfWord (w : Word) (rest : List Byte) : takeWord (bytesOfWord w ++ rest) = some (w, rest) := by
  have : wordOfBytes (w.extractLsb' 0 8) (w.extractLsb' 8 8) (w.extractLsb' 16 8) (w.extractLsb' 24 8) = w := by
    unfold wordOfBytes
    apply BitVec.eq_of_getLsbD_eq
    intro i hi
    simp only [BitVec.getLsbD_append, BitVec.getLsbD_extractLsb']
    by_cases h1 : i < 8
    · simp [h1]
    · by_cases h2 : i < 16
      · have : i - 8 < 8 := by omega
        have e : 8 + (i - 8) = i := by omega
        simp [h1, this, e]
      · by_cases h3 : i < 24
        · have a : ¬ (i - 8 < 8) := by omega
          have b : i - 8 - 8 < 8 := by omega
          have e : 16 + (i - 8 - 8) = i := by omega
          simp [h1, a, b, e]
        · have a : ¬ (i - 8 < 8) := by omega
          have b : ¬ (i - 8 - 8 < 8) := by omega
          have c : i - 8 - 8 - 8 < 8 := by omega
          have e : 24 + (i - 8 - 8 - 8) = i := by omega
          simp [h1, a, b, c, e]
  simp [bytesOfWord, takeWord, this]

theorem decode_one (m : BitVec 5) (f : Fields) (i : Instr) (rest : List Byte) (hm : m.toNat ≤ 0x16)
    (hw : m ≠ 0x0D#5 ∨ f.d ≠ 0x70#7) (hl : lenOk 1 f = true) (hi : makeShort m.toNat f = some i) :
    decodeBytes ([baseWord m f].flatMap bytesOfWord ++ rest) = .ok (i, rest) := by
  have hf : ({ f with c := 0, la := 0, sc := 0, mod := 0, imm := 0 } : Fields) = f := by
    simp [lenOk] at hl
    obtain ⟨⟨⟨⟨h1, h2⟩, h3⟩, h4⟩, h5⟩ := hl
    cases f
    simp_all
  have h17 : m.toNat ≤ 0x17 := by omega
  simp only [List.flatMap_cons, List.flatMap_nil, List.append_nil, decodeBytes, takeWord_bytesOfWord, majorOf_baseWord, h17,
    if_true, decodeWords, baseWord_ne_nop m f hw, if_false, hm, baseFields_baseWord, hf, hi, Option.getD_some]

theorem decode_two (m : BitVec 5) (n : BitVec 10) (f : Fields) (i : Instr) (rest : List Byte) (hm : 0x17 < m.toNat)
    (him : hasImmediate m.toNat n.toNat = false) (hl : lenOk 2 f = true) (hi : makeLong m.toNat n.toNat f = some i) :
    decodeBytes ([baseWord m f, extensionWord n f].flatMap bytesOfWord ++ rest) = .ok (i, rest) := by
  have hf : ({ f with imm := 0 } : Fields) = f := by
    simp [lenOk] at hl
    cases f
    simp_all
  have h17 : ¬ m.toNat ≤ 0x17 := by omega
  have h16 : ¬ m.toNat ≤ 0x16 := by omega
  have hn : m ≠ 0x0D#5 := by rintro rfl; simp at hm
  have hs : m ≠ 0x17#5 := by rintro rfl; simp at hm
  simp only [List.flatMap_cons, List.flatMap_nil, List.append_nil, List.append_assoc, decodeBytes, takeWord_bytesOfWord,
    majorOf_baseWord, h17, if_false, minorOf_extensionWord, him, Bool.false_eq_true, decodeWords,
    baseWord_ne_nop m f (.inl hn), h16, hs, longFields_words, hf, hi, Option.getD_some]

theorem decode_three (m : BitVec 5) (n : BitVec 10) (f : Fields) (i : Instr) (rest : List Byte) (hm : 0x17 < m.toNat)
    (him : hasImmediate m.toNat n.toNat = true) (hi : makeLong m.toNat n.toNat f = some i) :
    decodeBytes ([baseWord m f, extensionWord n f, f.imm].flatMap bytesOfWord ++ rest) = .ok (i, rest) := by
  have h17 : ¬ m.toNat ≤ 0x17 := by omega
  have h16 : ¬ m.toNat ≤ 0x16 := by omega
  have hn : m ≠ 0x0D#5 := by rintro rfl; simp at hm
  have hs : m ≠ 0x17#5 := by rintro rfl; simp at hm
  simp only [List.flatMap_cons, List.flatMap_nil, List.append_nil, List.append_assoc, decodeBytes, takeWord_bytesOfWord,
    majorOf_baseWord, h17, if_false, minorOf_extensionWord, him, if_true, decodeWords,
    baseWord_ne_nop m f (.inl hn), h16, hs, longFields_words, hi, Option.getD_some]
end Sys2Proof
end

