-- ==== Sys2Proof/Laws/PerInstr.lean ====
section
/-! SUPPORT. Statements made for every instruction, one lemma for each constructor. -/

namespace Sys2Proof.Laws.RoundTrip

open Machine

/-- A well-formed instruction that has words is read back from their bytes, whatever follows them; a test-port instruction is
read back from its byte. -/
def Statement (i : Instr) : Prop :=
  i.WellFormed →
    (encode i ≠ [] → ∀ rest : List Byte, decodeBytes ((encode i).flatMap bytesOfWord ++ rest) = .ok (i, rest)) ∧
    ∀ b, encodeTap i = some b → decodeTap b = i

/-- A well-formed instruction of the opcode map passes the checks on the unused words of its form. -/
theorem lenOk_of {i : Instr} {c : Code} {f : Fields} (h : i.WellFormed) (hc : codeOf i = some c) (hf : fieldsOf i = some f) :
    lenOk c.len f = true := by
  unfold Instr.WellFormed formOk at h
  rw [hc, hf] at h
  simp only [Bool.and_eq_true] at h
  exact h.1.1.2

/-- A 1-word form. -/
theorem one {i : Instr} {n : BitVec 10} {k : Kind} (m : BitVec 5) (f : Fields) (hc : codeOf i = some ⟨m, n, 1, k⟩)
    (hf : fieldsOf i = some f) (he : encode i = [baseWord m f]) (hm : m.toNat ≤ 0x16) (hn : m ≠ 0x0D#5)
    (hi : makeShort m.toNat f = some i) (ht : encodeTap i = none) : Statement i := by
  intro h
  refine ⟨fun _ rest => ?_, fun b hb => ?_⟩
  · rw [he]
    exact decode_one m f i rest hm (.inl hn) (lenOk_of h hc hf) hi
  · rw [ht] at hb
    cases hb

/-- A 2-word form. -/
theorem two {i : Instr} {k : Kind} (m : BitVec 5) (n : BitVec 10) (f : Fields) (hc : codeOf i = some ⟨m, n, 2, k⟩)
    (hf : fieldsOf i = some f) (he : encode i = [baseWord m f, extensionWord n f]) (hm : 0x17 < m.toNat)
    (him : hasImmediate m.toNat n.toNat = false) (hi : makeLong m.toNat n.toNat f = some i) (ht : encodeTap i = none) :
    Statement i := by
  intro h
  refine ⟨fun _ rest => ?_, fun b hb => ?_⟩
  · rw [he]
    exact decode_two m n f i rest hm him (lenOk_of h hc hf) hi
  · rw [ht] at hb
    cases hb

/-- A 3-word form. -/
theorem three {i : Instr} (m : BitVec 5) (n : BitVec 10) (f : Fields)
    (he : encode i = [baseWord m f, extensionWord n f, f.imm]) (hm : 0x17 < m.toNat)
    (him : hasImmediate m.toNat n.toNat = true) (hi : makeLong m.toNat n.toNat f = some i) (ht : encodeTap i = none) :
    Statement i := by
  intro _
  refine ⟨fun _ rest => ?_, fun b hb => ?_⟩
  · rw [he]
    exact decode_three m n f i rest hm him hi
  · rw [ht] at hb
    cases hb

/-- An event has no words. -/
theorem event {i : Instr} (he : encode i = []) (ht : encodeTap i = none) : Statement i := by
  intro _
  refine ⟨fun h => absurd he h, fun b hb => ?_⟩
  rw [ht] at hb
  cases hb

theorem mov (f : Fields) : Statement (.mov f) := by
  intro h
  refine ⟨fun _ rest => decode_one 0x0D#5 f _ rest (by decide) (.inr ?_) (lenOk_of h rfl rfl) rfl, fun b hb => nomatch hb⟩
  rintro hd
  unfold Instr.WellFormed formOk at h
  simp [codeOf, fieldsOf, fieldsOk, useOf, useDa, fieldOk, hd] at h

theorem nop : Statement .nop := by
  intro _
  refine ⟨fun _ rest => ?_, fun b hb => nomatch hb⟩
  have h : (majorOf nopWord).toNat ≤ 0x17 := by decide
  have d : decodeWords nopWord 0 0 = .nop := by decide
  simp only [encode, List.flatMap_cons, List.flatMap_nil, List.append_nil, decodeBytes, takeWord_bytesOfWord, h, if_true, d]

/-- The majors of long forms. -/
theorem longMajor (major : BitVec 5) (h : ¬ major.toNat ≤ 0x17) :
    major = 0x18#5 ∨ major = 0x19#5 ∨ major = 0x1A#5 ∨ major = 0x1B#5 ∨ major = 0x1C#5 ∨ major = 0x1D#5 ∨ major = 0x1E#5 ∨
      major = 0x1F#5 := by
  revert h major
  decide

/-- A code without a row has no immediate word and no instruction. -/
theorem noImmediate (major : BitVec 5) (minor : BitVec 10) (h : ¬ major.toNat ≤ 0x17) (ha : assigned major minor = false) :
    hasImmediate major.toNat minor.toNat = false := by
  rcases longMajor major h with rfl | rfl | rfl | rfl | rfl | rfl | rfl | rfl <;>
    simp [assigned] at ha <;> simp [hasImmediate] <;> omega

theorem noLong (major : BitVec 5) (minor : BitVec 10) (f : Fields) (h : ¬ major.toNat ≤ 0x17)
    (ha : assigned major minor = false) : makeLong major.toNat minor.toNat f = none := by
  rcases longMajor major h with rfl | rfl | rfl | rfl | rfl | rfl | rfl | rfl <;> simp [assigned] at ha <;>
    simp only [makeLong, BitVec.toNat_ofNat] <;>
    simp only [make18, make19, make1A, make1B, make1C, make1D, make1E, make1F] <;> split <;> first | rfl | (exfalso; omega)

theorem bypass (code : BitVec 8) : Statement (.bypass code) := by
  intro h
  refine ⟨fun h => absurd rfl h, fun b hb => ?_⟩
  cases hb
  revert h code
  decide

theorem unassignedCode (f : Fields) (major : BitVec 5) (minor : BitVec 10) : Statement (.unassignedCode f major minor) := by
  intro h
  refine ⟨fun _ rest => ?_, fun b hb => nomatch hb⟩
  unfold Instr.WellFormed formOk at h
  simp only [codeOf, fieldsOf, eventOk, Bool.and_eq_true, Bool.not_eq_true', decide_eq_true_eq, Bool.or_eq_true] at h
  obtain ⟨⟨⟨⟨-, hl⟩, ha⟩, hm⟩, hs⟩ := h
  have hf : ({ f with c := 0, la := 0, sc := 0, mod := 0, imm := 0 } : Fields) = f := by
    simp [lenOk] at hl
    cases f
    simp_all
  have hn : major ≠ 0x0D#5 := by rintro rfl; simp at hm
  have h16 : ¬ major.toNat ≤ 0x16 := by omega
  by_cases h17 : major = 0x17#5
  · subst h17
    have h0 : minor = 0#10 := by simpa using hs
    subst h0
    simp [encode, decodeBytes, takeWord_bytesOfWord, majorOf_baseWord, decodeWords, baseWord_ne_nop _ f (.inl hn),
      baseFields_baseWord]
    exact hf
  · have hgt : ¬ major.toNat ≤ 0x17 := by
      intro hle
      exact h17 (BitVec.eq_of_toNat_eq (by simp; omega))
    have hx : minorOf (minor ++ 0#22) = minor := by
      unfold minorOf
      simp (disch := omega) only [extract_high, Nat.reduceSub, extract_all]
    have hi := noImmediate major minor hgt ha
    have hk := fun g => noLong major minor g hgt ha
    simp [encode, decodeBytes, takeWord_bytesOfWord, majorOf_baseWord, decodeWords, baseWord_ne_nop _ f (.inl hn),
      baseFields_baseWord, hgt, h16, h17, hx, hi, hk]
    exact hf

theorem iadd (f : Fields) : Statement (.iadd f) := one 0x00#5 f rfl rfl rfl (by decide) (by decide) rfl rfl

theorem iaddLong (f : Fields) : Statement (.iaddLong f) := two 0x18#5 0x000#10 f rfl rfl rfl (by decide) rfl rfl rfl

theorem isub (f : Fields) : Statement (.isub f) := one 0x01#5 f rfl rfl rfl (by decide) (by decide) rfl rfl

theorem isubLong (f : Fields) : Statement (.isubLong f) := two 0x18#5 0x001#10 f rfl rfl rfl (by decide) rfl rfl rfl

theorem imul (f : Fields) : Statement (.imul f) := one 0x02#5 f rfl rfl rfl (by decide) (by decide) rfl rfl

theorem imulLong (f : Fields) : Statement (.imulLong f) := two 0x18#5 0x002#10 f rfl rfl rfl (by decide) rfl rfl rfl

theorem imulh (f : Fields) : Statement (.imulh f) := one 0x03#5 f rfl rfl rfl (by decide) (by decide) rfl rfl

theorem imulhLong (f : Fields) : Statement (.imulhLong f) := two 0x18#5 0x003#10 f rfl rfl rfl (by decide) rfl rfl rfl

theorem and (f : Fields) : Statement (.and f) := one 0x04#5 f rfl rfl rfl (by decide) (by decide) rfl rfl

theorem andLong (f : Fields) : Statement (.andLong f) := two 0x18#5 0x004#10 f rfl rfl rfl (by decide) rfl rfl rfl

theorem or (f : Fields) : Statement (.or f) := one 0x05#5 f rfl rfl rfl (by decide) (by decide) rfl rfl

theorem orLong (f : Fields) : Statement (.orLong f) := two 0x18#5 0x005#10 f rfl rfl rfl (by decide) rfl rfl rfl

theorem xor (f : Fields) : Statement (.xor f) := one 0x06#5 f rfl rfl rfl (by decide) (by decide) rfl rfl

theorem xorLong (f : Fields) : Statement (.xorLong f) := two 0x18#5 0x006#10 f rfl rfl rfl (by decide) rfl rfl rfl

theorem andn (f : Fields) : Statement (.andn f) := one 0x07#5 f rfl rfl rfl (by decide) (by decide) rfl rfl

theorem andnLong (f : Fields) : Statement (.andnLong f) := two 0x18#5 0x007#10 f rfl rfl rfl (by decide) rfl rfl rfl

theorem shl (f : Fields) : Statement (.shl f) := one 0x08#5 f rfl rfl rfl (by decide) (by decide) rfl rfl

theorem shlLong (f : Fields) : Statement (.shlLong f) := two 0x18#5 0x008#10 f rfl rfl rfl (by decide) rfl rfl rfl

theorem shr (f : Fields) : Statement (.shr f) := one 0x09#5 f rfl rfl rfl (by decide) (by decide) rfl rfl

theorem shrLong (f : Fields) : Statement (.shrLong f) := two 0x18#5 0x009#10 f rfl rfl rfl (by decide) rfl rfl rfl

theorem shra (f : Fields) : Statement (.shra f) := one 0x0A#5 f rfl rfl rfl (by decide) (by decide) rfl rfl

theorem shraLong (f : Fields) : Statement (.shraLong f) := two 0x18#5 0x00A#10 f rfl rfl rfl (by decide) rfl rfl rfl

theorem imin (f : Fields) : Statement (.imin f) := one 0x0B#5 f rfl rfl rfl (by decide) (by decide) rfl rfl

theorem iminLong (f : Fields) : Statement (.iminLong f) := two 0x18#5 0x00B#10 f rfl rfl rfl (by decide) rfl rfl rfl

theorem imax (f : Fields) : Statement (.imax f) := one 0x0C#5 f rfl rfl rfl (by decide) (by decide) rfl rfl

theorem imaxLong (f : Fields) : Statement (.imaxLong f) := two 0x18#5 0x00C#10 f rfl rfl rfl (by decide) rfl rfl rfl

theorem movLong (f : Fields) : Statement (.movLong f) := two 0x18#5 0x00D#10 f rfl rfl rfl (by decide) rfl rfl rfl

theorem sel (f : Fields) : Statement (.sel f) := one 0x0E#5 f rfl rfl rfl (by decide) (by decide) rfl rfl

theorem selLong (f : Fields) : Statement (.selLong f) := two 0x18#5 0x00E#10 f rfl rfl rfl (by decide) rfl rfl rfl

theorem popc (f : Fields) : Statement (.popc f) := one 0x0F#5 f rfl rfl rfl (by decide) (by decide) rfl rfl

theorem popcLong (f : Fields) : Statement (.popcLong f) := two 0x18#5 0x00F#10 f rfl rfl rfl (by decide) rfl rfl rfl

theorem fadd (f : Fields) : Statement (.fadd f) := one 0x10#5 f rfl rfl rfl (by decide) (by decide) rfl rfl

theorem faddLong (f : Fields) : Statement (.faddLong f) := two 0x19#5 0x000#10 f rfl rfl rfl (by decide) rfl rfl rfl

theorem fsub (f : Fields) : Statement (.fsub f) := one 0x11#5 f rfl rfl rfl (by decide) (by decide) rfl rfl

theorem fsubLong (f : Fields) : Statement (.fsubLong f) := two 0x19#5 0x001#10 f rfl rfl rfl (by decide) rfl rfl rfl

theorem fmul (f : Fields) : Statement (.fmul f) := one 0x12#5 f rfl rfl rfl (by decide) (by decide) rfl rfl

theorem fmulLong (f : Fields) : Statement (.fmulLong f) := two 0x19#5 0x002#10 f rfl rfl rfl (by decide) rfl rfl rfl

theorem fmin (f : Fields) : Statement (.fmin f) := one 0x13#5 f rfl rfl rfl (by decide) (by decide) rfl rfl

theorem fminLong (f : Fields) : Statement (.fminLong f) := two 0x19#5 0x003#10 f rfl rfl rfl (by decide) rfl rfl rfl

theorem fmax (f : Fields) : Statement (.fmax f) := one 0x14#5 f rfl rfl rfl (by decide) (by decide) rfl rfl

theorem fmaxLong (f : Fields) : Statement (.fmaxLong f) := two 0x19#5 0x004#10 f rfl rfl rfl (by decide) rfl rfl rfl

theorem hadd2 (f : Fields) : Statement (.hadd2 f) := one 0x15#5 f rfl rfl rfl (by decide) (by decide) rfl rfl

theorem hadd2Long (f : Fields) : Statement (.hadd2Long f) := two 0x19#5 0x005#10 f rfl rfl rfl (by decide) rfl rfl rfl

theorem hmul2 (f : Fields) : Statement (.hmul2 f) := one 0x16#5 f rfl rfl rfl (by decide) (by decide) rfl rfl

theorem hmul2Long (f : Fields) : Statement (.hmul2Long f) := two 0x19#5 0x006#10 f rfl rfl rfl (by decide) rfl rfl rfl

theorem nopLong (f : Fields) : Statement (.nopLong f) := two 0x1C#5 0x00B#10 f rfl rfl rfl (by decide) rfl rfl rfl

theorem iaddi (f : Fields) : Statement (.iaddi f) := three 0x18#5 0x010#10 f rfl (by decide) rfl rfl rfl

theorem movi (f : Fields) : Statement (.movi f) := three 0x18#5 0x011#10 f rfl (by decide) rfl rfl rfl

theorem imad (f : Fields) : Statement (.imad f) := two 0x18#5 0x012#10 f rfl rfl rfl (by decide) rfl rfl rfl

theorem imadw (f : Fields) : Statement (.imadw f) := two 0x18#5 0x013#10 f rfl rfl rfl (by decide) rfl rfl rfl

theorem iaddc (f : Fields) : Statement (.iaddc f) := two 0x18#5 0x014#10 f rfl rfl rfl (by decide) rfl rfl rfl

theorem isubb (f : Fields) : Statement (.isubb f) := two 0x18#5 0x015#10 f rfl rfl rfl (by decide) rfl rfl rfl

theorem ineg (f : Fields) : Statement (.ineg f) := two 0x18#5 0x016#10 f rfl rfl rfl (by decide) rfl rfl rfl

theorem iabs (f : Fields) : Statement (.iabs f) := two 0x18#5 0x017#10 f rfl rfl rfl (by decide) rfl rfl rfl

theorem rot (f : Fields) : Statement (.rot f) := two 0x18#5 0x018#10 f rfl rfl rfl (by decide) rfl rfl rfl

theorem clz (f : Fields) : Statement (.clz f) := two 0x18#5 0x019#10 f rfl rfl rfl (by decide) rfl rfl rfl

theorem brev (f : Fields) : Statement (.brev f) := two 0x18#5 0x01A#10 f rfl rfl rfl (by decide) rfl rfl rfl

theorem bfe (f : Fields) : Statement (.bfe f) := two 0x18#5 0x01B#10 f rfl rfl rfl (by decide) rfl rfl rfl

theorem bfi (f : Fields) : Statement (.bfi f) := two 0x18#5 0x01C#10 f rfl rfl rfl (by decide) rfl rfl rfl

theorem lea (f : Fields) : Statement (.lea f) := two 0x18#5 0x01D#10 f rfl rfl rfl (by decide) rfl rfl rfl

theorem icmp (f : Fields) : Statement (.icmp f) := two 0x18#5 0x01E#10 f rfl rfl rfl (by decide) rfl rfl rfl

theorem icmpi (f : Fields) : Statement (.icmpi f) := three 0x18#5 0x01F#10 f rfl (by decide) rfl rfl rfl

theorem pfun (f : Fields) : Statement (.pfun f) := two 0x18#5 0x020#10 f rfl rfl rfl (by decide) rfl rfl rfl

theorem pmov (f : Fields) : Statement (.pmov f) := two 0x18#5 0x021#10 f rfl rfl rfl (by decide) rfl rfl rfl

theorem vote (f : Fields) : Statement (.vote f) := two 0x18#5 0x022#10 f rfl rfl rfl (by decide) rfl rfl rfl

theorem lxch (f : Fields) : Statement (.lxch f) := two 0x18#5 0x023#10 f rfl rfl rfl (by decide) rfl rfl rfl

theorem bcast (f : Fields) : Statement (.bcast f) := two 0x18#5 0x024#10 f rfl rfl rfl (by decide) rfl rfl rfl

theorem redg (f : Fields) : Statement (.redg f) := two 0x18#5 0x025#10 f rfl rfl rfl (by decide) rfl rfl rfl

theorem ffma (f : Fields) : Statement (.ffma f) := two 0x19#5 0x010#10 f rfl rfl rfl (by decide) rfl rfl rfl

theorem fcmp (f : Fields) : Statement (.fcmp f) := two 0x19#5 0x011#10 f rfl rfl rfl (by decide) rfl rfl rfl

theorem frcp (f : Fields) : Statement (.frcp f) := two 0x19#5 0x012#10 f rfl rfl rfl (by decide) rfl rfl rfl

theorem fsqrt (f : Fields) : Statement (.fsqrt f) := two 0x19#5 0x013#10 f rfl rfl rfl (by decide) rfl rfl rfl

theorem frsq (f : Fields) : Statement (.frsq f) := two 0x19#5 0x014#10 f rfl rfl rfl (by decide) rfl rfl rfl

theorem fex2 (f : Fields) : Statement (.fex2 f) := two 0x19#5 0x015#10 f rfl rfl rfl (by decide) rfl rfl rfl

theorem flg2 (f : Fields) : Statement (.flg2 f) := two 0x19#5 0x016#10 f rfl rfl rfl (by decide) rfl rfl rfl

theorem fsinp (f : Fields) : Statement (.fsinp f) := two 0x19#5 0x017#10 f rfl rfl rfl (by decide) rfl rfl rfl

theorem fcosp (f : Fields) : Statement (.fcosp f) := two 0x19#5 0x018#10 f rfl rfl rfl (by decide) rfl rfl rfl

theorem hfma2 (f : Fields) : Statement (.hfma2 f) := two 0x19#5 0x019#10 f rfl rfl rfl (by decide) rfl rfl rfl

theorem bfma2 (f : Fields) : Statement (.bfma2 f) := two 0x19#5 0x01A#10 f rfl rfl rfl (by decide) rfl rfl rfl

theorem dadd (f : Fields) : Statement (.dadd f) := two 0x19#5 0x01B#10 f rfl rfl rfl (by decide) rfl rfl rfl

theorem dmul (f : Fields) : Statement (.dmul f) := two 0x19#5 0x01C#10 f rfl rfl rfl (by decide) rfl rfl rfl

theorem dfma (f : Fields) : Statement (.dfma f) := two 0x19#5 0x01D#10 f rfl rfl rfl (by decide) rfl rfl rfl

theorem dcmp (f : Fields) : Statement (.dcmp f) := two 0x19#5 0x01E#10 f rfl rfl rfl (by decide) rfl rfl rfl

theorem cvti (f : Fields) : Statement (.cvti f) := two 0x19#5 0x01F#10 f rfl rfl rfl (by decide) rfl rfl rfl

theorem cvtf (f : Fields) : Statement (.cvtf f) := two 0x19#5 0x020#10 f rfl rfl rfl (by decide) rfl rfl rfl

theorem cvtw (f : Fields) : Statement (.cvtw f) := two 0x19#5 0x021#10 f rfl rfl rfl (by decide) rfl rfl rfl

theorem qcvt (f : Fields) : Statement (.qcvt f) := two 0x19#5 0x022#10 f rfl rfl rfl (by decide) rfl rfl rfl

theorem dqcvt (f : Fields) : Statement (.dqcvt f) := two 0x19#5 0x023#10 f rfl rfl rfl (by decide) rfl rfl rfl

theorem fredg (f : Fields) : Statement (.fredg f) := two 0x19#5 0x024#10 f rfl rfl rfl (by decide) rfl rfl rfl

theorem fmode (f : Fields) : Statement (.fmode f) := two 0x19#5 0x025#10 f rfl rfl rfl (by decide) rfl rfl rfl

theorem fclass (f : Fields) : Statement (.fclass f) := two 0x19#5 0x026#10 f rfl rfl rfl (by decide) rfl rfl rfl

theorem ld (f : Fields) : Statement (.ld f) := three 0x1A#5 0x000#10 f rfl (by decide) rfl rfl rfl

theorem st (f : Fields) : Statement (.st f) := three 0x1A#5 0x001#10 f rfl (by decide) rfl rfl rfl

theorem phase (f : Fields) : Statement (.phase f) := two 0x1A#5 0x002#10 f rfl rfl rfl (by decide) rfl rfl rfl

theorem fence (f : Fields) : Statement (.fence f) := two 0x1A#5 0x003#10 f rfl rfl rfl (by decide) rfl rfl rfl

theorem invv (f : Fields) : Statement (.invv f) := two 0x1A#5 0x004#10 f rfl rfl rfl (by decide) rfl rfl rfl

theorem pref (f : Fields) : Statement (.pref f) := three 0x1A#5 0x005#10 f rfl (by decide) rfl rfl rfl

theorem cvta (f : Fields) : Statement (.cvta f) := two 0x1A#5 0x006#10 f rfl rfl rfl (by decide) rfl rfl rfl

theorem lds (f : Fields) : Statement (.lds f) := three 0x1B#5 0x000#10 f rfl (by decide) rfl rfl rfl

theorem sts (f : Fields) : Statement (.sts f) := three 0x1B#5 0x001#10 f rfl (by decide) rfl rfl rfl

theorem ldsr (f : Fields) : Statement (.ldsr f) := three 0x1B#5 0x002#10 f rfl (by decide) rfl rfl rfl

theorem stsr (f : Fields) : Statement (.stsr f) := three 0x1B#5 0x003#10 f rfl (by decide) rfl rfl rfl

theorem bdecl (f : Fields) : Statement (.bdecl f) := two 0x1B#5 0x004#10 f rfl rfl rfl (by decide) rfl rfl rfl

theorem bset (f : Fields) : Statement (.bset f) := two 0x1B#5 0x005#10 f rfl rfl rfl (by decide) rfl rfl rfl

theorem bqry (f : Fields) : Statement (.bqry f) := two 0x1B#5 0x006#10 f rfl rfl rfl (by decide) rfl rfl rfl

theorem tlook (f : Fields) : Statement (.tlook f) := two 0x1B#5 0x007#10 f rfl rfl rfl (by decide) rfl rfl rfl

theorem tinst (f : Fields) : Statement (.tinst f) := two 0x1B#5 0x008#10 f rfl rfl rfl (by decide) rfl rfl rfl

theorem tdrop (f : Fields) : Statement (.tdrop f) := two 0x1B#5 0x009#10 f rfl rfl rfl (by decide) rfl rfl rfl

theorem atom (f : Fields) : Statement (.atom f) := three 0x1B#5 0x00A#10 f rfl (by decide) rfl rfl rfl

theorem atcas (f : Fields) : Statement (.atcas f) := three 0x1B#5 0x00B#10 f rfl (by decide) rfl rfl rfl

theorem red (f : Fields) : Statement (.red f) := three 0x1B#5 0x00C#10 f rfl (by decide) rfl rfl rfl

theorem bra (f : Fields) : Statement (.bra f) := three 0x1C#5 0x000#10 f rfl (by decide) rfl rfl rfl

theorem brx (f : Fields) : Statement (.brx f) := two 0x1C#5 0x001#10 f rfl rfl rfl (by decide) rfl rfl rfl

theorem call (f : Fields) : Statement (.call f) := three 0x1C#5 0x002#10 f rfl (by decide) rfl rfl rfl

theorem callx (f : Fields) : Statement (.callx f) := two 0x1C#5 0x003#10 f rfl rfl rfl (by decide) rfl rfl rfl

theorem ret (f : Fields) : Statement (.ret f) := two 0x1C#5 0x004#10 f rfl rfl rfl (by decide) rfl rfl rfl

theorem enter (f : Fields) : Statement (.enter f) := two 0x1C#5 0x005#10 f rfl rfl rfl (by decide) rfl rfl rfl

theorem win (f : Fields) : Statement (.win f) := two 0x1C#5 0x006#10 f rfl rfl rfl (by decide) rfl rfl rfl

theorem exit (f : Fields) : Statement (.exit f) := two 0x1C#5 0x007#10 f rfl rfl rfl (by decide) rfl rfl rfl

theorem join (f : Fields) : Statement (.join f) := two 0x1C#5 0x008#10 f rfl rfl rfl (by decide) rfl rfl rfl

theorem leave (f : Fields) : Statement (.leave f) := two 0x1C#5 0x009#10 f rfl rfl rfl (by decide) rfl rfl rfl

theorem wait (f : Fields) : Statement (.wait f) := two 0x1C#5 0x00A#10 f rfl rfl rfl (by decide) rfl rfl rfl

theorem fdepth (f : Fields) : Statement (.fdepth f) := two 0x1C#5 0x00C#10 f rfl rfl rfl (by decide) rfl rfl rfl

theorem fspill (f : Fields) : Statement (.fspill f) := two 0x1C#5 0x00D#10 f rfl rfl rfl (by decide) rfl rfl rfl

theorem ffill (f : Fields) : Statement (.ffill f) := two 0x1C#5 0x00E#10 f rfl rfl rfl (by decide) rfl rfl rfl

theorem binit (f : Fields) : Statement (.binit f) := three 0x1D#5 0x000#10 f rfl (by decide) rfl rfl rfl

theorem barv (f : Fields) : Statement (.barv f) := three 0x1D#5 0x001#10 f rfl (by decide) rfl rfl rfl

theorem bwait (f : Fields) : Statement (.bwait f) := three 0x1D#5 0x002#10 f rfl (by decide) rfl rfl rfl

theorem btest (f : Fields) : Statement (.btest f) := three 0x1D#5 0x003#10 f rfl (by decide) rfl rfl rfl

theorem cbarv (f : Fields) : Statement (.cbarv f) := two 0x1D#5 0x004#10 f rfl rfl rfl (by decide) rfl rfl rfl

theorem cbwait (f : Fields) : Statement (.cbwait f) := two 0x1D#5 0x005#10 f rfl rfl rfl (by decide) rfl rfl rfl

theorem enq (f : Fields) : Statement (.enq f) := two 0x1D#5 0x006#10 f rfl rfl rfl (by decide) rfl rfl rfl

theorem putq (f : Fields) : Statement (.putq f) := three 0x1D#5 0x007#10 f rfl (by decide) rfl rfl rfl

theorem signal (f : Fields) : Statement (.signal f) := two 0x1D#5 0x008#10 f rfl rfl rfl (by decide) rfl rfl rfl

theorem role (f : Fields) : Statement (.role f) := two 0x1D#5 0x009#10 f rfl rfl rfl (by decide) rfl rfl rfl

theorem yield (f : Fields) : Statement (.yield f) := two 0x1D#5 0x00A#10 f rfl rfl rfl (by decide) rfl rfl rfl

theorem claim (f : Fields) : Statement (.claim f) := two 0x1D#5 0x00B#10 f rfl rfl rfl (by decide) rfl rfl rfl

theorem jdec (f : Fields) : Statement (.jdec f) := three 0x1D#5 0x00C#10 f rfl (by decide) rfl rfl rfl

theorem xcopy (f : Fields) : Statement (.xcopy f) := three 0x1E#5 0x000#10 f rfl (by decide) rfl rfl rfl

theorem xgath (f : Fields) : Statement (.xgath f) := three 0x1E#5 0x001#10 f rfl (by decide) rfl rfl rfl

theorem xchain (f : Fields) : Statement (.xchain f) := three 0x1E#5 0x002#10 f rfl (by decide) rfl rfl rfl

theorem xseq (f : Fields) : Statement (.xseq f) := two 0x1E#5 0x003#10 f rfl rfl rfl (by decide) rfl rfl rfl

theorem xwait (f : Fields) : Statement (.xwait f) := two 0x1E#5 0x004#10 f rfl rfl rfl (by decide) rfl rfl rfl

theorem xpub (f : Fields) : Statement (.xpub f) := two 0x1E#5 0x005#10 f rfl rfl rfl (by decide) rfl rfl rfl

theorem xcoll (f : Fields) : Statement (.xcoll f) := three 0x1E#5 0x006#10 f rfl (by decide) rfl rfl rfl

theorem xstop (f : Fields) : Statement (.xstop f) := two 0x1E#5 0x007#10 f rfl rfl rfl (by decide) rfl rfl rfl

theorem xcrc (f : Fields) : Statement (.xcrc f) := two 0x1E#5 0x008#10 f rfl rfl rfl (by decide) rfl rfl rfl

theorem mma (f : Fields) : Statement (.mma f) := three 0x1E#5 0x100#10 f rfl (by decide) rfl rfl rfl

theorem mzero (f : Fields) : Statement (.mzero f) := two 0x1E#5 0x101#10 f rfl rfl rfl (by decide) rfl rfl rfl

theorem mloada (f : Fields) : Statement (.mloada f) := three 0x1E#5 0x102#10 f rfl (by decide) rfl rfl rfl

theorem mdrain (f : Fields) : Statement (.mdrain f) := three 0x1E#5 0x103#10 f rfl (by decide) rfl rfl rfl

theorem mwait (f : Fields) : Statement (.mwait f) := two 0x1E#5 0x104#10 f rfl rfl rfl (by decide) rfl rfl rfl

theorem mseq (f : Fields) : Statement (.mseq f) := two 0x1E#5 0x105#10 f rfl rfl rfl (by decide) rfl rfl rfl

theorem apref (f : Fields) : Statement (.apref f) := three 0x1E#5 0x106#10 f rfl (by decide) rfl rfl rfl

theorem ainv (f : Fields) : Statement (.ainv f) := two 0x1E#5 0x107#10 f rfl rfl rfl (by decide) rfl rfl rfl

theorem aqry (f : Fields) : Statement (.aqry f) := two 0x1E#5 0x108#10 f rfl rfl rfl (by decide) rfl rfl rfl

theorem trap (f : Fields) : Statement (.trap f) := two 0x1F#5 0x000#10 f rfl rfl rfl (by decide) rfl rfl rfl

theorem brk (f : Fields) : Statement (.brk f) := two 0x1F#5 0x006#10 f rfl rfl rfl (by decide) rfl rfl rfl

theorem svc (f : Fields) : Statement (.svc f) := two 0x1F#5 0x001#10 f rfl rfl rfl (by decide) rfl rfl rfl

theorem rett (f : Fields) : Statement (.rett f) := two 0x1F#5 0x002#10 f rfl rfl rfl (by decide) rfl rfl rfl

theorem mfc (f : Fields) : Statement (.mfc f) := three 0x1F#5 0x003#10 f rfl (by decide) rfl rfl rfl

theorem mtc (f : Fields) : Statement (.mtc f) := three 0x1F#5 0x004#10 f rfl (by decide) rfl rfl rfl

theorem eraise (f : Fields) : Statement (.eraise f) := two 0x1F#5 0x005#10 f rfl rfl rfl (by decide) rfl rfl rfl

theorem audit (f : Fields) : Statement (.audit f) := two 0x1F#5 0x007#10 f rfl rfl rfl (by decide) rfl rfl rfl

theorem stest (f : Fields) : Statement (.stest f) := two 0x1F#5 0x008#10 f rfl rfl rfl (by decide) rfl rfl rfl

theorem tlbgen (f : Fields) : Statement (.tlbgen f) := two 0x1F#5 0x009#10 f rfl rfl rfl (by decide) rfl rfl rfl

theorem lsweep (f : Fields) : Statement (.lsweep f) := three 0x1F#5 0x00A#10 f rfl (by decide) rfl rfl rfl

theorem waitsig (f : Fields) : Statement (.waitsig f) := two 0x1F#5 0x00B#10 f rfl rfl rfl (by decide) rfl rfl rfl

theorem arbitrationPromotion (resource request : Nat) : Statement (.arbitrationPromotion resource request) := event rfl rfl

theorem resourceGrant (resource : Nat) : Statement (.resourceGrant resource) := event rfl rfl

theorem issueRunCap (core quarter : Nat) : Statement (.issueRunCap core quarter) := event rfl rfl

theorem functionReady (fn : Function) : Statement (.functionReady fn) := event rfl rfl

theorem functionFail (fn : Function) : Statement (.functionFail fn) := event rfl rfl

theorem functionRetired (unit : RetiredUnit) : Statement (.functionRetired unit) := event rfl rfl

theorem frameSpill (gid lane : Nat) : Statement (.frameSpill gid lane) := event rfl rfl

theorem frameRefill (gid lane : Nat) : Statement (.frameRefill gid lane) := event rfl rfl

theorem spillTranslationReply (gid lane : Nat) (bad : Bool) : Statement (.spillTranslationReply gid lane bad) := event rfl rfl

theorem groupSave (gid : Nat) : Statement (.groupSave gid) := event rfl rfl

theorem groupResume (gid core : Nat) : Statement (.groupResume gid core) := event rfl rfl

theorem fill (team line : Nat) : Statement (.fill team line) := event rfl rfl

theorem drop (team line : Nat) : Statement (.drop team line) := event rfl rfl

theorem storeEnter (op : Nat) : Statement (.storeEnter op) := event rfl rfl

theorem commit (team : Nat) : Statement (.commit team) := event rfl rfl

theorem partArrive (source : ArrivalSource) : Statement (.partArrive source) := event rfl rfl

theorem apply (device : Nat) : Statement (.apply device) := event rfl rfl

theorem perform (op : Nat) : Statement (.perform op) := event rfl rfl

theorem publish (team queue : Nat) : Statement (.publish team queue) := event rfl rfl

theorem keyRelease (ctx : Nat) (key : Word) : Statement (.keyRelease ctx key) := event rfl rfl

theorem shadowLineGrant (op : Nat) : Statement (.shadowLineGrant op) := event rfl rfl

theorem scratchpadRequestPerform (op : Nat) : Statement (.scratchpadRequestPerform op) := event rfl rfl

theorem barrierArrival (op : Nat) : Statement (.barrierArrival op) := event rfl rfl

theorem timedWaitExpiry (gid lane : Nat) : Statement (.timedWaitExpiry gid lane) := event rfl rfl

theorem rankedContribution (op : Nat) : Statement (.rankedContribution op) := event rfl rfl

theorem rankStallTimeout (tile : Nat) : Statement (.rankStallTimeout tile) := event rfl rfl

theorem teamExit (team : Nat) : Statement (.teamExit team) := event rfl rfl

theorem joinDecrement (team : Nat) : Statement (.joinDecrement team) := event rfl rfl

theorem emberDispatch (ember core : Nat) (inherited : List (Nat × Nat)) : Statement (.emberDispatch ember core inherited) := event rfl rfl

theorem emberRingMove (ember : Nat) : Statement (.emberRingMove ember) := event rfl rfl

theorem localSlotTimeout (core : Nat) : Statement (.localSlotTimeout core) := event rfl rfl

theorem emberAged (ember : Nat) : Statement (.emberAged ember) := event rfl rfl

theorem gridClaim (grid core : Nat) (inherited : List (List (Nat × Nat))) : Statement (.gridClaim grid core inherited) := event rfl rfl

theorem clusterMemberStart (cluster : Nat) (member : Member) : Statement (.clusterMemberStart cluster member) :=
  event rfl rfl

theorem engineCommandStart (team queue : Nat) : Statement (.engineCommandStart team queue) := event rfl rfl

theorem engineChunk (team queue : Nat) : Statement (.engineChunk team queue) := event rfl rfl

theorem chainCommandRead (team queue : Nat) : Statement (.chainCommandRead team queue) := event rfl rfl

theorem engineCommandEnd (team queue : Nat) : Statement (.engineCommandEnd team queue) := event rfl rfl

theorem collectiveStep (team : Nat) : Statement (.collectiveStep team) := event rfl rfl

theorem collStallTimeout (team : Nat) : Statement (.collStallTimeout team) := event rfl rfl

theorem matrixOpStart (team : Nat) : Statement (.matrixOpStart team) := event rfl rfl

theorem matrixOpEnd (team : Nat) : Statement (.matrixOpEnd team) := event rfl rfl

theorem accordSliceArrive (team : Nat) : Statement (.accordSliceArrive team) := event rfl rfl

theorem matrixDrainEnd (team : Nat) : Statement (.matrixDrainEnd team) := event rfl rfl

theorem auditReplay (sample core : Nat) : Statement (.auditReplay sample core) := event rfl rfl

theorem uncorrectableConsumed (gid lane : Nat) (place : ErrorPlace) (skid : Nat) : Statement (.uncorrectableConsumed gid lane place skid) := event rfl rfl

theorem errorRecordLand (ctx index : Nat) : Statement (.errorRecordLand ctx index) := event rfl rfl

theorem serviceCompletion (ctx slot : Nat) : Statement (.serviceCompletion ctx slot) := event rfl rfl

theorem selfTestInterval (sector : Nat) : Statement (.selfTestInterval sector) := event rfl rfl

theorem selfTestEnd (sector : Nat) (pass : Bool) : Statement (.selfTestEnd sector pass) := event rfl rfl

theorem fullSelfTestEnd (failed : List Function) : Statement (.fullSelfTestEnd failed) := event rfl rfl

theorem debugHalt (target : DebugTarget) : Statement (.debugHalt target) := event rfl rfl

theorem singleStep (gid : Nat) (focus : Option Nat) : Statement (.singleStep gid focus) := event rfl rfl

theorem migrationRequest (ctx : Nat) (va : DWord) (tier : Tier) (byHost : Bool) : Statement (.migrationRequest ctx va tier byHost) := event rfl rfl

theorem hostMemoryAccess (access : HostAccess) : Statement (.hostMemoryAccess access) := event rfl rfl

theorem kick (queue : Nat) (wide : Bool) (value : DWord) : Statement (.kick queue wide value) := event rfl rfl

theorem qctlWrite (queue : Nat) (value : Word) : Statement (.qctlWrite queue value) := event rfl rfl

theorem hostCommandAccept (queue : Nat) : Statement (.hostCommandAccept queue) := event rfl rfl

theorem hostCommandComplete (entry : Nat) : Statement (.hostCommandComplete entry) := event rfl rfl

theorem commandLinkMessage (sector : Nat) (toHearth : Bool) (number : Word) : Statement (.commandLinkMessage sector toHearth number) := event rfl rfl

theorem frmqry (pa : DWord) : Statement (.frmqry pa) := event rfl rfl

theorem registerWrite (offset : Nat) (bytes : Nat) (value : DWord) : Statement (.registerWrite offset bytes value) := event rfl rfl

theorem linkLoss (port : Nat) : Statement (.linkLoss port) := event rfl rfl

theorem linkTrained (port : Nat) : Statement (.linkTrained port) := event rfl rfl

theorem portFailTimeout (port : Nat) : Statement (.portFailTimeout port) := event rfl rfl

theorem unreachableTimeout (op : Nat) : Statement (.unreachableTimeout op) := event rfl rfl

theorem resultArrival (gid lane : Nat) : Statement (.resultArrival gid lane) := event rfl rfl

theorem dataRegisterShift (bits : Nat) : Statement (.dataRegisterShift bits) := event rfl rfl

theorem debugResume (target : DebugTarget) : Statement (.debugResume target) := event rfl rfl

theorem debuggerAttach (ctx : Nat) (attached : Bool) : Statement (.debuggerAttach ctx attached) := event rfl rfl

theorem debuggerRegisterWrite (gid lane : Nat) (name : BitVec 7) (value : Word) : Statement (.debuggerRegisterWrite gid lane name value) := event rfl rfl

theorem tapIdcode : Statement .tapIdcode := fun _ => ⟨fun h => absurd rfl h, by simp [encodeTap, decodeTap]⟩

theorem tapFreeze : Statement .tapFreeze := fun _ => ⟨fun h => absurd rfl h, by simp [encodeTap, decodeTap]⟩

theorem tapRelease : Statement .tapRelease := fun _ => ⟨fun h => absurd rfl h, by simp [encodeTap, decodeTap]⟩

theorem tapStatus : Statement .tapStatus := fun _ => ⟨fun h => absurd rfl h, by simp [encodeTap, decodeTap]⟩

theorem scansel : Statement .scansel := fun _ => ⟨fun h => absurd rfl h, by simp [encodeTap, decodeTap]⟩

theorem scanrd : Statement .scanrd := fun _ => ⟨fun h => absurd rfl h, by simp [encodeTap, decodeTap]⟩

theorem freezeNLow : Statement .freezeNLow := event rfl rfl

theorem freezeNHigh : Statement .freezeNHigh := event rfl rfl

theorem frzctlFreeze : Statement .frzctlFreeze := event rfl rfl

theorem freezeEdge : Statement .freezeEdge := event rfl rfl

theorem clockRestart : Statement .clockRestart := event rfl rfl

theorem powerOn : Statement .powerOn := event rfl rfl

theorem transportNLow : Statement .transportNLow := event rfl rfl

theorem preemption : Statement .preemption := event rfl rfl

theorem preemptionComplete : Statement .preemptionComplete := event rfl rfl

theorem contextSwapDone : Statement .contextSwapDone := event rfl rfl

theorem migrationStart : Statement .migrationStart := event rfl rfl

theorem migrationComplete : Statement .migrationComplete := event rfl rfl

theorem holddownExpiry : Statement .holddownExpiry := event rfl rfl

theorem hqNop : Statement .hqNop := event rfl rfl

theorem hqLaunch : Statement .hqLaunch := event rfl rfl

theorem hqEmber : Statement .hqEmber := event rfl rfl

theorem hqSignal : Statement .hqSignal := event rfl rfl

theorem hqWait : Statement .hqWait := event rfl rfl

theorem hearthRestart : Statement .hearthRestart := event rfl rfl

theorem hearthRestartEnd : Statement .hearthRestartEnd := event rfl rfl

theorem partset : Statement .partset := event rfl rfl

theorem ctxnew : Statement .ctxnew := event rfl rfl

theorem ctxfree : Statement .ctxfree := event rfl rfl

theorem ctxswap : Statement .ctxswap := event rfl rfl

theorem migrate : Statement .migrate := event rfl rfl

theorem devnum : Statement .devnum := event rfl rfl

theorem route : Statement .route := event rfl rfl

theorem attest : Statement .attest := event rfl rfl

theorem debugen : Statement .debugen := event rfl rfl

theorem fwload : Statement .fwload := event rfl rfl

theorem streport : Statement .streport := event rfl rfl

theorem transport : Statement .transport := event rfl rfl

theorem supplyDroop : Statement .supplyDroop := event rfl rfl

theorem droopEnd : Statement .droopEnd := event rfl rfl

theorem brownNFall : Statement .brownNFall := event rfl rfl

theorem quiesceComplete : Statement .quiesceComplete := event rfl rfl

theorem brownNRise : Statement .brownNRise := event rfl rfl

theorem powerLoss : Statement .powerLoss := event rfl rfl

end Sys2Proof.Laws.RoundTrip
end

