-- ==== Sys2Proof/Safety.lean ====
section
/-! DEFINITION. What counts as a safe run, one that neither stops with a fault nor is refused, and the words in which the
statements speak of one issue: who issues, which lanes act, what a lane that goes on looks like, what an issue leaves. -/

namespace Sys2Proof

/-- A step that answers a next state. -/
def StepsOn (s : Machine.State) : Prop := ∃ t, Machine.step s = .next t

/-- A state from which the next k steps all answer a next state. -/
def RunsFor (k : Nat) (s : Machine.State) : Prop := ∃ t, core.run k s = .next t

namespace Machine

/-- What an instruction of an issue sees (R9): the state before it, with the issue taken up, and its convergence set without the
lanes that stall for a drain (R56, R79). -/
def issueEnv (i : Instr) (s : State) (iss : Issue) (g : Group) (t : Team) : Env :=
  { s := { s with issue := none }, g, t,
    cs := maskOf ((lanesOf iss.lanes).filter fun j => !(drainLanes i g iss.lanes).contains j), m := iss.len }

/-- A state about to execute an instruction with its fields f, in an issue of a group that passes the checks of R65, has nothing
to wait for (R120, R192), and in which no lane breaches a window under SLA = 1 (R58). Results may be outstanding. -/
structure Sound (i : Instr) (f : Fields) (s : State) (iss : Issue) (g : Group) (t : Team) : Prop where
  issue : s.issue = some iss
  group : s.group? iss.gid = some g
  team : s.team? g.team = some t
  checks : staticFault i (issueEnv i s iss g t) f = []
  free : heldBack i f (issueEnv i s iss g t) = none
  calm : breachLanes i f (issueEnv i s iss g t) = []

/-- Such a state in which every acting lane can name the registers that the instruction uses on it (R89). -/
structure Issues (i : Instr) (f : Fields) (s : State) (iss : Issue) (g : Group) (t : Team) : Prop
    extends Sound i f s iss g t where
  names : ∀ j ∈ actors i f (issueEnv i s iss g t), namesGood i f (issueEnv i s iss g t) j = true

/-- The state on which the body of an instruction acts: the issue taken up, an identity used. -/
def State.taken (s : State) : State := { s with issue := none, ids := s.ids + 1 }

/-! ## Lanes -/

/-- A thread that goes on past an m-word instruction: ready with the stamp of the issue's cycle (R69, R80), or stalled at the
end of a lookahead window (R57). -/
def Lane.onward (l : Lane) (m clk : Nat) : Lane := (l.advance m).settle (clk + 1)

/-- A thread that passes an m-word instruction: its windows count it (R57). -/
def Lane.past (l : Lane) (m clk : Nat) : Lane := l.countDown.onward m clk

/-- A lane whose outstanding results leave places alone that an instruction writes (R58, R120), as far as the write stands against
them. -/
def Env.takeOver (e : Env) (j : Nat) (ps : List Place) (l : Lane) : Lane :=
  l.supersede (ps.filter (e.g.keeps e.s.now (lanesOf e.cs) j))

/-- The places of a list that belong to a lane, and those that the lanes of a group share. -/
def ownOf (ps : List Place) : List Place := ps.filter fun p => !p.isScalar

def sharedOf (ps : List Place) : List Place := ps.filter Place.isScalar

def placesOf (ws : List Write) : List Place := ws.map fun w => w.place

/-! ## Groups -/

/-- A group whose acting lanes take a change go and whose other lanes of the convergence set pass the instruction, after the
outstanding results of every lane have left the s registers that the instruction writes. -/
def Env.movedOver (e : Env) (shared : List Place) (acting : List Nat) (go : Nat → Lane → Lane) (g : Group) : Group :=
  g.mapLanes fun j l =>
    if acting.contains j then go j (e.takeOver j shared l)
    else if e.cs.getLsbD j then (e.takeOver j shared l).past e.m e.s.clk.toNat else e.takeOver j shared l

/-- The same of an instruction that writes no s register. -/
def Env.moved (e : Env) (acting : List Nat) (go : Nat → Lane → Lane) (g : Group) : Group :=
  g.mapLanes fun j l =>
    if acting.contains j then go j l else if e.cs.getLsbD j then l.past e.m e.s.clk.toNat else l

/-- The writes of the lowest acting lane, those of an s register among them standing for all lanes (R9, R120). -/
def leadOfWrites (acting : List Nat) (ws : Nat → List Write) : List Write := (acting.head?.map ws).getD []

/-- A group whose acting lanes take the writes ws and go on; an s register takes those of the lowest acting lane (R9, R120). -/
def Env.wrote (e : Env) (acting : List Nat) (ws : Nat → List Write) (g : Group) : Group :=
  { e.movedOver (sharedOf (placesOf (leadOfWrites acting ws))) acting (fun j l =>
      ((e.takeOver j (ownOf (placesOf (ws j))) l).countDown.putAll e.g.budget (ws j)).onward e.m e.s.clk.toNat) g with
    scalars := putScalars g.scalars (leadOfWrites acting ws) }

/-- A group whose acting lanes change state and go on. -/
def Env.changed (e : Env) (acting : List Nat) (change : Nat → Lane → Lane) (g : Group) : Group :=
  e.moved acting (fun j l => (change j l.countDown).onward e.m e.s.clk.toNat) g

/-- A group whose acting lanes go to a slot of a line, after a change of state. -/
def Env.jumped (e : Env) (acting : List Nat) (target : Nat → DWord) (line : Nat → Line) (change : Nat → Lane → Lane)
    (g : Group) : Group :=
  e.moved acting (fun j l =>
    { change j l.countDown with pc := target j, fetch := .held (line j) }.settle (e.s.clk.toNat + 1)) g

/-- A lane that waits, with a timer or without one (R79, R226): its instruction done but for the wait, or to be executed again. -/
def Lane.waits (l : Lane) (w : Wait) (timer : Option Timer) : Lane :=
  { (if w.again then l else l.countDown) with status := .waiting w, timer := timer }

/-- A group whose acting lanes wait. -/
def Env.waiting (e : Env) (acting : List Nat) (w : Nat → Wait) (timer : Option Timer) (g : Group) : Group :=
  e.moved acting (fun j l => l.waits (w j) timer) g

/-- The outstanding results of an instruction of kind L on lane j (R57), from what it does to each acting lane. -/
def Env.pendingOf (e : Env) (la : Nat) (acting : List Nat) (out : Nat → LaneOut) (j : Nat) : Pending :=
  { id := e.s.ids, places := (ownOf (out j).allPlaces ++ sharedPlaces acting out).eraseDups,
    results := (out j).writes.filter fun w => leadOf acting out == some j || !w.place.isScalar,
    waits := (out j).waits, left := la,
    lead := if (sharedPlaces acting out).isEmpty || leadOf acting out == some j then none else leadOf acting out,
    joint := (out j).joint, sat := (out j).sat }

/-- A lane whose results of an instruction of kind L are outstanding; one without a result goes on (R57). -/
def Env.owes (e : Env) (la : Nat) (acting : List Nat) (out : Nat → LaneOut) (j : Nat) (l : Lane) : Lane :=
  let r := (e.takeOver j (ownOf (out j).allPlaces) l).countDown
  (if (ownOf (out j).allPlaces).isEmpty && (sharedPlaces acting out).isEmpty then r
   else { r with pend := r.pend ++ [(e.pendingOf la acting out j).without fun p => !e.g.keeps e.s.now (lanesOf e.cs) j p] }).onward e.m
    e.s.clk.toNat

/-- A group whose acting lanes await the results of an instruction of kind L; a lane without one goes on. -/
def Env.awaiting (e : Env) (la : Nat) (acting : List Nat) (out : Nat → LaneOut) (g : Group) : Group :=
  e.movedOver (sharedPlaces acting out) acting (e.owes la acting out) g

/-- A group after an issue whose acting lanes each have an outcome of their own: results, a wait, a park, a fault that follows. -/
def Env.gives (e : Env) (i : Instr) (f : Fields) (acting : List Nat) (out : Nat → LaneOut) (g : Group) : Group :=
  let done := acting.filter fun j => (out j).fault.isNone
  Group.issued (e.g.completion (kindOf i) e.s.now e.s.clk.toNat e.s.ids e.m f.la.toNat e.cs done out) e.cs [] done
    (acting.filter fun j => (out j).fault.isSome) out g

/-- A group some of whose lanes stall for a drain before the instruction (R56, R79). -/
def Group.stalling (ls : List Nat) (g : Group) : Group :=
  g.mapLanes fun j l => if ls.contains j then { l with status := .stalled true } else l

/-! ## Issues -/

/-- What an issue leaves: the state r that the instruction's effect outside the lanes gave, with the change of the lanes and
scalars of the issuing group, and nothing else. -/
structure Leaves (r t' : State) (gid : Nat) (change : Group → Group) : Prop where
  group : t'.group? gid = (r.group? gid).map change
  others : ∀ x, x ≠ gid → t'.group? x = r.group? x
  rest : t' = { r with groups := t'.groups }

/-- An instruction of which every issue whose acting lanes meet a condition is executed: exec answers the next state that an effect
outside the lanes, a change of the group, the lanes that stall for a drain, and what follows for other threads give. -/
def CompletesThen (i : Instr) (f : Fields) (holds : Env → List Nat → Prop) (effect : Env → List Nat → State → State)
    (change : Env → List Nat → Group → Group) (post : Env → List Nat → Issue → State → State) : Prop :=
  ∀ s iss g t, Issues i f s iss g t → holds (issueEnv i s iss g t) (actors i f (issueEnv i s iss g t)) →
    ∃ t', exec i s = .next (post (issueEnv i s iss g t) (actors i f (issueEnv i s iss g t)) iss t') ∧
      Leaves (effect (issueEnv i s iss g t) (actors i f (issueEnv i s iss g t)) s.taken) t' iss.gid fun x =>
        (change (issueEnv i s iss g t) (actors i f (issueEnv i s iss g t)) x).stalling (drainLanes i g iss.lanes)

/-- An instruction that completes: in every issue of it whose acting lanes A meet a condition, exec answers the next state that
an effect outside the lanes and a change of the group give. -/
def Completes (i : Instr) (f : Fields) (holds : Env → List Nat → Prop) (effect : Env → List Nat → State → State)
    (change : Env → List Nat → Group → Group) : Prop :=
  CompletesThen i f holds effect change fun _ _ _ t => t

/-- An instruction whose whole effect is to write registers, predicates and the program counter. -/
def Writes (i : Instr) (f : Fields) (ws : Env → Nat → List Write) : Prop :=
  Completes i f (fun _ _ => True) (fun _ _ s => s) fun e acting => e.wrote acting (ws e)

/-- An instruction whose acting lanes each have an outcome of their own: those that fault take their faults, in ascending order,
once the others have completed (R10); something may follow for other threads. -/
def ActsThen (i : Instr) (f : Fields) (holds : Env → List Nat → Prop) (effect : Env → List Nat → State → State)
    (out : Env → List Nat → Nat → LaneOut) (after : Nat → State → State) : Prop :=
  CompletesThen i f holds effect (fun e acting => e.gives i f acting (out e acting)) fun e acting iss t =>
    after iss.gid (t.conclude iss.gid iss [] [] acting (out e acting))

/-- Such an instruction of which nothing follows for other threads. -/
def Acts (i : Instr) (f : Fields) (holds : Env → List Nat → Prop) (effect : Env → List Nat → State → State)
    (out : Env → List Nat → Nat → LaneOut) : Prop :=
  ActsThen i f holds effect out fun _ t => t

end Machine

end Sys2Proof
end

