-- ==== Sys2Proof/Certificates/Slice0/Obligations.lean ====
section
/-! DEFINITION. The statements for the provers. Results are written with the operations of the spec's own tables on the
operands as signed or unsigned numbers; Completes and Writes (Safety) say what an issue leaves, the frame included. -/

open Sys2Proof Sys2Proof.Machine

/-! ## Words in which the integer results are said -/

namespace Sys2Proof.Machine

/-- An instruction that writes to D an operation of Reg(L, A) and Reg(L, B). -/
def WritesAB (i : Instr) (f : Fields) (op : Word → Word → Word) : Prop :=
  Writes i f fun e j => e.setReg j f.d (op (e.reg j f.a) (e.reg j f.b))

/-- An instruction that writes to D an operation of Reg(L, A). -/
def WritesA (i : Instr) (f : Fields) (op : Word → Word) : Prop := Writes i f fun e j => e.setReg j f.d (op (e.reg j f.a))

/-- A number clamped to the signed or the unsigned range of 32 bits (R119). -/
def toSignedRange (z : Int) : Word := BitVec.ofInt 32 (max (-2147483648) (min z 2147483647))

def toUnsignedRange (z : Int) : Word := BitVec.ofInt 32 (max 0 (min z 4294967295))

/-- UInt(b), modulo 32 under .wrap (R123). -/
def amount (f : Fields) (b : Word) : Nat := if f.mod.getLsbD 0 then b.toNat % 32 else b.toNat

/-- A result inverted under .inv (R123). -/
def inverted (f : Fields) (v : Word) : Word := if f.mod.getLsbD 0 then ~~~v else v

/-- Lanes that act one after another, in ascending order. -/
def inOrder (ls : List Nat) (act : Nat → State → State) (s : State) : State := ls.foldl (fun s j => act j s) s

/-- The state before lane j acts, of lanes that act one after another from the state of the issue. -/
def Env.turn (e : Env) (ls : List Nat) (act : Nat → State → State) (j : Nat) : State :=
  inOrder (ls.takeWhile fun k => k != j) act { e.s with ids := e.s.ids + 1 }

/-- A group whose lanes of the convergence set all pass the instruction. -/
def Env.passed (e : Env) (acting : List Nat) : Group → Group := e.changed acting fun _ l => l

/-- What a timed wait writes that is over when it issues (R226): 0 to its predicate. -/
def reports (f : Fields) : List Write := if f.mod.getLsbD 0 then setPred f.d.toNat false else []

/-- The time limit of a wait (R226): 64 · 2^TO cycles from now, with .t. -/
def limit (f : Fields) (s : State) : Option Timer :=
  if f.mod.getLsbD 0 then some { pred := f.d.toNat, deadline := s.clk.toNat + 64 * 2 ^ (f.mod.toNat / 2 % 32) } else none

end Sys2Proof.Machine

/-! ## Integer, predicate and lane instructions (R119 to R137) -/

/-- R123, the short forms: each writes the result of the table to D on every guarded lane. -/
def Obligations.ShortIntegerFormsWriteTheirResults : Prop :=
  ∀ f : Fields,
    WritesAB (.iadd f) f (fun a b => BitVec.ofInt 32 (a.toInt + b.toInt)) ∧
    WritesAB (.isub f) f (fun a b => BitVec.ofInt 32 (a.toInt - b.toInt)) ∧
    WritesAB (.imul f) f (fun a b => BitVec.ofNat 32 (a.toNat * b.toNat)) ∧
    WritesAB (.imulh f) f (fun a b => BitVec.ofInt 32 ((a.toInt * b.toInt) / 2 ^ 32)) ∧
    WritesAB (.and f) f (fun a b => a &&& b) ∧
    WritesAB (.or f) f (fun a b => a ||| b) ∧
    WritesAB (.xor f) f (fun a b => a ^^^ b) ∧
    WritesAB (.andn f) f (fun a b => a &&& ~~~b) ∧
    WritesAB (.shl f) f (fun a b => BitVec.ofNat 32 (a.toNat * 2 ^ b.toNat)) ∧
    WritesAB (.shr f) f (fun a b => BitVec.ofNat 32 (a.toNat / 2 ^ b.toNat)) ∧
    WritesAB (.shra f) f (fun a b => BitVec.ofInt 32 (a.toInt / 2 ^ b.toNat)) ∧
    WritesAB (.imin f) f (fun a b => BitVec.ofInt 32 (min a.toInt b.toInt)) ∧
    WritesAB (.imax f) f (fun a b => BitVec.ofInt 32 (max a.toInt b.toInt)) ∧
    WritesA (.mov f) f (fun a => a) ∧
    WritesA (.popc f) f (fun a => BitVec.ofNat 32 ((List.range 32).filter fun i => a.getLsbD i).length)

/-- R123, the long forms, with the modifiers of the MOD column. -/
def Obligations.LongIntegerFormsWriteTheirResults : Prop :=
  ∀ f : Fields,
    (f.mod = 0 → WritesAB (.iaddLong f) f (fun a b => BitVec.ofInt 32 (a.toInt + b.toInt)) ∧
      WritesAB (.isubLong f) f (fun a b => BitVec.ofInt 32 (a.toInt - b.toInt))) ∧
    (f.mod = 1 → WritesAB (.iaddLong f) f (fun a b => toSignedRange (a.toInt + b.toInt)) ∧
      WritesAB (.isubLong f) f (fun a b => toSignedRange (a.toInt - b.toInt))) ∧
    (f.mod = 2 → WritesAB (.iaddLong f) f (fun a b => toUnsignedRange ((a.toNat : Int) + b.toNat)) ∧
      WritesAB (.isubLong f) f (fun a b => toUnsignedRange ((a.toNat : Int) - b.toNat))) ∧
    WritesAB (.imulLong f) f (fun a b => BitVec.ofNat 32 (a.toNat * b.toNat)) ∧
    WritesAB (.imulhLong f) f (fun a b =>
      if f.mod.getLsbD 0 then BitVec.ofNat 32 (a.toNat * b.toNat / 2 ^ 32) else BitVec.ofInt 32 ((a.toInt * b.toInt) / 2 ^ 32)) ∧
    WritesAB (.andLong f) f (fun a b => inverted f (a &&& b)) ∧
    WritesAB (.orLong f) f (fun a b => inverted f (a ||| b)) ∧
    WritesAB (.xorLong f) f (fun a b => inverted f (a ^^^ b)) ∧
    WritesAB (.andnLong f) f (fun a b => inverted f (a &&& ~~~b)) ∧
    WritesAB (.shlLong f) f (fun a b => BitVec.ofNat 32 (a.toNat * 2 ^ amount f b)) ∧
    WritesAB (.shrLong f) f (fun a b => BitVec.ofNat 32 (a.toNat / 2 ^ amount f b)) ∧
    WritesAB (.shraLong f) f (fun a b => BitVec.ofInt 32 (a.toInt / 2 ^ amount f b)) ∧
    WritesAB (.iminLong f) f (fun a b =>
      if f.mod.getLsbD 0 then BitVec.ofNat 32 (min a.toNat b.toNat) else BitVec.ofInt 32 (min a.toInt b.toInt)) ∧
    WritesAB (.imaxLong f) f (fun a b =>
      if f.mod.getLsbD 0 then BitVec.ofNat 32 (max a.toNat b.toNat) else BitVec.ofInt 32 (max a.toInt b.toInt)) ∧
    WritesA (.movLong f) f (fun a => a) ∧
    WritesA (.popcLong f) f (fun a => BitVec.ofNat 32 ((List.range 32).filter fun i => a.getLsbD i).length)

/-- R38, R63, R115: SEL writes a on the guarded lanes and b on the other lanes of the convergence set; NOP only moves the
program counter, on every lane of the convergence set. -/
def Sys2Proof.Machine.SelectAndNop : Prop :=
  (∀ f : Fields, Writes (.sel f) f fun e j => e.setReg j f.d (if j ∈ e.guarded f then e.reg j f.a else e.reg j f.b)) ∧
  (∀ f : Fields, Writes (.selLong f) f fun e j => e.setReg j f.d (if j ∈ e.guarded f then e.reg j f.a else e.reg j f.b)) ∧
  Writes .nop ⟨false, 0, false, 0, 0, 0, 0, 0, 0, 0, 0⟩ (fun _ _ => []) ∧
  ∀ f : Fields, Writes (.nopLong f) f fun _ _ => []

/-- R124 to R127: immediates, multiply-add, address formation, and the carry and borrow chains. -/
def Sys2Proof.Machine.ImmediatesMultiplyAddAndCarries : Prop :=
  ∀ f : Fields,
    WritesA (.iaddi f) f (fun a => BitVec.ofInt 32 (a.toInt + f.imm.toInt)) ∧
    WritesA (.movi f) f (fun _ => f.imm) ∧
    Writes (.imad f) f (fun e j => e.setReg j f.d
      (BitVec.ofNat 32 ((e.reg j f.a).toNat * (e.reg j f.b).toNat + (e.reg j f.c).toNat))) ∧
    Writes (.imadw f) f (fun e j => e.setPair j f.d
      (if f.mod.getLsbD 0 then BitVec.ofNat 64 ((e.reg j f.a).toNat * (e.reg j f.b).toNat + (e.pair j f.c).toNat)
       else BitVec.ofInt 64 ((e.reg j f.a).toInt * (e.reg j f.b).toInt + (e.pair j f.c).toInt))) ∧
    Writes (.lea f) f (fun e j => e.setPair j f.d
      (BitVec.ofInt 64 ((e.pair j f.a).toNat +
        (if f.mod.getLsbD 3 then ((e.reg j f.b).toNat : Int) else (e.reg j f.b).toInt) * 2 ^ (f.mod.toNat % 8)))) ∧
    Writes (.iaddc f) f (fun e j =>
      let v := (e.reg j f.a).toNat + (e.reg j f.b).toNat + (if !f.mod.getLsbD 0 && e.pred j f.c.toNat then 1 else 0)
      setPred f.c.toNat (decide (2 ^ 32 ≤ v)) ++ e.setReg j f.d (BitVec.ofNat 32 v)) ∧
    Writes (.isubb f) f (fun e j =>
      let v : Int := (e.reg j f.a).toNat - (e.reg j f.b).toNat - (if !f.mod.getLsbD 0 && e.pred j f.c.toNat then 1 else 0)
      setPred f.c.toNat (decide (v < 0)) ++ e.setReg j f.d (BitVec.ofInt 32 v))

/-- R38, R63, R115, R123 to R127: SEL and NOP, and the immediate, multiply-add and carry forms. -/
def Obligations.SelectNopAndImmediates : Prop := Sys2Proof.Machine.SelectAndNop ∧
  Sys2Proof.Machine.ImmediatesMultiplyAddAndCarries

/-- R128 and R129: unary forms, rotation and bit fields. -/
def Obligations.UnaryAndBitFields : Prop :=
  ∀ f : Fields,
    WritesA (.ineg f) f (fun a => if f.mod.getLsbD 0 then toSignedRange (-a.toInt) else BitVec.ofInt 32 (-a.toInt)) ∧
    WritesA (.iabs f) f (fun a =>
      if f.mod.getLsbD 0 then toSignedRange (max a.toInt (-a.toInt)) else BitVec.ofInt 32 (max a.toInt (-a.toInt))) ∧
    WritesAB (.rot f) f (fun a b =>
      let k := b.toNat % 32
      if f.mod.getLsbD 0 then (a >>> k) ||| (a <<< (32 - k)) else (a <<< k) ||| (a >>> (32 - k))) ∧
    WritesA (.clz f) f (fun a => if a = 0 then 32 else BitVec.ofNat 32 (31 - a.toNat.log2)) ∧
    WritesA (.brev f) f (fun a => a.reverse) ∧
    WritesAB (.bfe f) f (fun a c =>
      let p := min (c.toNat % 256) 32
      let w := min (c.toNat / 256 % 256) 32
      let x := a.toNat / 2 ^ p % 2 ^ w
      if f.mod.getLsbD 0 ∧ 1 ≤ w ∧ 2 ^ (w - 1) ≤ x then BitVec.ofInt 32 ((x : Int) - 2 ^ w) else BitVec.ofNat 32 x) ∧
    Writes (.bfi f) f (fun e j =>
      let c := e.reg j f.b
      let p := min (c.toNat % 256) 32
      let m := BitVec.ofNat 32 (2 ^ min (c.toNat / 256 % 256) 32 - 1)
      e.setReg j f.d ((e.reg j f.c &&& ~~~(m <<< p)) ||| ((e.reg j f.a &&& m) <<< p)))

namespace Sys2Proof.Machine

/-- MOD[2:0] as a relation mask, on numbers (R130). -/
def maskHolds (f : Fields) (p q : Int) : Bool :=
  (f.mod.getLsbD 0 && decide (p < q)) || (f.mod.getLsbD 1 && decide (p = q)) || (f.mod.getLsbD 2 && decide (q < p))

/-- MOD[5:4]: the comparison alone, or combined with a predicate by AND, OR or XOR (R130). -/
def combined (f : Fields) (t p : Bool) : Bool :=
  if f.mod.getLsbD 5 then (if f.mod.getLsbD 4 then t ^^ p else t || p) else if f.mod.getLsbD 4 then t && p else t

/-- The comparison of two words as the form reads them (R130). -/
def compares (f : Fields) (x y : Word) : Bool :=
  if f.mod.getLsbD 3 then maskHolds f x.toNat y.toNat else maskHolds f x.toInt y.toInt

end Sys2Proof.Machine

/-- R130 to R132: comparisons into a predicate, functions of three predicates, and the moves of whole predicate sets. -/
def Obligations.ComparisonsAndPredicates : Prop :=
  ∀ f : Fields,
    Writes (.icmp f) f (fun e j =>
      setPred f.d.toNat (combined f (compares f (e.reg j f.a) (e.reg j f.b)) (e.pred j f.c.toNat))) ∧
    Writes (.icmpi f) f (fun e j =>
      setPred f.d.toNat (combined f (compares f (e.reg j f.a) f.imm) (e.pred j f.c.toNat))) ∧
    Writes (.pfun f) f (fun e j =>
      let k := (if e.pred j f.a.toNat then 2 else 0) + (if e.pred j f.b.toNat then 1 else 0)
      setPred f.d.toNat (if e.pred j f.c.toNat then f.mod.getLsbD (4 + k) else f.mod.getLsbD k)) ∧
    (f.mod = 0 → Writes (.pmov f) f fun e j =>
      e.setReg j f.d (BitVec.ofNat 32 (((List.range 16).map fun k => if e.pred j k then 2 ^ k else 0).sum))) ∧
    (f.mod = 1 → Writes (.pmov f) f fun e j =>
      (List.range 16).flatMap fun k =>
        if (e.reg j f.b).getLsbD k then setPred k ((e.reg j f.a).getLsbD k) else [])

namespace Sys2Proof.Machine

/-- The participants on which predicate p is set, as bits of a word (R134). -/
def ballotOf (e : Env) (ls : List Nat) (p : Nat) : Word :=
  BitVec.ofNat 32 ((List.range 32).map fun j => if j ∈ ls ∧ e.pred j p then 2 ^ j else 0).sum

/-- The lane LXCH reads (R135): in the segment of width w that holds lane j, by the mode and the count. -/
def exchangeLane (mode w j : Nat) (c : Word) : Option Nat :=
  let base := j - j % w
  match mode with
  | 0 => some (base + c.toNat % w)
  | 1 => some (base + (j % w + c.toNat) % w)
  | 2 => ((List.range w).map fun i => base + i).find? fun k => decide ((k : Int) = j + c.toInt)
  | _ => some (base + ((j % w) ^^^ (c.toNat % w)))

/-- REDG's operator on two words (R137). -/
def reduces (op : Nat) (a b : Word) : Word :=
  match op with
  | 0 => BitVec.ofNat 32 (a.toNat + b.toNat)
  | 1 => BitVec.ofInt 32 (min a.toInt b.toInt)
  | 2 => BitVec.ofInt 32 (max a.toInt b.toInt)
  | 3 => BitVec.ofNat 32 (min a.toNat b.toNat)
  | 4 => BitVec.ofNat 32 (max a.toNat b.toNat)
  | 5 => a &&& b
  | 6 => a ||| b
  | _ => a ^^^ b

/-- The identity of the operator (R137). -/
def reduceIdentity (op : Nat) : Word := #[0#32, 0x7FFFFFFF#32, 0x80000000#32, 0xFFFFFFFF#32, 0#32, 0xFFFFFFFF#32, 0#32, 0#32].getD op 0

end Sys2Proof.Machine

/-- R134: VOTE's modes 0 to 3 and 5, with the participants the guarded lanes; mode 4 changes the participants' own bits of the
mask, followed by the release evaluation of R85. -/
def Sys2Proof.Machine.VoteCombinesThePredicate : Prop :=
  ∀ f : Fields,
    (f.mod = 0 → Completes (.vote f) f (fun _ _ => True) (fun _ _ s => s) fun e ls =>
      e.wrote ls fun j => e.setReg j f.d (ballotOf e ls f.a.toNat)) ∧
    (f.mod = 1 → Completes (.vote f) f (fun _ _ => True) (fun _ _ s => s) fun e ls =>
      e.wrote ls fun _ => setPred f.d.toNat (decide (∀ j ∈ ls, e.pred j f.a.toNat = true))) ∧
    (f.mod = 2 → Completes (.vote f) f (fun _ _ => True) (fun _ _ s => s) fun e ls =>
      e.wrote ls fun _ => setPred f.d.toNat (decide (∃ j ∈ ls, e.pred j f.a.toNat = true))) ∧
    (f.mod = 3 → Completes (.vote f) f (fun _ _ => True) (fun _ _ s => s) fun e ls =>
      e.wrote ls fun _ => setPred f.d.toNat (decide (∀ j ∈ ls, ∀ k ∈ ls, e.pred j f.a.toNat = e.pred k f.a.toNat))) ∧
    (f.mod = 4 → Completes (.vote f) f (fun _ ls => ls ≠ [])
      (fun e ls s => s.mapGroup e.g.id fun g =>
        (g.setMask f.d.toNat ((g.mask f.d.toNat &&& ~~~(maskOf ls)) ||| ballotOf e ls f.a.toNat)).releaseMask f.d.toNat s.clk.toNat)
      fun e ls => e.changed ls fun _ l => l) ∧
    (f.mod = 5 → Completes (.vote f) f (fun _ _ => True) (fun _ _ s => s) fun e ls =>
      e.wrote ls fun j => e.setReg j f.d (e.g.mask f.a.toNat))

/-- R135 to R137: LXCH, BCAST and REDG give each participant values of the participants. -/
def Sys2Proof.Machine.LaneOperations : Prop :=
  ∀ f : Fields,
    Completes (.lxch f) f (fun _ _ => True) (fun _ _ s => s) (fun e ls => e.wrote ls fun j =>
      let source := (exchangeLane (f.mod.toNat % 4) (32 >>> (f.mod.toNat / 4 % 8)) j (e.reg j f.b)).filter fun k => decide (k ∈ ls)
      e.setReg j f.d (e.reg (source.getD j) f.a)) ∧
    (f.mod = 0 → Completes (.bcast f) f (fun _ _ => True) (fun _ _ s => s) fun e ls => e.wrote ls fun j =>
      let k := (e.reg (ls.headD 0) f.b).toNat % 32
      e.setReg j f.d (if k ∈ ls then e.reg k f.a else 0)) ∧
    (f.mod = 1 → Completes (.bcast f) f (fun _ _ => True) (fun _ _ s => s) fun e ls => e.wrote ls fun j =>
      e.setReg j f.d (e.reg (ls.headD 0) f.a)) ∧
    Completes (.redg f) f (fun _ _ => True) (fun _ _ s => s) (fun e ls => e.wrote ls fun j =>
      let covered := if f.mod.toNat / 8 % 4 = 1 then ls.filter (fun k => decide (k ≤ j))
        else if f.mod.toNat / 8 % 4 = 2 then ls.filter (fun k => decide (k < j)) else ls
      e.setReg j f.d ((covered.map fun k => e.reg k f.a).foldr (reduces (f.mod.toNat % 8)) (reduceIdentity (f.mod.toNat % 8))))

/-- R133 to R137: VOTE over the guarded lanes, and the exchanges, broadcasts and reductions between lanes. -/
def Obligations.VotesAndLaneOperations : Prop := Sys2Proof.Machine.VoteCombinesThePredicate ∧
  Sys2Proof.Machine.LaneOperations

/-! ## Floats and conversions (R138 to R162) -/

namespace Sys2Proof.Machine

/-- An instruction of kind L whose results, known at issue, are outstanding until they arrive (R57). -/
def Owes (i : Instr) (f : Fields) (ws : Env → Nat → List Write) : Prop :=
  Completes i f (fun _ _ => True) (fun _ _ s => s) fun e ls => e.awaiting f.la.toNat ls fun j => { writes := ws e j }

/-- The code of an operation under a mode (R140, R141): the first NaN of the operands, as they are after negation, stands for
the result; otherwise the exact value is rounded once. -/
def floatResult (ft : FloatFormat) (m : FpMode) (codes : List Nat) (exact : List Value → Value) : Nat :=
  let ins := codes.map fun c => ft.flushIn m.fiz c
  match ins.find? ft.isNan with
  | some c => nanFrom m.cnan ft ft c
  | none => ft.encode m (exact (ins.map ft.decode))

/-- Addition, subtraction and multiplication of two decoded operands. -/
def adds (m : FpMode) (vs : List Value) : Value := (vs.getD 0 .nan).add m.rm (vs.getD 1 .nan)

def subtracts (m : FpMode) (vs : List Value) : Value := (vs.getD 0 .nan).add m.rm (vs.getD 1 .nan).neg

def multiplies (_ : FpMode) (vs : List Value) : Value := (vs.getD 0 .nan).mul (vs.getD 1 .nan)

/-- The fused forms (R146): the product, negated under .np, plus the third operand, rounded once. -/
def fuses (f : Fields) (m : FpMode) (vs : List Value) : Value :=
  let p := (vs.getD 0 .nan).mul (vs.getD 1 .nan)
  (if f.mod.getLsbD 3 then p.neg else p).add m.rm (vs.getD 2 .nan)

/-- The operand codes a and b under .na and .nb, and a, b, c under .nc. -/
def operandsAB (f : Fields) (ft : FloatFormat) (a b : Nat) : List Nat :=
  [ft.flip (f.mod.getLsbD 3) a, ft.flip (f.mod.getLsbD 4) b]

def operandsABC (f : Fields) (ft : FloatFormat) (a b c : Nat) : List Nat := [a, b, ft.flip (f.mod.getLsbD 4) c]

/-- The mode of a lane under the rounding override of MOD[2:0] (R140). -/
def modeOf (f : Fields) (e : Env) (j : Nat) : FpMode := e.fpMode j (f.mod.toNat % 8)

/-- An FP32 operation of A and B, one on both F16 halves, and one on FP64 pairs. -/
def WritesFloat (i : Instr) (f : Fields) (op : FpMode → List Value → Value) : Prop :=
  Writes i f fun e j => e.setReg j f.d (BitVec.ofNat 32
    (floatResult f32 (modeOf f e j) (operandsAB f f32 (e.reg j f.a).toNat (e.reg j f.b).toNat) (op (modeOf f e j))))

def WritesHalves (i : Instr) (f : Fields) (op : FpMode → List Value → Value) : Prop :=
  Writes i f fun e j =>
    let code (n : BitVec 7) (h : Nat) : Nat := (e.reg j n).toNat / 2 ^ (16 * h) % 2 ^ 16
    let r (h : Nat) : Nat := floatResult f16 (modeOf f e j) (operandsAB f f16 (code f.a h) (code f.b h)) (op (modeOf f e j))
    e.setReg j f.d (BitVec.ofNat 32 (r 0 + 2 ^ 16 * r 1))

def WritesDouble (i : Instr) (f : Fields) (op : FpMode → List Value → Value) : Prop :=
  Writes i f fun e j => e.setPair j f.d (BitVec.ofNat 64
    (floatResult f64 (modeOf f e j) (operandsAB f f64 (e.pair j f.a).toNat (e.pair j f.b).toNat) (op (modeOf f e j))))

end Sys2Proof.Machine

/-- R144, R146: additions, subtractions, multiplications and fused forms, in the short forms with MOD = 0. That .nc of a fused form turns the
sign of a NaN addend too is log 45 (DEDUCED), the model's choice. -/
def Obligations.FloatArithmetic : Prop :=
  ∀ f : Fields,
    WritesFloat (.fadd f) f adds ∧ WritesFloat (.faddLong f) f adds ∧
    WritesFloat (.fsub f) f subtracts ∧ WritesFloat (.fsubLong f) f subtracts ∧
    WritesFloat (.fmul f) f multiplies ∧ WritesFloat (.fmulLong f) f multiplies ∧
    WritesHalves (.hadd2 f) f adds ∧ WritesHalves (.hadd2Long f) f adds ∧
    WritesHalves (.hmul2 f) f multiplies ∧ WritesHalves (.hmul2Long f) f multiplies ∧
    WritesDouble (.dadd f) f adds ∧ WritesDouble (.dmul f) f multiplies ∧
    Writes (.ffma f) f (fun e j => e.setReg j f.d (BitVec.ofNat 32 (floatResult f32 (modeOf f e j)
      (operandsABC f f32 (e.reg j f.a).toNat (e.reg j f.b).toNat (e.reg j f.c).toNat) (fuses f (modeOf f e j))))) ∧
    Writes (.dfma f) f (fun e j => e.setPair j f.d (BitVec.ofNat 64 (floatResult f64 (modeOf f e j)
      (operandsABC f f64 (e.pair j f.a).toNat (e.pair j f.b).toNat (e.pair j f.c).toNat) (fuses f (modeOf f e j))))) ∧
    ∀ ft i, (ft = f16 ∧ i = .hfma2 f ∨ ft = bf16 ∧ i = .bfma2 f) → Writes i f fun e j =>
      let code (n : BitVec 7) (h : Nat) : Nat := (e.reg j n).toNat / 2 ^ (16 * h) % 2 ^ 16
      let r (h : Nat) : Nat := floatResult ft (modeOf f e j) (operandsABC f ft (code f.a h) (code f.b h) (code f.c h))
        (fuses f (modeOf f e j))
      e.setReg j f.d (BitVec.ofNat 32 (r 0 + 2 ^ 16 * r 1))

namespace Sys2Proof.Machine

/-- Two finite fractions of positive denominators stand for the same number. -/
def sameNumber (s : Bool) (a b : Nat) (num : Int) (den : Nat) : Prop := 0 < b ∧ signed s a * (den : Int) = num * (b : Int)

/-- The magnitude of a code of finite value, as a fraction of 2^1100 so that every format's values are whole (R155). -/
def scaled (ft : FloatFormat) (m : Nat) : Nat :=
  if m / 2 ^ ft.frac = 0 then m * 2 ^ (1101 - ft.bias - ft.frac)
  else (2 ^ ft.frac + m % 2 ^ ft.frac) * 2 ^ (m / 2 ^ ft.frac + 1100 - ft.bias - ft.frac)

/-- The distance of num / den from the scaled magnitude of a code, times den. -/
def distance (ft : FloatFormat) (num den m : Nat) : Int := ((num * 2 ^ 1100 : Nat) : Int) - ((scaled ft m * den : Nat) : Int)

end Sys2Proof.Machine

/-- R11, R144: sums and products of finite values are exact before the single rounding, and the sign of an exact zero of
operands of opposite sign is - under RDN and + under the other modes (R140). -/
def Obligations.SumsAndProductsAreExact : Prop :=
  ∀ (r : Rounding) (s t : Bool) (a b c d : Nat), 0 < b → 0 < d →
    (∃ u n k, Value.add r (.fin s a b) (.fin t c d) = .fin u n k ∧
      sameNumber u n k (signed s a * d + signed t c * b) (b * d) ∧
      (signed s a * d + signed t c * b = 0 → u = if s = t then s else decide (r = .rdn))) ∧
    (∃ u n k, Value.mul (.fin s a b) (.fin t c d) = .fin u n k ∧
      sameNumber u n k (signed s a * signed t c) (b * d) ∧ u = (s != t))

/-- R11, R140: rounding to nearest. Where the magnitude num / den does not round beyond the largest finite one, no finite code
of the format is nearer than the result, and where another is as near, the result is the even one. -/
def Sys2Proof.Machine.RoundingGoesToTheNearest : Prop :=
  ∀ ft : FloatFormat, ft = f32 ∨ ft = f64 ∨ ft = f16 ∨ ft = bf16 → ∀ (neg : Bool) (num den : Nat), 0 < den →
    num * 2 ^ 1100 ≤ scaled ft ft.maxCode * den →
    ∃ m, ft.round .rne neg num den = ft.withSign neg m ∧ m ≤ ft.maxCode ∧
      ∀ k, k ≤ ft.maxCode → (distance ft num den m).natAbs ≤ (distance ft num den k).natAbs ∧
        ((distance ft num den m).natAbs = (distance ft num den k).natAbs → k ≠ m → m % 2 = 0)

/-- R11, R140: the directed modes. The rounded magnitude is the greatest code not above the exact one toward zero, the least
not below it away from zero. -/
def Sys2Proof.Machine.DirectedRounding : Prop :=
  ∀ ft : FloatFormat, ft = f32 ∨ ft = f64 ∨ ft = f16 ∨ ft = bf16 → ∀ (r : Rounding) (neg : Bool) (num den : Nat), 0 < den →
    num * 2 ^ 1100 ≤ scaled ft ft.maxCode * den →
    ((r = .rtz ∨ r = .rup ∧ neg = true ∨ r = .rdn ∧ neg = false) →
      ∃ m, ft.round r neg num den = ft.withSign neg m ∧ m ≤ ft.maxCode ∧ 0 ≤ distance ft num den m ∧
        ∀ k, k ≤ ft.maxCode → 0 ≤ distance ft num den k → k ≤ m) ∧
    ((r = .rup ∧ neg = false ∨ r = .rdn ∧ neg = true) →
      ∃ m, ft.round r neg num den = ft.withSign neg m ∧ m ≤ ft.maxCode ∧ distance ft num den m ≤ 0 ∧
        ∀ k, k ≤ ft.maxCode → distance ft num den k ≤ 0 → m ≤ k)

/-- R11, R140: a magnitude above the largest finite one. To nearest it becomes an infinity from the middle between that one and the
next code on, and the largest finite value below; of the directed modes those away from zero give an infinity. -/
def Sys2Proof.Machine.OverflowFollowsTheMode : Prop :=
  ∀ ft : FloatFormat, ft = f32 ∨ ft = f64 ∨ ft = f16 ∨ ft = bf16 → ∀ (r : Rounding) (neg : Bool) (num den : Nat), 0 < den →
    scaled ft ft.maxCode * den < num * 2 ^ 1100 →
    ft.round r neg num den = ft.withSign neg (
      if (r = .rne ∧ (scaled ft ft.maxCode + scaled ft (ft.maxCode + 1)) * den ≤ 2 * num * 2 ^ 1100) ∨
          (r = .rup ∧ neg = false) ∨ (r = .rdn ∧ neg = true) then ft.maxCode + 1 else ft.maxCode) ∧
    ft.infCode = ft.maxCode + 1

/-- R11, R140: rounding to nearest, ties to even, the directed roundings, and a magnitude beyond the largest finite one. -/
def Obligations.RoundingFollowsTheMode : Prop := Sys2Proof.Machine.RoundingGoesToTheNearest ∧
  Sys2Proof.Machine.DirectedRounding ∧
  Sys2Proof.Machine.OverflowFollowsTheMode

namespace Sys2Proof.Machine

/-- The minimum or the maximum of two codes of a format (R145): a NaN is missing, or gives the NaN result where it is asked for; -0 is
below +0. -/
def extremeOf (ft : FloatFormat) (m : FpMode) (greatest propagate : Bool) (x y : Nat) : Nat :=
  let a := ft.flushIn m.fiz x
  let b := ft.flushIn m.fiz y
  let below (x y : Nat) : Bool := (ft.decode x).less (ft.decode y) ||
    (!(ft.decode y).less (ft.decode x) && ft.sign x && !ft.sign y)
  if ft.isNan a ∧ (propagate ∨ ft.isNan b) then nanFrom m.cnan ft ft a
  else if ft.isNan b ∧ propagate then nanFrom m.cnan ft ft b
  else if ft.isNan a then b else if ft.isNan b then a
  else if greatest then (if below a b then b else a) else if below b a then b else a

end Sys2Proof.Machine

/-- R145, R147: minimum, maximum and comparisons of floats. -/
def Obligations.FloatExtremesAndComparisons : Prop :=
  ∀ f : Fields,
    (∀ (i : Instr) (greatest : Bool),
      ((i = .fmin f ∨ i = .fminLong f) ∧ greatest = false) ∨ ((i = .fmax f ∨ i = .fmaxLong f) ∧ greatest = true) →
      Writes i f fun e j => e.setReg j f.d (BitVec.ofNat 32
        (extremeOf f32 (e.fpMode j 0) greatest (f.mod.getLsbD 0) (e.reg j f.a).toNat (e.reg j f.b).toNat))) ∧
    Writes (.fcmp f) f (fun e j =>
      let x := f32.decode (f32.flushIn (e.g.lane j).fiz (e.reg j f.a).toNat)
      let y := f32.decode (f32.flushIn (e.g.lane j).fiz (e.reg j f.b).toNat)
      let r := if x = .nan ∨ y = .nan then 3 else if x.less y then 0 else if y.less x then 2 else 1
      setPred f.d.toNat (combined f (f.mod.getLsbD r) (e.pred j f.c.toNat))) ∧
    Writes (.dcmp f) f (fun e j =>
      let x := f64.decode (f64.flushIn (e.g.lane j).fiz (e.pair j f.a).toNat)
      let y := f64.decode (f64.flushIn (e.g.lane j).fiz (e.pair j f.b).toNat)
      let r := if x = .nan ∨ y = .nan then 3 else if x.less y then 0 else if y.less x then 2 else 1
      setPred f.d.toNat (combined f (f.mod.getLsbD r) (e.pred j f.c.toNat)))

namespace Sys2Proof.Machine

/-- A mode without flushing and without canonical NaNs. -/
def plainMode : FpMode := { cnan := false, foz := false, fiz := false, rm := .rne }

end Sys2Proof.Machine

/-- R148: FRCP, FSQRT, FRSQ, FEX2, FLG2, FSINP and FCOSP each complete, and owe their result, formed under round to nearest whatever
RM is. -/
def Sys2Proof.Machine.TranscendentalsOweTheirResults : Prop :=
  ∀ f : Fields,
    let result (fn : Nat) (e : Env) (j : Nat) : List Write :=
      e.setReg j f.d (BitVec.ofNat 32 (transcendental fn
        { cnan := (e.g.lane j).cnan, foz := (e.g.lane j).foz, fiz := (e.g.lane j).fiz, rm := .rne } (e.reg j f.a)))
    Owes (.frcp f) f (result 0) ∧ Owes (.fsqrt f) f (result 1) ∧ Owes (.frsq f) f (result 2) ∧ Owes (.fex2 f) f (result 3) ∧
    Owes (.flg2 f) f (result 4) ∧ Owes (.fsinp f) f (result 5) ∧ Owes (.fcosp f) f (result 6)

/-- R148, the table of special results: zeros, infinities, negative arguments, and the canonical NaN. -/
def Sys2Proof.Machine.TranscendentalSpecialResults : Prop :=
  transcendental 0 plainMode 0 = 0x7F800000 ∧ transcendental 0 plainMode 0x80000000 = 0xFF800000 ∧
  transcendental 0 plainMode 0x7F800000 = 0 ∧ transcendental 0 plainMode 0xFF800000 = 0x80000000 ∧
  transcendental 1 plainMode 0x80000000 = 0x80000000 ∧ transcendental 1 plainMode 0x7F800000 = 0x7F800000 ∧
  transcendental 2 plainMode 0 = 0x7F800000 ∧ transcendental 2 plainMode 0x80000000 = 0xFF800000 ∧
  transcendental 2 plainMode 0x7F800000 = 0 ∧
  transcendental 3 plainMode 0xFF800000 = 0 ∧ transcendental 3 plainMode 0x7F800000 = 0x7F800000 ∧
  transcendental 4 plainMode 0 = 0xFF800000 ∧ transcendental 4 plainMode 0x80000000 = 0xFF800000 ∧
  transcendental 3 plainMode 0 = 0x3F800000 ∧ transcendental 3 plainMode 0x80000000 = 0x3F800000 ∧
  transcendental 4 plainMode 0x3F800000 = 0 ∧ transcendental 4 plainMode 0x7F800000 = 0x7F800000 ∧
  transcendental 5 plainMode 0x7F800000 = 0x7FC00000 ∧ transcendental 5 plainMode 0xFF800000 = 0x7FC00000 ∧
  transcendental 5 plainMode 0 = 0 ∧ transcendental 5 plainMode 0x80000000 = 0x80000000 ∧
  transcendental 5 plainMode 0x3F800000 = 0 ∧ transcendental 5 plainMode 0xBF800000 = 0x80000000 ∧
  transcendental 6 plainMode 0x7F800000 = 0x7FC00000 ∧ transcendental 6 plainMode 0xFF800000 = 0x7FC00000 ∧
  transcendental 6 plainMode 0x3F000000 = 0 ∧ transcendental 6 plainMode 0xBF000000 = 0 ∧
  transcendental 6 plainMode 0 = 0x3F800000 ∧ transcendental 6 plainMode 0x80000000 = 0x3F800000 ∧
  ∀ fn, fn = 1 ∨ fn = 2 ∨ fn = 4 → ∀ a : Word, 0x80000000 < a.toNat ∧ a.toNat ≤ 0xFF800000 →
    transcendental fn plainMode a = 0x7FC00000

/-- R148, the table for whole classes of arguments x / y, positive or negative, of a mode m without flushing: FRCP is the quotient
rounded to nearest; FEX2 of an integer from -149 to 127 is exact, and above 128 it is an infinity; FLG2 of a power of two is its
exponent; FSINP of a nonzero integer is a zero of its sign; FCOSP is +0 where a + 1/2 is an integer, and 1 or -1 at an integer by its
parity. A NaN gives the NaN of R141. -/
def Sys2Proof.Machine.TranscendentalTable : Prop :=
  ∀ (m : FpMode) (a : Word) (neg : Bool) (x y : Nat), m.fiz = false → m.foz = false →
    (f32.isNan a.toNat = true → ∀ fn, fn < 7 → transcendental fn m a = nanFrom m.cnan f32 f32 a.toNat) ∧
    (f32.decode a.toNat = .fin neg x y → x ≠ 0 →
      transcendental 0 m a = f32.round .rne neg y x ∧
      (∀ k, x = k * y → neg = false → k ≤ 127 → transcendental 3 m a = (127 + k) * 2 ^ 23) ∧
      (∀ k, x = k * y → neg = true → k ≤ 126 → transcendental 3 m a = (127 - k) * 2 ^ 23) ∧
      (∀ k, x = k * y → neg = true → 127 ≤ k → k ≤ 149 → transcendental 3 m a = 2 ^ (149 - k)) ∧
      (neg = false → 128 * y < x → transcendental 3 m a = 0x7F800000) ∧
      (∀ k, neg = false → x = 2 ^ k * y → 0 < k → ∃ p q, f32.decode (transcendental 4 m a) = .fin false p q ∧ p = k * q ∧ 0 < q) ∧
      (∀ k, neg = false → y = 2 ^ k * x → 0 < k → ∃ p q, f32.decode (transcendental 4 m a) = .fin true p q ∧ p = k * q ∧ 0 < q) ∧
      (x % y = 0 → transcendental 5 m a = f32.withSign neg 0) ∧
      ((2 * x + y) % (2 * y) = 0 → transcendental 6 m a = 0) ∧
      (x % y = 0 → transcendental 6 m a = if x / y % 2 = 0 then 0x3F800000 else 0xBF800000))

/-- R148: the transcendental instructions owe their results, and the special results of the table. -/
def Obligations.Transcendentals : Prop := Sys2Proof.Machine.TranscendentalsOweTheirResults ∧
  Sys2Proof.Machine.TranscendentalSpecialResults ∧
  Sys2Proof.Machine.TranscendentalTable

namespace Sys2Proof.Machine

/-- The float formats of R155. -/
def floatFormats : List FloatFormat := [f32, bf16, f16, e5m2, e4m3, e3m2, e2m3, e2m1, f64]

/-- CVTW's pack of one FP32 word (R152): the code in the half format, and whether .sat took an overflow back. -/
def packs (f : Fields) (m : FpMode) (ft : FloatFormat) (a : Word) : Nat × Bool :=
  let v := convert m f32 ft a.toNat
  if f.mod.getLsbD 5 ∧ f32.magnitude a.toNat < f32.infCode ∧ ft.magnitude v = ft.infCode then
    (ft.withSign (f32.sign a.toNat) ft.maxCode, true)
  else (v, false)

end Sys2Proof.Machine

/-- R155: what a code of a float format stands for. E = 0 gives a subnormal, other exponents a normal value, except the codes of
infinities and NaNs; in E4M3 the NaNs alone, and none in the 6-bit and 4-bit formats. -/
def Sys2Proof.Machine.FormatsDecode : Prop :=
  ∀ ft ∈ floatFormats, ∀ (neg : Bool) (E t : Nat), t < 2 ^ ft.frac → E < 2 ^ ft.exp →
    let code := ft.withSign neg (E * 2 ^ ft.frac + t)
    let last := E = 2 ^ ft.exp - 1
    let finite : Prop := (ft.specials = .ieee → ¬last) ∧ (ft.specials = .nanOnly → ¬(last ∧ t = 2 ^ ft.frac - 1))
    (finite → ∃ a b, ft.decode code = .fin neg a b ∧ 0 < b ∧
      a * 2 ^ (ft.bias + ft.frac) = (if E = 0 then 2 * t else (2 ^ ft.frac + t) * 2 ^ E) * b) ∧
    (ft.specials = .ieee → last → t = 0 → ft.decode code = .inf neg) ∧
    (¬finite → (ft.specials = .ieee → t ≠ 0) → ft.decode code = .nan ∧ ft.isNan code = true)

/-- R141: a NaN of one format as a result in another keeps its sign, is quiet, and keeps the highest fraction bits that fit, with
zeros below; under CNAN it is the canonical NaN of the table. -/
def Sys2Proof.Machine.NanResults : Prop :=
  (∀ g ft : FloatFormat, g ∈ [f32, f64, f16, bf16] → ft ∈ [f32, f64, f16, bf16] → ∀ code : Nat,
    ∃ t, nanFrom false g ft code = ft.withSign (g.sign code) (ft.infCode + t) ∧ t < 2 ^ ft.frac ∧
      ∀ i, i < ft.frac → t.testBit (ft.frac - 1 - i) = (i == 0 || (decide (i < g.frac) && code.testBit (g.frac - 1 - i)))) ∧
  (∀ (g ft : FloatFormat) (code : Nat), nanFrom true g ft code = ft.canonical) ∧
  f32.canonical = 0x7FC00000 ∧ f64.canonical = 0x7FF8000000000000 ∧ f16.canonical = 0x7E00 ∧ bf16.canonical = 0x7FC0 ∧
  e5m2.canonical = 0x7E ∧ e4m3.canonical = 0x7F

/-- R149 to R152: classes, conversions to and between formats, packing and unpacking. -/
def Sys2Proof.Machine.Conversions : Prop :=
  ∀ f : Fields,
    Writes (.fclass f) f (fun e j =>
      let ft := formatOf (f.mod.toNat % 4)
      let c := sourceCode e j f.a (f.mod.toNat % 4)
      let m := ft.magnitude c
      let n := ft.sign c
      e.setReg j f.d (BitVec.ofNat 32 (2 ^
        (if ft.infCode < m then (if m / 2 ^ (ft.frac - 1) % 2 = 1 then 9 else 8)
         else if m = ft.infCode then (if n then 0 else 7)
         else if 2 ^ ft.frac ≤ m then (if n then 1 else 6)
         else if m = 0 then (if n then 3 else 4)
         else if n then 2 else 5)))) ∧
    Writes (.cvti f) f (fun e j =>
      let ft := formatOf (f.mod.toNat / 8 % 4)
      let c := ft.flushIn (e.g.lane j).fiz (sourceCode e j f.a (f.mod.toNat / 8 % 4))
      let lo : Int := if f.mod.getLsbD 5 then 0 else -2147483648
      let hi : Int := if f.mod.getLsbD 5 then 4294967295 else 2147483647
      e.setReg j f.d (match ft.decode c with
        | .nan => 0
        | .inf n => BitVec.ofInt 32 (if n then lo else hi)
        | .fin n a b => BitVec.ofInt 32 (max lo (min (signed n (roundQuotient (modeOf f e j).rm n a b)) hi)))) ∧
    Writes (.cvtf f) f (fun e j =>
      let m := modeOf f e j
      let ft := formatOf (f.mod.toNat / 64)
      let source := f.mod.toNat / 8 % 8
      let code := (formatOf source).flushIn m.fiz (sourceCode e j f.a source)
      let v :=
        if source = 4 then ft.encode m (.fin (decide ((e.reg j f.a).toInt < 0)) (e.reg j f.a).toInt.natAbs 1)
        else if source = 5 then ft.encode m (.fin false (e.reg j f.a).toNat 1)
        else if (formatOf source).isNan code then nanFrom m.cnan (formatOf source) ft code
        else ft.encode m ((formatOf source).decode code)
      if f.mod.toNat / 64 = 1 then e.setPair j f.d (BitVec.ofNat 64 v) else e.setReg j f.d (BitVec.ofNat 32 v)) ∧
    (f.mod.getLsbD 1 = true → Writes (.cvtw f) f fun e j =>
      let ft := if f.mod.getLsbD 0 then bf16 else f16
      e.setReg j f.d (BitVec.ofNat 32 (convert (e.fpMode j 0) ft f32 ((e.reg j f.a).toNat / 2 ^ 16)))) ∧
    (f.mod.getLsbD 1 = false → Completes (.cvtw f) f (fun _ _ => True)
      (fun e ls s =>
        let ft := if f.mod.getLsbD 0 then bf16 else f16
        let overflows (j : Nat) (n : BitVec 7) : Prop := (packs f (e.fpMode j (f.mod.toNat / 4 % 8)) ft (e.reg j n)).2 = true
        if ∃ j ∈ ls, overflows j f.a ∨ overflows j f.b then s.mapGroup e.g.id fun g => { g with sat := true } else s)
      (fun e ls => e.wrote ls fun j =>
        let ft := if f.mod.getLsbD 0 then bf16 else f16
        let code (n : BitVec 7) : Nat := (packs f (e.fpMode j (f.mod.toNat / 4 % 8)) ft (e.reg j n)).1
        e.setReg j f.d (BitVec.ofNat 32 (code f.a + 2 ^ 16 * code f.b)))) ∧
    ∀ (m : FpMode) (g ft : FloatFormat) (c : Nat), convert m g ft c =
      (if g.isNan (g.flushIn m.fiz c) then nanFrom m.cnan g ft (g.flushIn m.fiz c) else ft.encode m (g.decode (g.flushIn m.fiz c)))

/-- R138, R139, R149 to R152, R155: the formats, NaN results, and the conversions. -/
def Obligations.Conversions : Prop := Sys2Proof.Machine.FormatsDecode ∧
  Sys2Proof.Machine.NanResults ∧
  Sys2Proof.Machine.Conversions

/-- R153: FREDG, over the participants that REDG's kinds select, each input flushed under its own lane's FIZ. -/
def Sys2Proof.Machine.FloatReductions : Prop :=
  ∀ f : Fields, Completes (.fredg f) f (fun _ _ => True) (fun _ _ s => s) fun e ls => e.wrote ls fun j =>
    let covered := if f.mod.toNat / 32 % 4 = 1 then ls.filter (fun k => decide (k ≤ j))
      else if f.mod.toNat / 32 % 4 = 2 then ls.filter (fun k => decide (k < j)) else ls
    let codes := covered.map fun k => f32.flushIn (e.g.lane k).fiz (e.reg k f.a).toNat
    let m := modeOf f e j
    e.setReg j f.d (BitVec.ofNat 32
      (if f.mod.toNat / 8 % 4 = 0 then floatSum m codes else floatExtreme m (decide (f.mod.toNat / 8 % 4 ≠ 1)) codes))

namespace Sys2Proof.Machine

/-- The value of a finite FP32 code in units of 2^-149. -/
def unitsOf (c : Nat) : Int :=
  let m := f32.magnitude c
  signed (f32.sign c) (if m < 2 ^ 23 then m else (2 ^ 23 + m % 2 ^ 23) * 2 ^ (m / 2 ^ 23 - 1))

/-- Whether an FP32 code is finite. -/
def finiteCode (c : Nat) : Prop := f32.magnitude c < f32.infCode

/-- The order of R145 on codes: less, or a -0 beside a +0. -/
def comesBefore (x y : Nat) : Prop :=
  (f32.decode x).less (f32.decode y) = true ∨
    ((f32.decode y).less (f32.decode x) = false ∧ f32.sign x = true ∧ f32.sign y = false)

end Sys2Proof.Machine

/-- R153: the sum of codes. It is exact and rounded once, a zero takes the sign of R140; a NaN gives the NaN of the lowest lane,
opposite infinities the canonical NaN, infinities of one kind that infinity, and no code +0. -/
def Sys2Proof.Machine.FloatSumsAreExact : Prop :=
  ∀ (m : FpMode) (codes : List Nat),
    (codes = [] → floatSum m codes = 0) ∧
    (∀ before c after, codes = before ++ c :: after → (∀ x ∈ before, f32.isNan x = false) → f32.isNan c = true →
      floatSum m codes = nanFrom m.cnan f32 f32 c) ∧
    (codes ≠ [] → (∀ c ∈ codes, finiteCode c) → ∃ u n k, floatSum m codes = f32.encode m (.fin u n k) ∧
      sameNumber u n k (codes.map unitsOf).sum (2 ^ 149) ∧
      ((codes.map unitsOf).sum = 0 →
        ((∀ c ∈ codes, f32.sign c = true) → u = true) ∧ ((∀ c ∈ codes, f32.sign c = false) → u = false) ∧
        ((∃ c ∈ codes, f32.sign c = true) → (∃ c ∈ codes, f32.sign c = false) → u = decide (m.rm = .rdn)))) ∧
    ((∀ c ∈ codes, f32.isNan c = false) → ∀ neg : Bool, f32.withSign neg f32.infCode ∈ codes.map (fun c => c % 2 ^ 32) →
      floatSum m codes = if f32.withSign (!neg) f32.infCode ∈ codes.map (fun c => c % 2 ^ 32) then f32.canonical
        else f32.withSign neg f32.infCode)

/-- R145, R153: the least or the greatest of codes that are not all NaNs is one of them, and none comes before or after it; NaNs alone
give the first as a result, and no code an infinity. -/
def Sys2Proof.Machine.FloatExtremesOfCodes : Prop :=
  ∀ (m : FpMode) (greatest : Bool) (codes : List Nat),
    (codes = [] → floatExtreme m greatest codes = f32.withSign greatest f32.infCode) ∧
    (∀ c rest, codes = c :: rest → (∀ x ∈ codes, f32.isNan x = true) →
      floatExtreme m greatest codes = nanFrom m.cnan f32 f32 c) ∧
    ((∃ x ∈ codes, f32.isNan x = false) →
      floatExtreme m greatest codes ∈ codes ∧ f32.isNan (floatExtreme m greatest codes) = false ∧
      ∀ x ∈ codes, f32.isNan x = false →
        (greatest = false → ¬comesBefore x (floatExtreme m greatest codes)) ∧
        (greatest = true → ¬comesBefore (floatExtreme m greatest codes) x))

/-- R139, R154: FMODE reads the mode register with the group's flags, sets the lane's mode bits, or clears the flags. -/
def Sys2Proof.Machine.FpModeRegister : Prop :=
  ∀ f : Fields,
    (f.mod = 0 → Writes (.fmode f) f fun e j =>
      let l := e.g.lane j
      let bit (b : Bool) : BitVec 1 := BitVec.ofBool b
      e.setReg j f.d (0#22 ++ bit e.g.sata ++ bit e.g.sat ++ 0#3 ++ bit l.cnan ++ bit l.foz ++ bit l.fiz ++ l.rm)) ∧
    (f.mod = 1 → Completes (.fmode f) f (fun _ _ => True) (fun _ _ s => s) fun e ls =>
      e.changed ls fun j l =>
        let a := e.reg j f.a
        { l with cnan := a.getLsbD 4, foz := a.getLsbD 3, fiz := a.getLsbD 2, rm := a.extractLsb' 0 2 }) ∧
    (f.mod = 2 → Completes (.fmode f) f (fun _ ls => ls ≠ [])
      (fun e _ s => s.mapGroup e.g.id fun g => { g with sat := false, sata := false })
      fun e ls => e.changed ls fun _ l => l)

/-- R139, R145, R153, R154: FREDG with the value of its sums and extremes, and FMODE. -/
def Obligations.FloatReductionsAndModeRegister : Prop := Sys2Proof.Machine.FloatReductions ∧
  Sys2Proof.Machine.FloatSumsAreExact ∧
  Sys2Proof.Machine.FloatExtremesOfCodes ∧
  Sys2Proof.Machine.FpModeRegister

/-- R158 to R162: QCVT and DQCVT with a slot whose element code is legal owe their codes and values; the result of a saturating
conversion carries the flag, with that of an armed slot, which the group takes when the result arrives. With an element code that
is not legal each raises FormatSlotInvalid. -/
def Sys2Proof.Machine.QuantiseAndDequantise : Prop :=
  ∀ (f : Fields) (el : Element),
    (f.mod.toNat / 8 % 4 = 1 →
      Completes (.qcvt f) f (fun e _ => elementOf (e.s.slot e.t (f.mod.toNat % 8)).elem = some el) (fun _ _ s => s) fun e ls =>
        e.awaiting f.la.toNat ls fun j =>
          let k := e.s.slot e.t (f.mod.toNat % 8)
          let block := if k.kind = 2 then ls.filter (fun i => decide (i / 16 = j / 16)) else ls
          { writes := e.setReg j f.d (BitVec.ofNat 32
              (scaleCode el k.kind (block.map fun i => f32.decode (e.reg i f.a).toNat))) }) ∧
    (f.mod.toNat / 8 % 4 = 0 →
      Completes (.qcvt f) f (fun e _ => elementOf (e.s.slot e.t (f.mod.toNat % 8)).elem = some el) (fun _ _ s => s) fun e ls =>
        e.awaiting f.la.toNat ls fun j =>
          let k := e.s.slot e.t (f.mod.toNat % 8)
          let q := el.satRound ((f32.decode (e.reg j f.a).toNat).div (k.scale (e.reg j f.b)))
          { writes := e.setReg j f.d (BitVec.ofNat 32 q.1), sat := if q.2 = true then some k.arm else none }) ∧
    Completes (.dqcvt f) f (fun e _ => elementOf (e.s.slot e.t (f.mod.toNat % 8)).elem = some el) (fun _ _ s => s) (fun e ls =>
      e.awaiting f.la.toNat ls fun j =>
        let k := e.s.slot e.t (f.mod.toNat % 8)
        { writes := e.setReg j f.d (BitVec.ofNat 32
            (f32.encode plainMode ((el.decode (e.reg j f.a).toNat).mul (k.scale (e.reg j f.b))))) }) ∧
    ∀ i, i = .qcvt f ∨ i = .dqcvt f →
      Acts i f (fun e _ => elementOf (e.s.slot e.t (f.mod.toNat % 8)).elem = none) (fun _ _ s => s)
        fun _ _ _ => { fault := some { kind := formatSlotInvalid }, together := true }

namespace Sys2Proof.Machine

/-- The ends of the range of an integer element format. -/
def lowEnd (s : Bool) (bits : Nat) : Int := if s then -(2 ^ (bits - 1) : Int) else 0

def highEnd (s : Bool) (bits : Nat) : Int := if s then 2 ^ (bits - 1) - 1 else 2 ^ bits - 1

/-- Max(F) and Emax(F) of R161, by the code of F: Max as a fraction. -/
def maxTable : List (Nat × Nat) :=
  [((2 ^ 24 - 1) * 2 ^ 104, 1), ((2 ^ 8 - 1) * 2 ^ 120, 1), (65504, 1), (57344, 1), (448, 1), (28, 1), (15, 2), (6, 1), (127, 1),
   (255, 1), (7, 1), (15, 1)]

def emaxTable : List Int := [127, 127, 15, 15, 8, 4, 2, 2, 6, 7, 2, 3]

end Sys2Proof.Machine

/-- R11, R155, R161: SatRound. Up to the largest finite value it goes to the nearest code, ties to even; above, it stays there, and
saturates where the value rounded to the format's precision lies above it. An integer format rounds to the nearest integer and clamps.
A NaN and an infinity as the rule says. -/
def Sys2Proof.Machine.SaturatingRounding : Prop :=
  (∀ ft : FloatFormat, ft ∈ floatFormats → ft ≠ f64 → ∀ (neg : Bool) (num den : Nat), 0 < den →
    (num * 2 ^ 1100 ≤ scaled ft ft.maxCode * den →
      ∃ m, (Element.float ft).satRound (.fin neg num den) = (ft.withSign neg m, false) ∧ m ≤ ft.maxCode ∧
        ∀ k, k ≤ ft.maxCode → (distance ft num den m).natAbs ≤ (distance ft num den k).natAbs ∧
          ((distance ft num den m).natAbs = (distance ft num den k).natAbs → k ≠ m → m % 2 = 0)) ∧
    (scaled ft ft.maxCode * den < num * 2 ^ 1100 →
      (Element.float ft).satRound (.fin neg num den) = (ft.withSign neg ft.maxCode,
        let middle := (scaled ft ft.maxCode + scaled ft (ft.maxCode + 1)) * den
        decide (middle < 2 * num * 2 ^ 1100 ∨ (middle = 2 * num * 2 ^ 1100 ∧ ft.maxCode % 2 = 1)))) ∧
    (Element.float ft).satRound (.inf neg) = (ft.withSign neg ft.maxCode, true) ∧
    (Element.float ft).satRound .nan = (if ft.specials = .none then (0, true) else (ft.canonical, false))) ∧
  ∀ (s : Bool) (bits : Nat), bits = 4 ∨ bits = 8 → ∀ neg : Bool,
    (∀ num den : Nat, 0 < den → ∃ k : Nat, (2 * ((num : Int) - k * den)).natAbs ≤ den ∧
      ((2 * ((num : Int) - k * den)).natAbs = den → k % 2 = 0) ∧
      (Element.int s bits).satRound (.fin neg num den) =
        ((max (lowEnd s bits) (min (signed neg k) (highEnd s bits)) % 2 ^ bits).toNat,
         decide (signed neg k < lowEnd s bits ∨ highEnd s bits < signed neg k))) ∧
    (Element.int s bits).satRound (.inf neg) = (((if neg then lowEnd s bits else highEnd s bits) % 2 ^ bits).toNat, true) ∧
    (Element.int s bits).satRound .nan = (0, true)

/-- R157, R161: the scales, as numbers, and the scale codes of qcvt.scale: of E8M0, 127 and the exponent of the greatest magnitude less
Emax, clamped; of E4M3, the least code whose multiple of Max reaches that magnitude, the largest where none does. -/
def Sys2Proof.Machine.Scales : Prop :=
  (∀ (k : Slot) (b : Word),
    (k.kind = 0 → k.scale b = .fin false 1 1) ∧
    (k.kind = 1 → (b.toNat % 256 = 255 → k.scale b = .nan) ∧
      (b.toNat % 256 ≠ 255 → ∃ p q, k.scale b = .fin false p q ∧ 0 < q ∧ p * 2 ^ 127 = 2 ^ (b.toNat % 256) * q)) ∧
    (k.kind = 2 → k.scale b = e4m3.decode (b.toNat % 256)) ∧ (k.kind = 3 → k.scale b = f32.decode (k.src % 2 ^ 32))) ∧
  ∀ (code : Nat) (el : Element) (vs : List Value), elementOf code = some el →
    let top := maxTable.getD code (0, 1)
    (∀ kind, kind ≠ 1 → kind ≠ 2 → scaleCode el kind vs = 0) ∧
    ((∃ v ∈ vs, v = .nan ∨ ∃ n, v = .inf n) → scaleCode el 1 vs = 0xFF ∧ scaleCode el 2 vs = 0x7F) ∧
    ((∀ v ∈ vs, ∃ n d, v = .fin n 0 d) → scaleCode el 1 vs = 0x7F ∧ scaleCode el 2 vs = 0x38) ∧
    ∀ n num den, .fin n num den ∈ vs → 0 < num → 0 < den →
      (∀ v ∈ vs, ∃ m a b, v = .fin m a b ∧ 0 < b ∧ a * den ≤ num * b) →
      (∀ L : Int, (if 0 ≤ L then 2 ^ L.toNat * den ≤ num ∧ num < 2 ^ (L.toNat + 1) * den
          else den ≤ num * 2 ^ (-L).toNat ∧ num * 2 ^ (-L).toNat < 2 * den) →
        (scaleCode el 1 vs : Int) = 127 + max (-127) (min (L - emaxTable.getD code 0) 127)) ∧
      (1 ≤ scaleCode el 2 vs ∧ scaleCode el 2 vs ≤ 0x7E) ∧
      ∀ k p q, 1 ≤ k → k ≤ 0x7E → e4m3.decode k = .fin false p q →
        (num * top.2 * q ≤ p * top.1 * den → scaleCode el 2 vs ≤ k) ∧
        (scaleCode el 2 vs = k → k < 0x7E → num * top.2 * q ≤ p * top.1 * den)

/-- R161: quotients are exact, with the special cases of IEEE 754. -/
def Sys2Proof.Machine.QuotientsAreExact : Prop :=
  ∀ (s t : Bool) (a b c d : Nat), 0 < b → 0 < d →
    (c ≠ 0 → ∃ u n k, Value.div (.fin s a b) (.fin t c d) = .fin u n k ∧ 0 < k ∧ n * (b * c) = a * d * k ∧ u = (s != t)) ∧
    (Value.div (.fin s a b) (.fin t 0 d) = if a = 0 then .nan else .inf (s != t)) ∧
    Value.div (.inf s) (.inf t) = .nan ∧ Value.div (.inf s) (.fin t c d) = .inf (s != t) ∧
    Value.div (.fin s a b) (.inf t) = .fin (s != t) 0 1 ∧ ∀ v : Value, Value.div v .nan = .nan ∧ Value.div .nan v = .nan

/-- R155, R158, R160 to R162: QCVT and DQCVT, their rounding, their scales and their quotients. -/
def Obligations.QuantiseAndDequantise : Prop := Sys2Proof.Machine.QuantiseAndDequantise ∧
  Sys2Proof.Machine.SaturatingRounding ∧
  Sys2Proof.Machine.Scales ∧
  Sys2Proof.Machine.QuotientsAreExact

/-! ## Global memory and scratchpad (R163 to R206, R213 to R221) -/

namespace Sys2Proof.Machine

/-- No store of the issuing group is still to enter its team's buffer (R174). -/
def Env.quiet (e : Env) : Prop := ∀ o ∈ e.s.ops, o.gid = e.g.id → o.isStore = false

/-- 2^MOD[1:0], the width of a load or a store in bytes (R184). -/
def accessBytes (f : Fields) : Nat := 2 ^ (f.mod.toNat % 4)

/-- Whether an access leads to a location now. -/
def Reached.arrives (r : Reached) : Bool :=
  match r with
  | .memory _ _ => true
  | .scratch _ => true
  | _ => false

/-- What becomes of a lane whose access leads nowhere now: a fault (R10), a wait for its home or a cluster member (R37, R206), or a
park on its page (R168). -/
def stopped (r : Reached) : LaneOut :=
  match r with
  | .fault i => { fault := some i }
  | .failed i _ => { fault := some i }
  | .notReady place _ => { flow := .wait (.home place) none }
  | .park va => { flow := .park (.page va) }
  | .wait w => { flow := .wait w none }
  | _ => {}

/-- The destinations of a lane; an s register belongs to the lowest lane of a list (R120). -/
def Env.destsOf (e : Env) (ls : List Nat) (j : Nat) (n : BitVec 7) (isPair : Bool) : List Place :=
  ownPlaces (ls.head? == some j) (e.destPlaces j n isPair)

/-- The value a store writes: register or pair n, its low w bytes (R184). -/
def Env.storedValue (e : Env) (j : Nat) (n : BitVec 7) (w : Nat) : Nat :=
  (if w = 8 then (e.pair j n).toNat else (e.reg j n).toNat) % 2 ^ (8 * w)

/-- The requests of an access of w bytes: one, or two for 8 bytes (R192). -/
def requestsOf (w : Nat) : Nat := if w = 8 then 2 else 1

end Sys2Proof.Machine

/-- R164, R168, R37: where a generic access leads. An address of no class raises AddressFault, a misaligned one Misaligned,
one without mapping or permission AccessViolation; a page that is not present parks; the checks come in this order. An access that has
passed them goes to its home: one that is not ready makes the thread wait, a failed one raises AccessViolation. -/
def Sys2Proof.Machine.GenericAccessesAreChecked : Prop :=
  ∀ (e : Env) (j : Nat) (a : DWord) (w align access : Nat) (only : Bool),
    let checked := reachAddress e j a w align access only
    let led := reachGeneric e j a w align access only
    (e.s.classOf e.t a = .unused → checked = .fault (addressed addressFault a access)) ∧
    (e.s.classOf e.t a ≠ .unused → only = false → a.toNat % align ≠ 0 → checked = .fault (addressed misaligned a access)) ∧
    (e.s.classOf e.t a = .global → a.toNat % align = 0 →
      let found := e.s.translate e.t.ctx e.g.core (e.g.lane j).lastPage a access
      (found = .denied → checked = .fault (addressed accessViolation a access)) ∧ (found = .absent → checked = .park a) ∧
      (∀ place, found = .waits place → checked = .wait (.home place)) ∧ ∀ place page, found = .ok place page → checked = .memory place page) ∧
    (∀ o, e.s.classOf e.t a = .scratchpad o → only = false → a.toNat % align = 0 → e.s.team? e.t.id = some e.t →
      (∀ n, n < 32 → descV (e.t.buffer n) = true → o < descBase (e.t.buffer n) ∨ descBase (e.t.buffer n) + descSize (e.t.buffer n) ≤ o) →
      checked = .scratch { team := e.t.id, offset := o }) ∧
    (∀ rank o member, e.s.classOf e.t a = .window rank o → only = false → a.toNat % align = 0 →
      e.memberTeam rank = .ok member → e.s.team? member.id = some member →
      (∀ n, n < 32 → descV (member.buffer n) = true →
        o < descBase (member.buffer n) ∨ descBase (member.buffer n) + descSize (member.buffer n) ≤ o) →
      checked = .scratch { team := member.id, offset := o, remote := true }) ∧
    (only = true → (∀ o, e.s.classOf e.t a = .scratchpad o → checked = .fault (addressed addressFault a access)) ∧
      ∀ r o, e.s.classOf e.t a = .window r o → checked = .fault (addressed addressFault a access)) ∧
    (∀ place page, checked = .memory place page →
      (e.s.home place = .ready → led = checked) ∧ (e.s.home place = .waiting → led = .notReady place page) ∧
      (e.s.home place = .failed → led = .failed (addressed accessViolation a access) page)) ∧
    ((∀ place page, checked ≠ .memory place page) → led = checked)

/-- R166, R168, R37, R405: what an access brings about outside the lanes. A translation reloads the lane's last-page register, a page
that is not there is asked for, and a place on another device that cannot be reached is a request, which times out from now on. When an
access that has passed its checks becomes a request on its way, and that the lanes of an issue act in ascending order, is log 22
(DEDUCED). -/
def Sys2Proof.Machine.AccessesReloadTheirPages : Prop :=
  ∀ (e : Env) (j : Nat) (s : State),
    (∀ place page, reachEffect e j (.memory place page) s = s.reload e.g.id j e.g.core page) ∧
    (∀ i page, reachEffect e j (.failed i page) s = s.reload e.g.id j e.g.core page) ∧
    (∀ va, reachEffect e j (.park va) s = s.requestMove e.t.ctx va) ∧
    (∀ i, reachEffect e j (.fault i) s = s) ∧ (∀ w, reachEffect e j (.wait w) s = s) ∧
    (∀ place page, place < 2 ^ 64 → reachEffect e j (.notReady place page) s = s.reload e.g.id j e.g.core page) ∧
    (∀ place page, 2 ^ 64 ≤ place →
      ∃ o, o.access = .blocked place ∧ o.gid = e.g.id ∧ o.lane = j ∧ o.team = e.g.team ∧ o.since = s.real ∧ o.pc = (e.g.lane j).pc ∧
        o.va = BitVec.ofNat 64 place ∧
        reachEffect e j (.notReady place page) s =
          ({ s with ops := s.ops ++ [o], ids := s.ids + 1 } : State).reload e.g.id j e.g.core page) ∧
    ∀ (gid core : Nat) (p : PageEntry) (g : Group), s.group? gid = some g → j < g.lanes.length →
      let t := s.reload gid j core p
      (t.lane gid j).lastPage = some p ∧
      ((s.lane gid j).lastPage = some p → t.cores = s.cores) ∧
      ((s.lane gid j).lastPage ≠ some p → p ∈ (t.core core).tlb ∧ (t.core core).tlb.length ≤ max 4096 (s.core core).tlb.length)

/-- R163: the class of a generic address, by its top bits, the slice size and the cluster's team count. -/
def Sys2Proof.Machine.AddressClasses : Prop :=
  ∀ (s : State) (t : Team) (a : DWord),
    (s.classOf t a = .global ↔ a.toNat < 2 ^ 56) ∧
    (∀ o, s.classOf t a = .scratchpad o ↔ o < 2 ^ 48 ∧ o < t.sliceSize ∧ a.toNat = 0x0100 * 2 ^ 48 + o) ∧
    (∀ r o, s.classOf t a = .window r o ↔
      o < 2 ^ 20 ∧ o < s.memberSlice t r ∧ r < 2 ^ 28 ∧ r < s.clusterSize t ∧ a.toNat = 0x0101 * 2 ^ 48 + r * 2 ^ 20 + o)

/-- R168, R37, R399: translation by the page table where neither the last-page register nor the TLB holds the page: no leaf or a
permission that is missing denies, a leaf that is not present parks, an entry whose home is not ready makes the walk wait; permission
is judged first. -/
def Sys2Proof.Machine.TranslationJudgesPermissionFirst : Prop :=
  ∀ (s : State) (c core : Nat) (va : DWord) (access : Nat),
    (∀ p ∈ (s.core core).tlb, s.pageHit (s.ctx c).asid va p = false) →
    (s.walked c va = .unmapped → s.translate c core none va access = .denied) ∧
    (∀ place, s.walked c va = .waits place → s.translate c core none va access = .waits place) ∧
    ∀ l, s.walked c va = .leaf l →
      (entryAllows l.entry access = false → s.translate c core none va access = .denied) ∧
      (entryAllows l.entry access = true → entryP l.entry = false → s.translate c core none va access = .absent) ∧
      (entryAllows l.entry access = true → entryP l.entry = true → entryRem l.entry = false →
        ∃ p, s.translate c core none va access = .ok (entryFrame l.entry + va.toNat % pageBytes l.size) p ∧
          p.page = va.toNat / pageBytes l.size ∧ p.generation = s.generation (s.ctx c).asid)

/-- R37, R163, R164, R166, R168, R399: the class of a generic address, its alignment, and its translation, permission judged before
presence. What it says that the rules leave open is the model's choice, log 22. -/
def Obligations.GenericAddressesAreChecked : Prop := Sys2Proof.Machine.GenericAccessesAreChecked ∧
  Sys2Proof.Machine.AccessesReloadTheirPages ∧
  Sys2Proof.Machine.AddressClasses ∧
  Sys2Proof.Machine.TranslationJudgesPermissionFirst

/-- R164, R173, R174, R184, R192: LD, each lane by where its address leads. In global memory a plain load returns its value as an
outstanding result when it issues, and fills the lines of the view it reads (DEDUCED: the model's choice, log 22), a .live load becomes a
request to the home; in the team's scratchpad or a cluster window a load becomes requests to the bank; the other lanes fault, wait or
park, and a move of an absent page is asked for. A lane whose line is not granted yet waits for its port. -/
def Sys2Proof.Machine.LoadsFollowTheirAddresses : Prop :=
  ∀ (f : Fields) (reach : Nat → Reached) (held : Nat → Option Nat),
    let w := accessBytes f
    let goes (ls : List Nat) : List Nat := ls.filter fun k => (held k).isNone
    let dests (e : Env) (ls : List Nat) (j : Nat) : List Place :=
      e.destsOf ((goes ls).filter fun k => (reach k).arrives) j f.d (w == 8)
    Acts (.ld f) f
      (fun e ls => e.quiet ∧ ∀ j ∈ ls, reachGeneric e j (e.address f j) w w 0 false = reach j ∧ loadHeld f e (reach j) = held j)
      (fun e ls => inOrder (goes ls) fun j s => reachEffect e j (reach j) (match reach j with
        | .memory place _ =>
          if f.mod.getLsbD 3 = true then
            s.addOp e j (some e.pid) (e.address f j)
              (.live place ((List.range w).map fun i => e.arenaByte j (e.address f j) i) (f.mod.getLsbD 2) (dests e ls j))
          else (e.s.viewLines e.t place w).foldl (fun s l => s.fillShared e.t.id l) s
        | .scratch spot => s.addReads e j spot w (f.mod.getLsbD 2) none (dests e ls j)
        | _ => s))
      fun e ls j => match held j, reach j with
        | some place, _ => { flow := .wait (.turn place) none }
        | none, .memory place _ =>
          if f.mod.getLsbD 3 = true then { places := dests e ls j, waits := 1 }
          else { writes := placeWords (dests e ls j) (valueWords w (f.mod.getLsbD 2)
                   (leNat ((List.range w).map fun i => e.loadedByte j (e.address f j) place i))) }
        | none, .scratch _ => { places := dests e ls j, waits := requestsOf w, joint := true }
        | none, r => stopped r

/-- R21, R24, R173: which plain loads wait for a slice port. One whose view holds every line it reads, or whose bytes its own stores
and units give, does not; one waits for a missing line exactly where the line's port grants its next slot to a request that goes before
a demand load of class 2 that arrives now. A .live load and an access that leads elsewhere do not wait so. -/
def Sys2Proof.Machine.PlainLoadsWaitForTheirPort : Prop :=
  ∀ (f : Fields) (e : Env),
    (∀ r, f.mod.getLsbD 3 = true ∨ (∀ place page, r ≠ .memory place page) → loadHeld f e r = none) ∧
    ∀ place page, f.mod.getLsbD 3 = false →
      let missing (line : Nat) : Prop := sget none e.t.view line = none ∧ ∃ i, i < accessBytes f ∧ (place + i) / 128 = line ∧
        newest (place + i) e.t.store = none ∧ e.s.queued e.t.id (place + i) = none
      let taken (line : Nat) : Prop := e.s.isLocal (128 * line) = true ∧
        ∃ r, e.s.granted (homeSlice (128 * line % 2 ^ 52)) = some r ∧
          (r.cls < 2 ∨ (r.cls = 2 ∧ (r.arrival < e.s.clk.toNat ∨ (r.arrival = e.s.clk.toNat ∧ r.requester < 16 * e.g.core + e.g.quarter))))
      (loadHeld f e (.memory place page) = none ↔ ∀ line, missing line → ¬taken line) ∧
      ∀ q, loadHeld f e (.memory place page) = some q → ∃ line, q = 128 * line ∧ missing line ∧ taken line

/-- R173: the byte a plain load returns, outside the group's own arena, is the newest entry of the own store buffer, else that of the own
units still in a publish queue, else that of the view's line, else M's; a .live load passes the view by. R184: a value is extended to its
register by its sign or with zeros. -/
def Sys2Proof.Machine.PlainLoadsReadInOrder : Prop :=
  (∀ (s : State) (t : Team) (p : Nat),
    (∀ b, newest p t.store = some b → s.loadByte t p = b ∧ s.liveByte t p = b) ∧
    (newest p t.store = none → ∀ b, s.queued t.id p = some b → s.loadByte t p = b ∧ s.liveByte t p = b) ∧
    (newest p t.store = none → s.queued t.id p = none →
      (∀ l, sget none t.view (p / 128) = some l → s.loadByte t p = l.bytes.getD (p % 128) 0) ∧
      (sget none t.view (p / 128) = none → s.loadByte t p = s.byte p) ∧ s.liveByte t p = s.byte p)) ∧
  (∀ (e : Env) (j place i : Nat) (a : DWord), e.g.inArena e.t.rst (a + BitVec.ofNat 64 i) = false →
    e.loadedByte j a place i = e.s.loadByte e.t (place + i) ∧ e.arenaByte j a i = none) ∧
  ∀ v : Nat,
    valueWords 8 false v = [BitVec.ofNat 32 v, BitVec.ofNat 32 (v / 2 ^ 32)] ∧
    ∀ k, k = 1 ∨ k = 2 ∨ k = 4 → v < 2 ^ (8 * k) →
      valueWords k false v = [BitVec.ofNat 32 v] ∧
      valueWords k true v = [BitVec.ofInt 32 (if v < 2 ^ (8 * k - 1) then v else (v : Int) - 2 ^ (8 * k))]

/-- R13, R172: a fill takes M's bytes into a line that the view lacks and changes nothing else; while the view cache of the core has
room no line leaves. -/
def Sys2Proof.Machine.FillsTakeMemory : Prop :=
  ∀ (s : State) (t : Team) (line : Nat), s.team? t.id = some t → (s.coreLines t.core).length < viewCapacity →
    ∃ t', (s.fillShared t.id line).team? t.id = some t' ∧ t' = { t with view := t'.view } ∧
      (∀ k, k ≠ line → sget none t'.view k = sget none t.view k) ∧
      (∀ l, sget none t.view line = some l → sget none t'.view line = some l) ∧
      (sget none t.view line = none → ∃ l, sget none t'.view line = some l ∧ l.bytes = s.bytes (128 * line) 128) ∧
      s.fillShared t.id line = { s with teams := (s.fillShared t.id line).teams } ∧
      ∀ x, x ≠ t.id → (s.fillShared t.id line).team? x = s.team? x

/-- R172 to R175, R184: loads by the class of their addresses, and what a plain load sees. What it says that the rules leave open
is the model's choice, log 22. -/
def Obligations.GlobalLoadsReadMemory : Prop := Sys2Proof.Machine.LoadsFollowTheirAddresses ∧
  Sys2Proof.Machine.PlainLoadsWaitForTheirPort ∧
  Sys2Proof.Machine.PlainLoadsReadInOrder ∧
  Sys2Proof.Machine.FillsTakeMemory

/-- R170, R174, R181, R184, R192: ST, each lane by where its address leads, one after another. In global memory it issues a store,
which has the quota of overflow lines to respect, and M does not change until a commit is applied; in the scratchpad or a cluster
window it becomes requests to the bank. -/
def Sys2Proof.Machine.StoresFollowTheirAddresses : Prop :=
  ∀ (f : Fields) (reach : Nat → Reached),
    let w := accessBytes f
    let bytes (e : Env) (j place : Nat) : List (Nat × Byte) := placed place (leBytes w (e.storedValue j f.b w))
    let act (e : Env) (j : Nat) (s : State) : State := match reach j with
      | .memory place page =>
        (if s.overQuota e.t (bytes e j place) = true then s else s.addOp e j none (e.address f j) (.enter (bytes e j place))).reload
          e.g.id j e.g.core page
      | .scratch spot => s.addWrites e j spot w (e.storedValue j f.b w)
      | r => reachEffect e j r s
    Acts (.st f) f (fun e ls => ∀ j ∈ ls, reachGeneric e j (e.address f j) w w 1 false = reach j)
      (fun e ls => inOrder ls (act e))
      fun e ls j => match reach j with
        | .memory place _ =>
          if (e.turn ls (act e) j).overQuota e.t (bytes e j place) = true then
            { fault := some { kind := shadowQuota, addr := e.address f j } }
          else {}
        | .scratch _ => {}
        | r => stopped r

/-- R170, R174, R181, R184: stores by the class of their addresses. -/
def Obligations.GlobalStores : Prop := Sys2Proof.Machine.StoresFollowTheirAddresses

namespace Sys2Proof.Machine

/-- Whether a FENCE of a scope on a core waits for an access (R186): 2 team, 3 cluster, 4 die, 5 device, 6 system. -/
def fenceCovers (s : State) (core scope : Nat) (o : Op) : Prop :=
  let own (p : Spot) : Prop := if p.team = o.team then 2 ≤ scope else 3 ≤ scope
  let home (place : Nat) : Prop :=
    if s.isLocal place = false then 6 ≤ scope else if homeDie place = coreDie core then 4 ≤ scope else 5 ≤ scope
  match o.access with
  | .localAtomic p _ _ _ _ _ _ => own p
  | .barrierInit p _ => own p
  | .barrierArrive p _ _ _ => own p
  | .write p _ => p.remote = true ∧ 3 ≤ scope
  | .live place _ _ _ => home place
  | .atomic place _ _ _ _ _ _ => home place
  | .ranked _ place _ _ _ _ _ _ => home place
  | .signal place _ => home place
  | .joinDec place _ _ _ => home place
  | .drainAdd _ least => least ≤ scope
  | .accordDrop _ _ _ _ => 5 ≤ scope
  | .published _ _ => 5 ≤ scope
  | _ => False

end Sys2Proof.Machine

/-- R186, R283, R309, R320: the accesses a FENCE of each scope waits for on a lane, by the table of R186: the pending ones of the
thread that the scope covers, and no other. -/
def Sys2Proof.Machine.FenceScopes : Prop :=
  ∀ (s : State) (g : Group) (j scope id : Nat),
    id ∈ s.fenceWaits g j scope ↔ ∃ o ∈ s.ops, o.id = id ∧ o.isOf g.id j = true ∧ fenceCovers s g.core scope o

/-- R60, R160, R174, R185, R186: PHASE waits for its commit; a lane of FENCE passes where no access of its thread is left to wait for,
dropping the view with .acq, and waits otherwise; before either, and before a load, the thread's issued stores enter, and a lane with
a store that waits for a shadow line waits for it. PHASE with SATA set raises SatOverflow and clears SATA. -/
def Sys2Proof.Machine.PhaseAndFence : Prop :=
  ∀ f : Fields,
    Completes (.phase f) f (fun e _ => e.quiet ∧ e.g.sata = false) (fun _ _ s => s)
      (fun e ls => e.waiting ls (fun _ => .commit f.sc.toNat false false) none) ∧
    Acts (.phase f) f (fun e ls => ls ≠ [] ∧ e.g.sata = true)
      (fun e _ s => s.mapGroup e.g.id fun g => { g with sata := false })
      (fun _ _ _ => { fault := some { kind := satOverflow }, together := true }) ∧
    Acts (.fence f) f (fun e _ => e.quiet)
      (fun e ls s => if f.mod.getLsbD 0 = true ∧ ∃ j ∈ ls, e.s.fenceWaits e.g j f.sc.toNat = [] then
          s.mapTeam e.t.id fun t => { t with view := [] } else s)
      (fun e _ j => if e.s.fenceWaits e.g j f.sc.toNat = [] then {}
        else { flow := .wait (.fence (e.s.fenceWaits e.g j f.sc.toNat) (f.mod.getLsbD 0)) none }) ∧
    ∀ i, (i = .phase f ∨ i = .fence f ∨ i = .ld f) → Completes i f
      (fun e ls => e.g.sata = false ∧ (i = .ld f → ∀ j ∈ ls, e.s.classOf e.t (e.address f j) = .global) ∧
        ∀ j ∈ ls, (({ e.s with ids := e.s.ids + 1 } : State).enterLanes e.g.id ls).threadStores e.g.id j ≠ [])
      (fun e ls s => s.enterLanes e.g.id ls) fun e ls => e.waiting ls (fun _ => .stores) none

/-- R174, R185, R186: PHASE and FENCE, and what each scope waits for. -/
def Obligations.PhaseAndFence : Prop := Sys2Proof.Machine.FenceScopes ∧
  Sys2Proof.Machine.PhaseAndFence

/-- R187 to R189: INVV drops lines of the covered teams' views, PREF fills a line where its address can be read, CVTA classifies,
converts or probes. -/
def Sys2Proof.Machine.ViewsAndAddresses : Prop :=
  ∀ f : Fields,
    (f.mod.getLsbD 0 = false → Completes (.invv f) f (fun _ ls => ls ≠ [])
      (fun e _ s => (e.covered f.sc.toNat).foldl (fun s t => s.dropView t) s) fun e ls => e.passed ls) ∧
    (f.mod.getLsbD 0 = true → Completes (.invv f) f (fun _ ls => ls ≠ [])
      (fun e ls s => (e.covered f.sc.toNat).foldl (fun s t =>
        (ls.flatMap fun j => e.s.linesOfRange e.t.ctx (e.pair j f.a) (e.reg j f.b).toNat).foldl (fun s l => s.dropLine t l) s) s)
      fun e ls => e.passed ls) ∧
    (f.mod.getLsbD 0 = false → Completes (.pref f) f (fun _ _ => True)
      (fun e ls => inOrder ls fun j s =>
        if e.s.classOf e.t (e.address f j) = .global then
          match e.s.translate e.t.ctx e.g.core (e.g.lane j).lastPage (e.address f j) 0 with
          | .ok place _ => if e.s.home place = .ready then s.fillShared e.t.id (place / 128) else s
          | _ => s
        else s) fun e ls => e.passed ls) ∧
    (f.mod.getLsbD 0 = true → Completes (.pref f) f (fun _ _ => True) (fun _ _ s => s) fun e ls => e.passed ls) ∧
    (f.mod = 0 → Owes (.cvta f) f fun e j => e.setReg j f.d (
      match e.s.classOf e.t (e.pair j f.a) with
      | .global => 0
      | .scratchpad _ => 1
      | .window rank _ => BitVec.ofNat 32 (2 + 256 * (rank % 16))
      | .unused => 3)) ∧
    (f.mod = 1 → Owes (.cvta f) f fun e j =>
      let rank := (e.reg j f.b).toNat
      let there (o : Nat) : DWord := if rank < e.s.clusterSize e.t ∧ o < e.s.memberSlice e.t rank then
        BitVec.ofNat 64 (0x0101 * 2 ^ 48 + rank * 2 ^ 20 + o) else 0
      e.setPair j f.d (match e.s.classOf e.t (e.pair j f.a) with
        | .scratchpad o => there o
        | .window _ o => there o
        | _ => 0)) ∧
    (f.mod = 2 → Owes (.cvta f) f fun e j => e.setReg j f.d (probeWord e j (e.pair j f.a)))

namespace Sys2Proof.Machine

/-- The tier of R190 of a page, by its entry: 0 HBM, 1 peat tier, 2 host memory, 3 remote device. -/
def tierIs (s : State) (entry : DWord) (n : Nat) : Prop :=
  (entryRem entry = true → entryDevice entry ≠ s.hub.devnum.toNat → n = 3) ∧
  (entryRem entry = false → (targetOf (entryFrame entry) = .hbm → n = 0) ∧ (targetOf (entryFrame entry) = .peat → n = 1) ∧
    (targetOf (entryFrame entry) = .host → n = 2))

/-- A probe word with the fields of R190 for a page. -/
def probes (e : Env) (p : DWord) (size : Nat) (entry : DWord) (present : Bool) (v : Word) : Prop :=
  v.getLsbD 0 = present ∧ v.getLsbD 1 = entryR entry ∧ v.getLsbD 2 = entryW entry ∧ v.getLsbD 3 = entryX entry ∧
    v.getLsbD 4 = e.s.migrating e.t.ctx p ∧ v.getLsbD 5 = false ∧ tierIs e.s entry (v.toNat / 64 % 4) ∧ v.toNat / 256 = size

end Sys2Proof.Machine

/-- R187, R190: the probe word of a page that the last-page register or the TLB holds, and of one that the table maps, present or not;
0 elsewhere. And the lines of a range: those that hold a byte of it which is mapped, and no other. -/
def Sys2Proof.Machine.ProbesAndRanges : Prop :=
  (∀ (e : Env) (j : Nat) (p : DWord),
    let cached := (e.g.lane j).lastPage.toList ++ (e.s.core e.g.core).tlb
    let hit := e.s.pageHit (e.s.ctx e.t.ctx).asid p
    (e.s.classOf e.t p ≠ .global → probeWord e j p = 0) ∧
    (e.s.classOf e.t p = .global →
      (∀ x, cached.find? hit = some x → x.size ≤ 3 → probes e p x.size x.entry true (probeWord e j p)) ∧
      ((∀ x ∈ cached, hit x = false) → (e.s.walk e.t.ctx p = none → probeWord e j p = 0) ∧
        ∀ l, e.s.walk e.t.ctx p = some l → l.size ≤ 3 → probes e p l.size l.entry (entryP l.entry) (probeWord e j p)))) ∧
  ∀ (s : State) (c : Nat) (va : DWord) (n : Nat),
    (n = 0 ∨ 2 ^ 56 ≤ va.toNat → s.linesOfRange c va n = []) ∧
    (0 < n → va.toNat < 2 ^ 56 → ∀ line, line ∈ s.linesOfRange c va n ↔
      ∃ a l, va.toNat ≤ a ∧ a < va.toNat + n ∧ a < 2 ^ 56 ∧ s.walk c (BitVec.ofNat 64 a) = some l ∧
        placeUnder { asid := 0, generation := 0, page := 0, size := l.size, entry := l.entry } (BitVec.ofNat 64 a) / 128 = line)

/-- R187 to R190: INVV, PREF and CVTA, the words of a probe and the lines of a range. -/
def Obligations.ViewsAndAddresses : Prop := Sys2Proof.Machine.ProbesAndRanges ∧
  Sys2Proof.Machine.ViewsAndAddresses

/-- R192 to R194, R197, R205, R214: LDS, STS, LDSR and STSR, each lane by where its operand leads: to a bank, one request a word,
the results of a load outstanding until the banks have answered every lane; to a fault; or, for a member of the cluster that has not
started, to a wait. -/
def Sys2Proof.Machine.ScratchpadLoadsAndStores : Prop :=
  ∀ (f : Fields) (reach : Nat → Reached) (remote : Bool),
    let w := accessBytes f
    let operand (a : BufferAccess) (e : Env) (j : Nat) : Reached :=
      if remote then reachRemote e f.c.toNat ((e.reg j f.b).toNat + f.imm.toInt) w a
      else reachBuffer e f.c.toNat ((e.reg j f.b).toNat + f.imm.toInt) w a
    let dests (e : Env) (ls : List Nat) (j : Nat) : List Place :=
      e.destsOf (ls.filter fun k => (reach k).arrives) j f.d (w == 8)
    Acts (if remote then .ldsr f else .lds f) f
      (fun e ls => ∀ j ∈ ls, operand .read e j = reach j)
      (fun e ls => inOrder ls fun j s => match reach j with
        | .scratch spot => s.addReads e j spot w (f.mod.getLsbD 2) (e.g.lane j).stale (dests e ls j)
        | _ => s)
      (fun e ls j => match reach j with
        | .scratch _ => { places := dests e ls j, waits := requestsOf w, joint := true }
        | r => stopped r) ∧
    Acts (if remote then .stsr f else .sts f) f
      (fun e ls => ∀ j ∈ ls, operand .write e j = reach j)
      (fun e ls => inOrder ls fun j s => match reach j with
        | .scratch spot => s.addWrites e j spot w (e.storedValue j f.a w)
        | _ => s)
      (fun _ _ j => match reach j with
        | .scratch _ => {}
        | r => stopped r)

/-- R192, R193: the requests of one instruction. Two lanes that read the same 4-byte word make one request between them, two that read
different words one each; an 8-byte access makes two requests, of the word and of the next; writes likewise, a word's bytes in lane
order. -/
def Sys2Proof.Machine.OneRequestPerWord : Prop :=
  ∀ (s : State) (e : Env) (slice : Spot) (j k a b w : Nat) (stale : Option Nat) (ds es : List Place),
    s.now = e.s.now → (∀ o ∈ s.ops, o.gid = e.g.id → o.issued ≠ e.s.now) → j ≠ k → w = 1 ∨ w = 2 ∨ w = 4 → a % w = 0 → b % w = 0 →
    let at' (x : Nat) : Spot := { slice with offset := x }
    let spot (x : Nat) : Spot := at' (x / 4 * 4)
    let reading (lane x : Nat) (ds : List Place) : Reading :=
      { lane, inner := x % 4, bytes := w, signed := false, dests := ds.take 1, stale }
    let two := (s.addReads e j (at' a) w false stale ds).addReads e k (at' b) w false stale es
    let put := (s.addWrites e j (at' a) w 5).addWrites e k (at' b) w 6
    (a / 4 = b / 4 →
      (∃ o, two.ops = s.ops ++ [o] ∧ o.gid = e.g.id ∧ o.lanes = [j, k] ∧
        o.access = .read (spot a) [reading j a ds, reading k b es]) ∧
      ∃ o, put.ops = s.ops ++ [o] ∧ o.gid = e.g.id ∧ o.lanes = [j, k] ∧ o.access = .write (spot a)
        ((leBytes w 5).mapIdx (fun i x => (a + i, x)) ++ (leBytes w 6).mapIdx fun i x => (b + i, x))) ∧
    (a / 4 ≠ b / 4 →
      (∃ o p, two.ops = s.ops ++ [o, p] ∧ o.lanes = [j] ∧ p.lanes = [k] ∧ o.access = .read (spot a) [reading j a ds] ∧
        p.access = .read (spot b) [reading k b es]) ∧
      ∃ o p, put.ops = s.ops ++ [o, p] ∧ o.lanes = [j] ∧ p.lanes = [k] ∧
        o.access = .write (spot a) ((leBytes w 5).mapIdx fun i x => (a + i, x)) ∧
        p.access = .write (spot b) ((leBytes w 6).mapIdx fun i x => (b + i, x))) ∧
    (a % 8 = 0 → ∃ o p, (s.addReads e j (at' a) 8 false stale ds).ops = s.ops ++ [o, p] ∧ o.lanes = [j] ∧ p.lanes = [j] ∧
      (o.span.map fun x => x.2) = some (a, 4) ∧ (p.span.map fun x => x.2) = some (a + 4, 4))

/-- R192 to R194, R205, R214: LDS, STS, LDSR and STSR, and one request for a word. -/
def Obligations.ScratchpadLoadsAndStores : Prop := Sys2Proof.Machine.ScratchpadLoadsAndStores ∧
  Sys2Proof.Machine.OneRequestPerWord

namespace Sys2Proof.Machine

/-- The table of R200 for stream (kind 1) and tagged (kind 2) buffers: whether an access of w bytes at offset o is legal in a state, 0 EMPTY,
1 FILLING, 2 FULL, 3 DRAINING, under a write pointer and ENG. -/
def tableAllows (kind state wp : Nat) (eng : Bool) (a : BufferAccess) (o w : Nat) : Prop :=
  match a with
  | .read => (state = 1 ∧ kind = 1 ∧ o + w ≤ wp) ∨ state = 2 ∨ state = 3
  | .write => state = 0 ∨ (state = 1 ∧ kind = 1 ∧ eng = false ∧ wp ≤ o) ∨ (state = 2 ∧ kind = 2)
  | .atomic => state = 2 ∧ kind = 2
  | .barrier => state = 2 ∧ kind = 2
  | .engineWrite => state = 0 ∨ (state = 2 ∧ kind = 2)
  | .engineRead => state = 2
  | .matrixRead => state = 2 ∨ state = 3
  | .tag => state = 2 ∧ kind = 2

end Sys2Proof.Machine

/-- R197, R198, R200: a buffer operand is checked for a declared buffer, its bounds, alignment and the legality table, in this
order, each with its fault; that Misaligned puts the offset into ADDR is the model's choice (DESIGN CHOICE, log 29). On a plain buffer every access is legal but a tag operation; on the others the table holds. -/
def Sys2Proof.Machine.BufferOperandsAreChecked : Prop :=
  ∀ (t : Team) (n : Nat) (o : Int) (w : Nat) (a : BufferAccess),
    let d := t.buffer n
    (descV d = false → checkBuffer t n o w a = .error (bufferFault bufferState d n a o 0)) ∧
    (descV d = true → (o < 0 ∨ (descSize d : Int) < o + w) →
      checkBuffer t n o w a = .error (bufferFault bufferBounds d n a o 0)) ∧
    (descV d = true → 0 ≤ o → o + w ≤ descSize d → o % w ≠ 0 →
      checkBuffer t n o w a = .error { kind := misaligned, addr := BitVec.ofInt 64 o, info := a.info }) ∧
    (descV d = true → 0 ≤ o → o + w ≤ descSize d → o % w = 0 →
      (descKind d = 0 → a ≠ .tag → checkBuffer t n o w a = .ok (descBase d + o.toNat)) ∧
      (descKind d = 0 → a = .tag → checkBuffer t n o w a = .error (bufferFault bufferState d n a o 0)) ∧
      (descKind d = 1 ∨ descKind d = 2 →
        (tableAllows (descKind d) (descState d) (descWp d) (descEng d) a o.toNat w →
          checkBuffer t n o w a = .ok (descBase d + o.toNat)) ∧
        (¬tableAllows (descKind d) (descState d) (descWp d) (descEng d) a o.toNat w →
          checkBuffer t n o w a = .error (bufferFault bufferState d n a o 0))))

namespace Sys2Proof.Machine

/-- The record fields of a BufferState or BufferBounds fault of BDECL or BSET (R198, R339). -/
def tableRecord (kind : Nat) (d : DWord) (n asked : Nat) : FaultInfo :=
  { kind, info := BitVec.ofNat 32 (n + 256 * descState d + 1024), aux := BitVec.ofNat 64 asked,
    aux2 := BitVec.ofNat 64 (descWp d) }

/-- Whether an entry of the buffer table may be declared anew: undeclared, or held by no engine and a plain one or empty (R215). -/
def redeclares (d : DWord) : Prop := descV d = true → descEng d = false ∧ (descKind d = 0 ∨ descState d = 0)

end Sys2Proof.Machine

/-- R202, R203, R215 to R217: the buffer table. BDECL declares or drops an entry with the lowest lane's descriptor, BSET sets
state and write pointer once the accesses before it are performed, BQRY owes a field of the entry; an entry in use, a descriptor that
cannot be declared and a state that cannot be set fault. -/
def Sys2Proof.Machine.BufferTable : Prop :=
  ∀ f : Fields,
    let n := f.c.toNat
    (f.mod.getLsbD 0 = false → Completes (.bdecl f) f
      (fun e ls => ls ≠ [] ∧ redeclares (e.t.buffer n) ∧ e.s.declarable e.t n (e.pair (ls.headD 0) f.a) = true)
      (fun e ls s => s.mapTeam e.t.id fun t =>
        { t with buffers := sput 0 t.buffers n (e.pair (ls.headD 0) f.a ||| 0x08000000#64),
                 tags := t.tags.filter fun x => x.1 / 4096 != n })
      fun e ls => e.passed ls) ∧
    (f.mod.getLsbD 0 = true → Completes (.bdecl f) f (fun e ls => ls ≠ [] ∧ redeclares (e.t.buffer n))
      (fun e _ s => s.mapTeam e.t.id fun t =>
        { t with buffers := sput 0 t.buffers n 0, tags := t.tags.filter fun x => x.1 / 4096 != n })
      fun e ls => e.passed ls) ∧
    Acts (.bdecl f) f (fun e ls => ls ≠ [] ∧ ¬redeclares (e.t.buffer n)) (fun _ _ s => s)
      (fun e _ _ => { fault := some (tableRecord bufferState (e.t.buffer n) n 0), together := true }) ∧
    (f.mod.getLsbD 0 = false → Acts (.bdecl f) f
      (fun e ls => ls ≠ [] ∧ redeclares (e.t.buffer n) ∧ e.s.declarable e.t n (e.pair (ls.headD 0) f.a) = false) (fun _ _ s => s)
      fun _ _ _ => { fault := some { kind := bufferDecl, info := BitVec.ofNat 32 (n + 1024) }, together := true }) ∧
    (∀ wp, Completes (.bset f) f
      (fun e ls => ls ≠ [] ∧ descV (e.t.buffer n) = true ∧ descEng (e.t.buffer n) = false ∧
        bsetWp (e.t.buffer n) (f.mod.toNat % 4) (e.reg (ls.headD 0) f.b).toNat = some wp)
      (fun e _ s => (s.settleBuffer e.t.id n).mapTeam e.t.id fun t =>
        t.setBuffer n (withWp (withState (e.t.buffer n) (f.mod.toNat % 4)) wp))
      fun e ls => e.passed ls) ∧
    Acts (.bset f) f (fun e ls => ls ≠ [] ∧ (descV (e.t.buffer n) = false ∨ descEng (e.t.buffer n) = true)) (fun _ _ s => s)
      (fun e ls _ => { fault := some (tableRecord bufferState (e.t.buffer n) n
        (if f.mod.toNat % 4 = 1 then (e.reg (ls.headD 0) f.b).toNat else 0)), together := true }) ∧
    Acts (.bset f) f
      (fun e ls => ls ≠ [] ∧ descV (e.t.buffer n) = true ∧ descEng (e.t.buffer n) = false ∧
        bsetWp (e.t.buffer n) (f.mod.toNat % 4) (e.reg (ls.headD 0) f.b).toNat = none) (fun _ _ s => s)
      (fun e ls _ => { fault := some (tableRecord bufferBounds (e.t.buffer n) n (e.reg (ls.headD 0) f.b).toNat),
                       together := true }) ∧
    (∀ (d : DWord) (state v : Nat), state < 4 →
      (descKind d ≠ 1 → bsetWp d state v = some 0) ∧
      (descKind d = 1 →
        (state = 0 → bsetWp d state v = some 0) ∧ (state = 2 → bsetWp d state v = some (descSize d)) ∧
        (state = 3 → bsetWp d state v = some (descWp d)) ∧
        (state = 1 → bsetWp d state v =
          if v % 4 = 0 ∧ v ≤ descSize d ∧ (descState d = 1 → descWp d ≤ v) then some v else none))) ∧
    (f.mod = 0 ∨ f.mod = 1 ∨ f.mod = 3 → Owes (.bqry f) f fun e j =>
      let d := e.t.buffer n
      e.setReg j f.d (BitVec.ofNat 32 (
        if descV d = false then 0
        else if f.mod = 0 then descWp d
        else if f.mod = 1 then descState d + (if descEng d then 4 else 0)
        else if descKind d = 2 then ((List.range (descSlots d)).filter fun i => (e.t.tag n i).isSome).length else 0))) ∧
    (f.mod = 2 → Owes (.bqry f) f fun e j => e.setPair j f.d (if descV (e.t.buffer n) then e.t.buffer n else 0))

/-- R197 to R203, R215 to R217: the checks of a buffer operand in the order of the rule, and the buffer table instructions. What it
says that the rules leave open is the model's choice, log 29. -/
def Obligations.BufferTableAndChecks : Prop := Sys2Proof.Machine.BufferOperandsAreChecked ∧
  Sys2Proof.Machine.BufferTable

/-- R200, R203, R218 to R220: tagged buffers. On a buffer that is not a declared, full tagged one each lane faults. Otherwise TLOOK owes the
slot that holds the tag, a free slot or a victim; TINST, lane by lane, installs a tag in a slot of its set and clears it elsewhere, and
faults on another slot; TDROP clears a slot of the buffer, or the one that holds a tag. -/
def Sys2Proof.Machine.TaggedBuffers : Prop :=
  ∀ f : Fields,
    let n := f.c.toNat
    let fault (e : Env) (kind o : Nat) : LaneOut :=
      { fault := some (bufferFault kind (e.t.buffer n) n .tag o 0) }
    let usable (e : Env) : Prop := descV (e.t.buffer n) = true ∧ descKind (e.t.buffer n) = 2 ∧ descState (e.t.buffer n) = 2
    let outside (e : Env) (j : Nat) : Prop := descSlots (e.t.buffer n) ≤ (e.reg j f.a).toNat
    let strange (e : Env) (j : Nat) : Prop := (e.reg j f.a).toNat ∉ slotsOfTag (e.t.buffer n) (e.reg j f.b)
    (∀ i, i = .tlook f ∨ i = .tinst f ∨ i = .tdrop f →
      Acts i f (fun e _ => ¬usable e) (fun _ _ s => s) fun e _ _ => fault e bufferState 0) ∧
    Completes (.tlook f) f (fun e _ => usable e) (fun _ _ s => s)
      (fun e ls => e.awaiting f.la.toNat ls fun j => { writes := e.setReg j f.d (lookup e.s.now e.t n (e.reg j f.a)) }) ∧
    Acts (.tinst f) f (fun e _ => usable e)
      (fun e ls => inOrder ls fun j s => if outside e j ∨ strange e j then s
        else s.mapTeam e.t.id fun t => t.installTag n (e.reg j f.a).toNat (e.reg j f.b))
      (fun e _ j => if outside e j then fault e bufferBounds (e.reg j f.a).toNat
        else if strange e j then { fault := some { kind := tagSet } } else {}) ∧
    (f.mod.getLsbD 0 = false → Acts (.tdrop f) f (fun e _ => usable e)
      (fun e ls => inOrder ls fun j s => if outside e j then s
        else s.mapTeam e.t.id fun t => t.setTag n (e.reg j f.a).toNat none)
      fun e _ j => if outside e j then fault e bufferBounds (e.reg j f.a).toNat else {}) ∧
    (f.mod.getLsbD 0 = true → Completes (.tdrop f) f (fun e _ => usable e)
      (fun e ls => inOrder ls fun j s => s.mapTeam e.t.id fun t =>
        match (slotsOfTag (t.buffer n) (e.reg j f.a)).find? fun i => t.tag n i == some (e.reg j f.a) with
        | some i => t.setTag n i none
        | none => t)
      fun e ls => e.passed ls)

/-- R203, R218, R219: what TLOOK finds and what TINST leaves. Bit 31 says that the tag was not there, with the lowest invalid slot of its
set, bit 30 that no slot of the set is invalid either. After TINST the slot holds the tag, and no other slot of its set does. -/
def Sys2Proof.Machine.TagLookup : Prop :=
  (∀ (now : Nat) (t : Team) (n : Nat) (tag : Word), descSlots (t.buffer n) ≠ 0 →
    let set := slotsOfTag (t.buffer n) tag
    ((∃ i ∈ set, t.tag n i = some tag) →
      ∃ i ∈ set, t.tag n i = some tag ∧ lookup now t n tag = BitVec.ofNat 32 i) ∧
    ((∀ i ∈ set, t.tag n i ≠ some tag) → (∃ i ∈ set, t.tag n i = none) →
      ∃ i ∈ set, t.tag n i = none ∧ (∀ k ∈ set, k < i → t.tag n k ≠ none) ∧
        lookup now t n tag = BitVec.ofNat 32 (0x80000000 + i)) ∧
    ((∀ i ∈ set, t.tag n i ≠ some tag) → (∀ i ∈ set, t.tag n i ≠ none) →
      lookup now t n tag = BitVec.ofNat 32
        (0xC0000000 + tag.toNat % (descSlots (t.buffer n) / descWays (t.buffer n)) * descWays (t.buffer n)))) ∧
  ∀ (t : Team) (n i k : Nat) (tag : Word), n < 32 → i < 4096 → k < 4096 →
    let t' := t.installTag n i tag
    t'.tag n i = some tag ∧ (k ≠ i → k ∈ slotsOfTag (t.buffer n) tag → t.tag n k = some tag → t'.tag n k = none) ∧
      (k ≠ i → k ∉ slotsOfTag (t.buffer n) tag ∨ t.tag n k ≠ some tag → t'.tag n k = t.tag n k)

/-- R203, R218 to R220: TINST, TDROP and TLOOK over the tags of a buffer. -/
def Obligations.TaggedBufferTable : Prop := Sys2Proof.Machine.TaggedBuffers ∧
  Sys2Proof.Machine.TagLookup

/-- R207, R208, R211, R221: ATOM, ATCAS and RED, each lane by where its address leads: a request to the home or the bank of its word; the
first two owe the old value. A ranked RED becomes a contribution with its rank and count. -/
def Sys2Proof.Machine.AtomicsBecomeRequests : Prop :=
  ∀ (f : Fields) (reach : Nat → Reached),
    let wide := f.mod.getLsbD 4
    let w := if wide then 8 else 4
    let operand (e : Env) (j : Nat) (n : BitVec 7) : DWord := if wide then e.pair j n else (e.reg j n).setWidth 64
    let dests (e : Env) (ls : List Nat) (j : Nat) : List Place := e.destsOf (ls.filter fun k => (reach k).arrives) j f.d (w == 8)
    let asks (e : Env) (j op control : Nat) (swap : DWord) (pend : Option Nat) (ds : List Place) (s : State) : State :=
      reachEffect e j (reach j) (match reach j with
        | .memory place _ => s.addOp e j pend (e.address f j) (.atomic place op control wide (operand e j f.b) swap ds)
        | .scratch spot => s.addOp e j pend (e.address f j) (.localAtomic spot op control wide (operand e j f.b) swap ds)
        | _ => s)
    let rank (e : Env) (j : Nat) : Nat := (e.reg j f.c).toNat % 2 ^ 12
    let count (e : Env) (j : Nat) : Nat := (e.reg j f.c).toNat / 2 ^ 16 % 2 ^ 12 + 1
    (∀ i, i = .atom f ∨ i = .atcas f → Acts i f (fun e ls => ∀ j ∈ ls, reachAtomic e f j (e.address f j) w w false = reach j)
      (fun e ls => inOrder ls fun j => asks e j
        (if i = .atcas f then 16 else f.mod.toNat % 16) (if i = .atcas f then 0 else f.mod.toNat / 32)
        (if i = .atcas f then operand e j f.c else 0) (some e.pid) (dests e ls j))
      fun e ls j => if (reach j).arrives = true then { places := dests e ls j, waits := 1, joint := true } else stopped (reach j)) ∧
    (f.d ≠ 1 → Acts (.red f) f (fun e ls => ∀ j ∈ ls, reachRed e f j (e.address f j) w = reach j)
      (fun e ls => inOrder ls fun j => asks e j (f.mod.toNat % 16) (f.mod.toNat / 32) 0 none [])
      fun _ _ j => if (reach j).arrives = true then {} else stopped (reach j)) ∧
    (f.d = 1 → Acts (.red f) f (fun e ls => ∀ j ∈ ls, reachRed e f j (e.address f j) w = reach j)
      (fun e ls => inOrder ls fun j s => match reach j with
        | .memory place page =>
          (s.addOp e j none (e.address f j) (.ranked e.t.ctx place (f.mod.toNat % 16) (f.mod.toNat / 32) w (rank e j) (count e j)
            (placed place (leBytes w (operand e j f.b).toNat)))).reload e.g.id j e.g.core page
        | r => reachEffect e j r s)
      fun _ _ j => if (reach j).arrives = true then {} else stopped (reach j))

/-- R208, R211, R221, R37: the checks of an atomic after those of its address. One whose scope is below the least that its address class
accepts raises AtomicScope: 2 for the team's scratchpad, 3 for a cluster window, 4 for this device's HBM and peat tier, 6 for host
memory and other devices. A ranked RED whose rank is not below its count then raises RankInvalid. The home is judged last. -/
def Sys2Proof.Machine.AtomicScopes : Prop :=
  ∀ (e : Env) (f : Fields) (j : Nat) (a : DWord) (w : Nat) (only : Bool),
    let r := reachAddress e j a w w 3 only
    let checked := reachAtomic e f j a w w only
    let bad : FaultInfo := { kind := atomicScope, addr := a }
    let least (place : Nat) : Nat := if e.s.isLocal place = false ∨ targetOf place = .host then 6 else 4
    let goesHome (place : Nat) (page : PageEntry) (x : Reached) : Prop :=
      (e.s.home place = .ready → x = .memory place page) ∧ (e.s.home place = .waiting → x = .notReady place page) ∧
      (e.s.home place = .failed → x = .failed (addressed accessViolation a 3) page)
    (r.arrives = false → checked = r) ∧
    (∀ place page, r = .memory place page →
      (f.sc.toNat < least place → checked = .failed bad page) ∧ (least place ≤ f.sc.toNat → goesHome place page checked)) ∧
    (∀ spot, r = .scratch spot →
      (∀ o, e.s.classOf e.t a = .scratchpad o → checked = if 2 ≤ f.sc.toNat then r else .fault bad) ∧
      ∀ rank o, e.s.classOf e.t a = .window rank o → checked = if 3 ≤ f.sc.toNat then r else .fault bad) ∧
    (f.d ≠ 1 → only = false → reachRed e f j a w = checked) ∧
    (f.d = 1 → only = true →
      (r.arrives = false → reachRed e f j a w = r) ∧
      ∀ place page, r = .memory place page →
        let v := (e.reg j f.c).toNat
        (f.sc.toNat < least place → reachRed e f j a w = .failed bad page) ∧
        (least place ≤ f.sc.toNat → v / 2 ^ 16 % 2 ^ 12 + 1 ≤ v % 2 ^ 12 →
          reachRed e f j a w = .failed { kind := rankInvalid, addr := a } page) ∧
        (least place ≤ f.sc.toNat → v % 2 ^ 12 < v / 2 ^ 16 % 2 ^ 12 + 1 → goesHome place page (reachRed e f j a w)))

/-- R209: the integer operations of atomics on n-bit values, n 32 or 64: o the old value, v the operand, x the swap value. -/
def Sys2Proof.Machine.AtomicOperations : Prop :=
  ∀ n o v x control : Nat, n = 32 ∨ n = 64 → o < 2 ^ n → v < 2 ^ n →
    let signedOf (k : Nat) : Int := if k < 2 ^ (n - 1) then k else (k : Int) - 2 ^ n
    atomicResult 0 control n o v x = (o + v) % 2 ^ n ∧
    signedOf (atomicResult 1 control n o v x) = min (signedOf o) (signedOf v) ∧
    signedOf (atomicResult 2 control n o v x) = max (signedOf o) (signedOf v) ∧
    atomicResult 3 control n o v x = min o v ∧ atomicResult 4 control n o v x = max o v ∧
    atomicResult 5 control n o v x = Nat.land o v ∧ atomicResult 6 control n o v x = Nat.lor o v ∧
    atomicResult 7 control n o v x = Nat.xor o v ∧ atomicResult 8 control n o v x = v ∧
    (o < v → atomicResult 9 control n o v x = o + 1) ∧ (v ≤ o → atomicResult 9 control n o v x = 0) ∧
    (0 < o → o ≤ v → atomicResult 10 control n o v x = o - 1) ∧ (o = 0 ∨ v < o → atomicResult 10 control n o v x = v) ∧
    (o = v → atomicResult 16 control n o v x = x) ∧ (o ≠ v → atomicResult 16 control n o v x = o)

namespace Sys2Proof.Machine

/-- A sum at memory (R210): RNE, the old value the first operand, under .fz, .cn and .si of a control field. -/
def sumAtMemory (ft : FloatFormat) (control o v : Nat) : Nat :=
  let m : FpMode := { cnan := control.testBit 1, foz := control.testBit 0, fiz := control.testBit 0, rm := .rne }
  let r := floatResult ft m [o, v] (adds m)
  let finite (c : Nat) : Prop := ft.magnitude c < ft.infCode
  if control.testBit 2 = true ∧ finite o ∧ finite v ∧ ft.magnitude r = ft.infCode then ft.withSign (ft.sign r) ft.maxCode else r

end Sys2Proof.Machine

/-- R209, R210: the float operations of atomics: .fadd, .fmin and .fmax in F32 or FP64 by the width, .hadd2 and .badd2 on the halves of a
word. -/
def Sys2Proof.Machine.AtomicFloatOperations : Prop :=
  ∀ n o v x control : Nat, n = 32 ∨ n = 64 → o < 2 ^ n → v < 2 ^ n →
    let ft := if n = 64 then f64 else f32
    let m : FpMode := { cnan := control.testBit 1, foz := false, fiz := control.testBit 0, rm := .rne }
    atomicResult 11 control n o v x = sumAtMemory ft control o v ∧
    atomicResult 12 control n o v x = extremeOf ft m false false o v ∧
    atomicResult 13 control n o v x = extremeOf ft m true false o v ∧
    (n = 32 → ∀ op hf, (op = 14 ∧ hf = f16) ∨ (op = 15 ∧ hf = bf16) → atomicResult op control n o v x =
      sumAtMemory hf control (o % 2 ^ 16) (v % 2 ^ 16) + 2 ^ 16 * sumAtMemory hf control (o / 2 ^ 16) (v / 2 ^ 16))

/-- R207 to R211, R221: atomics become requests to the home of their word, and what each operation makes of the word. -/
def Obligations.AtomicsActOnTheirWords : Prop := Sys2Proof.Machine.AtomicsBecomeRequests ∧
  Sys2Proof.Machine.AtomicScopes ∧
  Sys2Proof.Machine.AtomicOperations ∧
  Sys2Proof.Machine.AtomicFloatOperations

/-! ## Control flow, frames and masks (R66 to R118) -/

namespace Sys2Proof.Machine

/-- Whether a line's words keep the rules of R67 about KIND and about START, TARGET and lengths. -/
def Line.kindZero (l : Line) : Prop := (l.word 1).toNat / 2 ^ 30 = 0

def Line.framed (l : Line) : Prop :=
  (l.word 0).toNat / 2 ^ 30 = 0 ∧ l.start 0 = true ∧ (∀ i, i < 30 → l.target i = true → l.start i = true) ∧
    ∀ i, i < 30 → l.start i = true → ∀ m, 0 < m → i + m ≤ 30 → (i + m = 30 ∨ l.start (i + m) = true) →
      (∀ k, 0 < k → k < m → l.start (i + k) = false) →
      m ≤ 3 ∧ (m = 1 → (majorOf (l.word (2 + i))).toNat < 0x18) ∧
        (m = 2 → 0x18 ≤ (majorOf (l.word (2 + i))).toNat →
          hasImmediate (majorOf (l.word (2 + i))).toNat (minorOf (l.word (3 + i))).toNat = false)

/-- Whether an address is a target that a check admits (R68): a slot of its line, with its TARGET bit set where one is asked for, slot 0
for a call or an ember. -/
def Line.admits (l : Line) (p : DWord) (check : TargetCheck) : Prop :=
  match check with
  | .none => (slotOf p).isSome = true
  | .branch => ∃ i, slotOf p = some i ∧ l.target i = true
  | .call => slotOf p = some 0 ∧ l.target 0 = true

/-- The line of a target read for a lane (R67, R70, R168): one read stands in the core's instruction cache, an absent page is asked for,
and a place on another device that cannot be reached is a request that may time out. -/
def Env.fetches (e : Env) (j : Nat) (target : DWord) (s : State) : State :=
  match e.s.transfer e.t.ctx e.g.core (e.g.lane j) target .none with
  | .ok line => s.cacheLine e.t.ctx e.g.core line
  | .absent => s.requestMove e.t.ctx (lineBase target)
  | .waits place => s.blockedAt e.g j target place
  | .bad _ => s

/-- What becomes of a lane that transfers to a target (R67): it goes there, with a change of its frame, or parks, waits or faults with
none of that effect. -/
def Env.goes (e : Env) (j : Nat) (target : DWord) (check : TargetCheck) (change : Lane → Lane) : LaneOut :=
  match e.s.transfer e.t.ctx e.g.core (e.g.lane j) target check with
  | .ok line => { change, flow := .jump target (.held line) }
  | .absent => { flow := .park (.page (lineBase target)) }
  | .waits place => { flow := .wait (.home place) none }
  | .bad i => { fault := some i, together := true }

/-- A call opens the callee's frame above the caller's outs and saves a link entry (R107). -/
def opensCall (m : Nat) (l : Lane) : Lane :=
  { l with links := sput 0 l.links (l.depth + 1) (makeLink (l.n / 16) l.k (nextPC l.pc m)), depth := l.depth + 1,
           fp := l.fp + 16 + l.n, n := 0, k := 0, hi := l.fp + 32 + l.n }

/-- An illegal instruction of a lane by itself. -/
def illegal : LaneOut := { fault := some { kind := illegalInstruction } }

end Sys2Proof.Machine

/-- R67, R68, R106: where a transfer of a thread leads that does not hold the line of its target. Bits [63:56] of the address must be zero;
a page without mapping or execute permission gives AccessViolation, an absent one parks; the line's KIND, its frame and the target's
address are checked in this order, each with its fault; what passes is entered. That a line which the thread holds is not read again, and
where the fault of a line stands, are the model's choices (DEDUCED, log 20). -/
def Sys2Proof.Machine.TargetsAreChecked : Prop :=
  ∀ (s : State) (c core : Nat) (l : Lane) (p : DWord) (check : TargetCheck),
    let bad (kind : Nat) : LineEntry := .bad { kind, addr := p }
    let judged (r : LineEntry) (line : Line) : Prop :=
      (¬line.kindZero → r = bad lineKind) ∧ (line.kindZero → ¬line.framed → r = bad lineFrame) ∧
      (line.kindZero → line.framed → (line.admits p check → r = .ok line) ∧
        (¬line.admits p check → r = bad (if check = .none then lineFrame else branchTarget)))
    (∀ line, l.fetch = .held line → line.base = lineBase p → p.toNat < 2 ^ 56 → judged (s.transfer c core l p check) line) ∧
    ((∀ line, l.fetch = .held line → line.base ≠ lineBase p) →
      (2 ^ 56 ≤ p.toNat → s.transfer c core l p check = bad branchTarget) ∧
      (p.toNat < 2 ^ 56 →
        (s.translate c core none (lineBase p) 2 = .denied →
          s.transfer c core l p check = .bad { kind := accessViolation, addr := p, info := 2 }) ∧
        (s.translate c core none (lineBase p) 2 = .absent → s.transfer c core l p check = .absent) ∧
        ∀ place page, s.translate c core none (lineBase p) 2 = .ok place page →
          (∀ line, ((s.core core).icache.find? fun x => x.1 == lineKey (s.ctx c).asid p place) = some (lineKey (s.ctx c).asid p place, line) →
            judged (s.transfer c core l p check) line) ∧
          (((s.core core).icache.find? fun x => x.1 == lineKey (s.ctx c).asid p place) = none → s.home place = .ready →
            judged (s.transfer c core l p check) { base := lineBase p, words := s.lineWords place })))

/-- R64, R67, R106: BRA and BRX send every guarded lane to its own target, at the byte offset of the immediate from the instruction or
in pair A, where the line passes its checks; the others of them fault, wait or park at the instruction. -/
def Sys2Proof.Machine.BranchesGoToTheirTargets : Prop :=
  ∀ (f : Fields) (i : Instr) (target : Env → Nat → DWord),
    (i = .bra f ∧ target = (fun e j => (e.g.lane j).pc + f.imm.signExtend 64)) ∨ (i = .brx f ∧ target = fun e j => e.pair j f.a) →
    Acts i f (fun _ _ => True) (fun e ls => inOrder ls fun j => e.fetches j (target e j))
      fun e _ j => e.goes j (target e j) .branch id

/-- R67 to R69, R106: the checks of a target, and the branches. What it says that the rules leave open is the model's choice, log
20. -/
def Obligations.BranchesGoToTheirTargets : Prop := Sys2Proof.Machine.TargetsAreChecked ∧
  Sys2Proof.Machine.BranchesGoToTheirTargets

/-- R99, R107: CALL and CALLX, lane by lane: IllegalInstruction before the frame has its ENTER, StackOverflow where the callee's frame would
pass KMAX, otherwise the callee's frame and the target, where its line passes. That these two faults come before the checks of the target
is the order of R107, the model's choice (DEDUCED, log 19). -/
def Obligations.CallsOpenFrames : Prop :=
  ∀ (f : Fields) (i : Instr) (target : Env → Nat → DWord),
    (i = .call f ∧ target = (fun e j => (e.g.lane j).pc + f.imm.signExtend 64)) ∨ (i = .callx f ∧ target = fun e j => e.pair j f.a) →
    let deep (e : Env) (j : Nat) : Prop := e.g.kmax < (e.g.lane j).fp + (e.g.lane j).n + 48
    Acts i f (fun _ _ => True)
      (fun e ls => inOrder ls fun j s => if (e.g.lane j).n = 0 ∨ deep e j then s else e.fetches j (target e j) s)
      fun e _ j => if (e.g.lane j).n = 0 then illegal
        else if deep e j then { fault := some { kind := stackOverflow } }
        else e.goes j (target e j) .call (opensCall e.m)

/-- R97, R108, R263: RET, lane by lane. At depth 0 it is EXIT; on a trap link it is illegal; with the caller's frame resident the frame closes and
the lane goes to the return address; otherwise the lane waits for the refill of that frame, releasing its own frame's registers first where
the ring would not hold both. -/
def Obligations.ReturnsCloseFrames : Prop :=
  ∀ f : Fields,
    let back (l : Lane) : DWord := l.link l.depth
    let base (l : Lane) : Nat := l.fp - 16 - 16 * linkNq (back l)
    let leaves (e : Env) (j : Nat) : Prop := (e.g.lane j).depth = 0
    let trap (e : Env) (j : Nat) : Prop := linkNq (back (e.g.lane j)) = 0
    let resident (e : Env) (j : Nat) : Prop :=
      let l := e.g.lane j
      l.lo ≤ base l ∧ (l.depth ≤ 1 ∨ l.linkLo ≤ l.depth - 1)
    ActsThen (.ret f) f (fun e _ => e.quiet)
      (fun e ls s =>
        let r := inOrder ls (fun j r => if leaves e j ∨ trap e j ∨ ¬resident e j then r
          else e.fetches j (linkRpc (back (e.g.lane j))) r) s
        if ∃ j ∈ ls, leaves e j then
          r.mapGroup e.g.id fun g => g.clearMaskBits (ls.filter fun j => decide (leaves e j)) s.clk.toNat
        else r)
      (fun e _ j =>
        if leaves e j then { flow := .exit } else if trap e j then illegal
        else if resident e j then e.goes j (linkRpc (back (e.g.lane j))) .none fun l => l.closeFrame e.g
        else
          { change := fun l => if l.hi - base (e.g.lane j) ≤ e.g.budget then l else l.releaseFrame e.g.budget e.s.now j,
            flow := .wait (.refill (base (e.g.lane j)) ((e.g.lane j).depth - 1)) none })
      fun gid s => s.afterExit gid

/-- R263: a release keeps the outs of the caller, a0 to a15 of the closing frame, and every register below them that is resident;
hi comes down to fp + 16. -/
def Sys2Proof.Machine.ReleaseKeepsTheOuts : Prop :=
  ∀ (l : Lane) (budget now j x : Nat), l.lo ≤ x → x < l.fp + 16 → l.hi - l.lo ≤ budget →
    (l.releaseFrame budget now j).hi = l.fp + 16 ∧
    sget 0 (l.releaseFrame budget now j).ring (x % budget) = sget 0 l.ring (x % budget)

/-- R87, R97, R108, R263: the frame that RET returns to has the caller's size, window and depth, and the closed frame's ins stay resident,
after a release of its other registers too; one more frame is refilled in the background where R97 says so. -/
def Sys2Proof.Machine.ClosedFrame : Prop :=
  ReleaseKeepsTheOuts ∧ ∀ (l : Lane) (g : Group),
    let r := l.closeFrame g
    r.fp = l.fp - 16 - 16 * linkNq (l.link l.depth) ∧ r.n = 16 * linkNq (l.link l.depth) ∧ r.k = linkWk (l.link l.depth) ∧
      r.depth = l.depth - 1 ∧ r.hi = l.fp + 16 ∧ r.ring = l.ring ∧ r.links = l.links ∧ r.lo = l.lo ∧ r.preds = l.preds ∧
      (r.background = true ↔ r.fp - r.lo < 16 * g.rfwm ∧ r.lowDepth ≠ 0 ∧
        16 * max 1 g.spwm + (r.hi - frameBelow r.lo (r.link r.lowDepth)) ≤ g.budget)

/-- R107, R108: a call followed by the matching return restores the caller's frame: base, size, window and depth. -/
def Sys2Proof.Machine.ReturnUndoesCall : Prop :=
  ∀ (l : Lane) (g : Group) (m : Nat), l.n % 16 = 0 → 0 < l.n → l.n < 256 → l.k < 16 → (nextPC l.pc m).toNat < 2 ^ 56 →
    let r := (opensCall m l).closeFrame g
    r.fp = l.fp ∧ r.n = l.n ∧ r.k = l.k ∧ r.depth = l.depth ∧ linkRpc ((opensCall m l).link (l.depth + 1)) = nextPC l.pc m

/-- R87, R116, R118: the resident frames of a lane, the current one first, each found from the link entry of the one above it, down to
the frame of depth 0 or to the first that begins at or below lo; and what FFILL q still has to refill. -/
def Sys2Proof.Machine.ResidentFrames : Prop :=
  ∀ (l : Lane),
    l.frames.head? = some (l.fp, l.depth) ∧
    (∀ i a d b c, l.frames[i]? = some (a, d) → l.frames[i + 1]? = some (b, c) → l.lo < a ∧ d = c + 1 ∧
      b = (let e := (l.link d).toNat
           if e / 2 ^ 60 ≠ 0 then a - 16 - 16 * (e / 2 ^ 60)
           else if e / 2 ^ 56 % 16 = 0 then a - 16 else a - 32 - 16 * (e / 2 ^ 56 % 16))) ∧
    (∀ a d, l.frames.getLast? = some (a, d) → (d = 0 ∨ a ≤ l.lo) ∧ l.lowDepth = d) ∧
    ∀ budget q, let below := frameBelow l.lo (l.link l.lowDepth)
      (q ≤ l.frames.length - 1 ∨ l.lowDepth = 0 ∨ budget < l.hi - below → l.nextFill budget q = none) ∧
      (l.frames.length - 1 < q → l.lowDepth ≠ 0 → l.hi - below ≤ budget → l.nextFill budget q = some (below, l.lowDepth - 1))

/-- R87, R97, R107, R108, R116, R118, R263: the frame a return closes, what a release keeps, a return after a call, and the resident frames. -/
def Obligations.CallAndReturnFrames : Prop := Sys2Proof.Machine.ClosedFrame ∧
  Sys2Proof.Machine.ReturnUndoesCall ∧
  Sys2Proof.Machine.ResidentFrames

/-- R96, R99 to R101, R109 to R111, R116 to R118: ENTER, WIN, EXIT, FDEPTH, FSPILL and FFILL, each lane by its own frame. A request of
FSPILL stands beside one that is not met yet; FFILL waits until the q frames below are resident. -/
def Sys2Proof.Machine.FrameInstructions : Prop :=
  ∀ f : Fields,
    let q := f.b.toNat
    let entered (e : Env) (j : Nat) : LaneOut :=
      let l := e.g.lane j
      if l.n ≠ 0 then illegal
      else if e.g.budget < 32 + 16 * q then { fault := some { kind := frameBudget } }
      else if e.g.kmax < l.fp + 32 + 16 * q then { fault := some { kind := stackOverflow } }
      else if l.fp + 32 + 16 * q - l.lo ≤ e.g.budget then
        { change := fun l => { l with n := 16 * q, k := 0, hi := (e.g.lane j).fp + 32 + 16 * q } }
      else match l.arenaFault with
        | some va => { fault := some { kind := arenaFault, addr := va } }
        | none => { flow := .wait (.spill (l.fp + 32 + 16 * q)) none }
    Acts (.enter f) f (fun _ _ => True)
      (fun e ls s => s.mapGroup e.g.id fun g => g.mapLanes fun j l =>
        if j ∈ ls ∧ (entered e j).fault.map (fun i => i.kind) = some arenaFault then
          { l with arenaFault := none, spillBlocked := false }
        else l)
      (fun e _ j => entered e j) ∧
    Acts (.win f) f (fun _ _ => True) (fun _ _ s => s)
      (fun e _ j => if q = 0 ∨ 16 * q + 63 < (e.g.lane j).n then { change := fun l => { l with k := q } } else illegal) ∧
    CompletesThen (.exit f) f (fun e _ => e.quiet ∧ e.g.sata = false)
      (fun e ls s => s.mapGroup e.g.id fun g => g.clearMaskBits ls s.clk.toNat)
      (fun e ls => e.moved ls fun _ l => { l with status := .exited, pend := [], timer := none })
      (fun _ _ iss s => s.afterExit iss.gid) ∧
    Owes (.fdepth f) f (fun e j =>
      let l := e.g.lane j
      e.setReg j f.d (BitVec.ofNat 32
        (if q = 0 then l.depth else if q = 1 then l.fp else if q = 2 then l.n else if q = 3 then l.k
         else if q = 4 then l.hi - l.lo else if q = 5 then e.g.budget else if q = 6 then e.g.kmax else l.lowDepth))) ∧
    Completes (.fspill f) f (fun _ _ => True) (fun _ _ s => s)
      (fun e ls => e.changed ls fun _ l => { l with spillTo :=
        match (if q < l.frames.length - 1 then (l.frames[q]?).map fun x => x.1 else none), l.spillTo with
        | some x, some y => some (max x y)
        | some x, none => some x
        | none, y => y }) ∧
    Acts (.ffill f) f (fun _ _ => True) (fun _ _ s => s)
      fun e _ j => match (e.g.lane j).nextFill e.g.budget q with
        | none => {}
        | some _ => { flow := .wait (.fill q) none }

/-- R85, R113, R114: JOIN sets and LEAVE clears the acting lanes' own bits of a mask; a lane of WAIT whose bit is clear passes, one
whose bit is set waits; LEAVE and WAIT are followed by the release evaluation. -/
def Sys2Proof.Machine.MaskInstructions : Prop :=
  ∀ f : Fields,
    let k := f.b.toNat
    Completes (.join f) f (fun _ _ => True)
      (fun e ls s => s.mapGroup e.g.id fun g => g.setMask k (g.mask k ||| maskOf ls)) (fun e ls => e.passed ls) ∧
    Completes (.leave f) f (fun _ _ => True)
      (fun e ls s => s.mapGroup e.g.id fun g => (g.setMask k (g.mask k &&& ~~~(maskOf ls))).releaseMask k s.clk.toNat)
      (fun e ls => e.passed ls) ∧
    CompletesThen (.wait f) f (fun _ _ => True) (fun _ _ s => s)
      (fun e ls => e.moved ls fun j l =>
        if (e.g.mask k).getLsbD j then { l.countDown with status := .waiting (.mask k), timer := none } else l.past e.m e.s.clk.toNat)
      (fun _ _ iss s => s.mapGroup iss.gid fun g => g.releaseMask k s.clk.toNat)

/-- R85: the release condition: the mask is not empty and every lane whose bit is set waits on it. When it is met all of them are released
with one stamp, past their WAIT; otherwise only the waiting threads whose bits are clear. -/
def Sys2Proof.Machine.MaskRelease : Prop :=
  ∀ (g : Group) (k stamp j : Nat), j < g.lanes.length →
    (g.releases k = true ↔ g.mask k ≠ 0 ∧ ∀ x, (g.mask k).getLsbD x = true → (g.lane x).status = .waiting (.mask k)) ∧
    ((g.lane j).status = .waiting (.mask k) →
      ((g.releases k = true ∨ (g.mask k).getLsbD j = false) →
        (g.releaseMask k stamp).lane j = { (g.lane j).advance 2 with status := .ready, stamp }) ∧
      (g.releases k = false → (g.mask k).getLsbD j = true → (g.releaseMask k stamp).lane j = g.lane j)) ∧
    ((g.lane j).status ≠ .waiting (.mask k) → (g.releaseMask k stamp).lane j = g.lane j)

/-- R85, R113, R114: JOIN, LEAVE and WAIT, and the release of a mask. -/
def Obligations.MasksAndTheirRelease : Prop := Sys2Proof.Machine.MaskInstructions ∧
  Sys2Proof.Machine.MaskRelease

/-- R85, R111: an exit clears the lanes' bits in every mask, and the waiting threads whose release condition is met then are released, past
their WAIT and with one stamp: those of a mask that is not empty and whose lanes all wait on it, and those whose own bit is clear. No other
lane changes. -/
def Sys2Proof.Machine.ExitClearsMasks : Prop :=
  ∀ (g : Group) (ls : List Nat) (stamp k : Nat), k < 12 → (∀ i v w, (i, v) ∈ g.masks → (i, w) ∈ g.masks → v = w) →
    let left (x : Nat) : Word := g.mask x &&& ~~~(maskOf ls)
    let free (j x : Nat) : Prop := (left x).getLsbD j = false ∨
      (left x ≠ 0 ∧ ∀ y, (left x).getLsbD y = true → (g.lane y).status = .waiting (.mask x))
    let t := g.clearMaskBits ls stamp
    t.mask k = left k ∧ t = { g with masks := t.masks, lanes := t.lanes } ∧ t.lanes.length = g.lanes.length ∧
    ∀ j, j < g.lanes.length →
      (∀ x, x < 12 → (g.lane j).status = .waiting (.mask x) →
        (free j x → t.lane j = { (g.lane j).advance 2 with status := .ready, stamp }) ∧ (¬free j x → t.lane j = g.lane j)) ∧
      ((∀ x, x < 12 → (g.lane j).status ≠ .waiting (.mask x)) → t.lane j = g.lane j)

/-- R112, R227: what follows the exit of threads. A group with a thread left goes on, and where no cluster barrier was waiting for the exited
threads nothing else happens than that waits are looked at; a group without one ends and gives up its slot, and when it was the last of its
team the team's exit begins. -/
def Sys2Proof.Machine.ThreadsEndTheirGroups : Prop :=
  ∀ (s : State) (gid : Nat) (g : Group) (t : Team), s.group? gid = some g → s.team? g.team = some t → g.ended = false →
    (g.live ≠ [] → s.checkEnd gid = s ∧
      ((∀ c, c < 4 → s.teamArrived t.id c = false) → t.exit = .running → s.afterExit gid = s.wakeAll)) ∧
    (g.live = [] → ∃ x u, (s.checkEnd gid).group? gid = some x ∧ (s.checkEnd gid).team? t.id = some u ∧
      x = { g with ended := true, resident := false, freed := x.freed } ∧ (s.checkEnd gid).mem = s.mem ∧
      u = { t with exit := if ∃ h ∈ s.teamGroups t.id, h.id ≠ gid then t.exit else .ending } ∧
      (t.rst = true → (s.checkEnd gid).contexts = s.contexts) ∧ ∀ y, y ≠ gid → (s.checkEnd gid).group? y = s.group? y)

/-- R96, R109 to R112, R116 to R118: the frame instructions, and the end of threads, groups and teams. -/
def Obligations.FrameInstructions : Prop := Sys2Proof.Machine.FrameInstructions ∧
  Sys2Proof.Machine.ExitClearsMasks ∧
  Sys2Proof.Machine.ThreadsEndTheirGroups

/-- R160, R174: before EXIT, BARV, BWAIT, CBARV, CBWAIT and YIELD have any effect, SatOverflow is raised where SATA is set, and SATA
clears; before EXIT, BARV, CBARV and YIELD the threads' issued stores enter, and a thread with one that waits for a shadow line waits. -/
def Sys2Proof.Machine.SaturationAndStoresComeFirst : Prop :=
  ∀ (f : Fields) (i : Instr),
    let after (gid : Nat) (s : State) : State := if i = .exit f then s.afterExit gid else s
    (i ∈ [Instr.exit f, .barv f, .bwait f, .cbarv f, .cbwait f, .yield f] →
      ActsThen i f (fun e ls => ls ≠ [] ∧ e.g.sata = true)
        (fun e _ s => s.mapGroup e.g.id fun g => { g with sata := false })
        (fun _ _ _ => { fault := some { kind := satOverflow }, together := true }) after) ∧
    (i ∈ [Instr.exit f, .barv f, .cbarv f, .yield f] → (i = .cbarv f → f.mod.getLsbD 0 = true) →
      CompletesThen i f
        (fun e ls => e.g.sata = false ∧ ls ≠ [] ∧
          ∀ j ∈ ls, (({ e.s with ids := e.s.ids + 1 } : State).enterLanes e.g.id ls).threadStores e.g.id j ≠ [])
        (fun e ls s => if i = .exit f then (s.enterLanes e.g.id ls).mapGroup e.g.id fun g => g.clearMaskBits [] s.clk.toNat
          else s.enterLanes e.g.id ls)
        (fun e ls => e.waiting ls (fun _ => .stores) none) (fun _ _ iss s => after iss.gid s))

/-! ## Barriers, signals and tasks (R222 to R258) -/

/-- R160, R222, R224, R226, R248 to R250: BINIT, BARV and BTEST on barrier words that pass the checks become requests to the bank; BWAIT, behind
the thread's own accesses to the word's banks, passes where the phase of its parity is over and waits otherwise, with its time limit; a
lane whose word fails the checks faults, BINIT with a count of 0 or above 65,535 too. -/
def Sys2Proof.Machine.BarrierInstructions : Prop :=
  ∀ (f : Fields) (reach : Nat → Reached),
    let word (e : Env) (ls : List Nat) : Prop :=
      ∀ j ∈ ls, reachBuffer e f.c.toNat ((e.reg j f.b).toNat + f.imm.toInt) 8 .barrier = reach j
    let counts (e : Env) (j : Nat) : Prop := 0 < (e.reg j f.a).toNat ∧ (e.reg j f.a).toNat < 65536
    let passed (e : Env) (j offset : Nat) : Prop := e.t.phaseBit offset ≠ (e.reg j f.a).getLsbD 0 ∧
      ∀ o ∈ e.s.ops, o.isOf e.g.id j = true → o.hits e.t.id offset 8 = false
    Acts (.binit f) f word
      (fun e ls => inOrder ls fun j s => match reach j with
        | .scratch spot => if counts e j then
            s.addOp e j none 0 (.barrierInit { team := e.t.id, offset := spot.offset } (e.reg j f.a).toNat) else s
        | _ => s)
      (fun e _ j => match reach j with
        | .scratch _ => if counts e j then {} else { fault := some { kind := barrierCount } }
        | r => stopped r) ∧
    Acts (.barv f) f (fun e ls => word e ls ∧ e.quiet ∧ e.g.sata = false)
      (fun e ls => inOrder ls fun j s => match reach j with
        | .scratch spot => s.addOp e j none 0
            (.barrierArrive { team := e.t.id, offset := spot.offset } (if f.mod.getLsbD 0 then (e.reg j f.a).toNat else 1)
              f.c.toNat ((e.reg j f.b).toNat + f.imm.toInt).toNat)
        | _ => s)
      (fun _ _ j => match reach j with
        | .scratch _ => {}
        | r => stopped r) ∧
    Acts (.btest f) f word
      (fun e ls => inOrder ls fun j s => match reach j with
        | .scratch spot => s.addOp e j (some e.pid) 0
            (.barrierTest { team := e.t.id, offset := spot.offset } ((e.reg j f.a).getLsbD 0) [.pred f.d.toNat])
        | _ => s)
      (fun _ _ j => match reach j with
        | .scratch _ => { places := [.pred f.d.toNat], waits := 1 }
        | r => stopped r) ∧
    Acts (.bwait f) f (fun e ls => word e ls ∧ e.g.sata = false) (fun _ _ s => s)
      fun e _ j => match reach j with
        | .scratch spot =>
          if passed e j spot.offset then
            { writes := reports f, change := fun l => { l with stale := none } }
          else { flow := .wait (.barrier spot.offset ((e.reg j f.a).getLsbD 0)) (limit f e.s) }
        | r => stopped r

/-- R227, R228, R251: CBARV records the parity and the arrival of each acting lane, with release behind its scratchpad accesses;
CBWAIT returns where the thread has not arrived since or the barrier has turned, and waits otherwise; without .acq a thread that
returns may still load scratchpad values as old as its arrival. -/
def Sys2Proof.Machine.ClusterBarrierInstructions : Prop :=
  ∀ f : Fields,
    let c := f.b.toNat
    let arrival (l : Lane) : Arrival := sget {} l.arrivals c
    let note (e : Env) (flag : Bool) (l : Lane) : Lane :=
      let a : Arrival := { flag := (arrival l).flag || flag, parity := e.s.clusterPhase e.t c, since := true, step := e.s.now }
      { l with arrivals := sput {} l.arrivals c a }
    (f.mod.getLsbD 0 = true → Completes (.cbarv f) f (fun e _ => e.quiet ∧ e.g.sata = false)
      (fun e ls => inOrder ls fun j s =>
        (s.mapLane e.g.id j (note e false)).addOp e j none 0 (.clusterArrive c true))
      fun e ls => e.passed ls) ∧
    (f.mod.getLsbD 0 = false → Completes (.cbarv f) f (fun e _ => e.quiet ∧ e.g.sata = false)
      (fun e ls s => ((inOrder ls (fun j s => s.mapLane e.g.id j (note e true)) s).clusterArrive e.t.id c).wakeAll)
      fun e ls => e.passed ls) ∧
    Acts (.cbwait f) f (fun e _ => e.g.sata = false) (fun _ _ s => s)
      fun e _ j =>
        if (arrival (e.g.lane j)).since = false ∨ e.s.clusterPhase e.t c ≠ (arrival (e.g.lane j)).parity then
          { change := fun l => { l with
              arrivals := sput {} l.arrivals c { (arrival l) with since := false },
              stale := if f.mod.getLsbD 0 = true then none
                else if (arrival l).since = true then some (min (l.stale.getD (arrival l).step) (arrival l).step) else l.stale } }
        else { flow := .wait (.cluster c (f.mod.getLsbD 0)) none }

/-- R227: a team arrives on a cluster barrier when every unexited thread of it has its flag set, and its flags clear; when every member
has arrived or exited the phase inverts. -/
def Sys2Proof.Machine.ClusterBarriersTurn : Prop :=
  (∀ (s : State) (tid c : Nat), s.teamArrived tid c = true ↔
    (∃ g ∈ s.teamGroups tid, ∃ j, j ∈ g.live) ∧
      ∀ g ∈ s.teamGroups tid, ∀ j ∈ g.live, (sget {} (g.lane j).arrivals c : Arrival).flag = true) ∧
  (∀ (s : State) (tid c : Nat), s.teamArrived tid c = false → s.clusterArrive tid c = s) ∧
  (∀ (s : State) (tid c : Nat) (t : Team), s.team? tid = some t → s.teamArrived tid c = true → t.cluster = none →
    (∀ u, (s.clusterArrive tid c).team? tid = some u → s.clusterPhase t c ≠ (s.clusterArrive tid c).clusterPhase u c) ∧
    ∀ g ∈ (s.clusterArrive tid c).groups, g.team = tid → ∀ l ∈ g.lanes, (sget {} l.arrivals c : Arrival).flag = false) ∧
  ∀ (s : State) (cid c : Nat) (k : Cluster), s.cluster? cid = some k →
    let whole : Prop := ∀ r, r < k.cx * k.cy → r ∈ (sget [] k.arrived c : List Nat) ∨
      ∃ m ∈ k.members, m.1 = r ∧ s.memberExited m.2 = true
    (¬whole → s.clusterTurn cid c = s) ∧
    (whole → (sget [] k.arrived c : List Nat) ≠ [] → ∃ x, (s.clusterTurn cid c).cluster? cid = some x ∧
      (sget false x.phases c : Bool) = !(sget false k.phases c : Bool) ∧ (sget [] x.arrived c : List Nat) = [])

/-- R227, R228, R251: CBARV and CBWAIT, and the turn of a cluster barrier. -/
def Obligations.ClusterBarrierInstructions : Prop := Sys2Proof.Machine.ClusterBarrierInstructions ∧
  Sys2Proof.Machine.ClusterBarriersTurn

/-- R223: an arrival of weight 0 changes nothing; one below PEND counts it down; one that reaches PEND flips PH, reloads PEND from
EXP and reports the excess. -/
def Sys2Proof.Machine.BarrierArrivalOnAWord : Prop :=
  ∀ (s : State) (tid offset weight : Nat) (t : Team), s.team? tid = some t →
    let pend := t.sliceNat offset 2
    let exp := t.sliceNat (offset + 2) 2
    (weight = 0 → s.arrive tid offset weight = (0, s)) ∧
    (0 < weight → weight < pend →
      s.arrive tid offset weight = (0, s.writeSlice tid offset (barrierWord (t.phaseBit offset) exp (pend - weight)))) ∧
    (0 < weight → pend ≤ weight →
      s.arrive tid offset weight =
        (weight - pend, (s.writeSlice tid offset (barrierWord (!t.phaseBit offset) exp exp)).noteRing tid offset))

/-- R160, R174, R222 to R224, R248 to R250: the barrier instructions, what an arrival does to a barrier word, and what comes before it. -/
def Obligations.BarrierWords : Prop := Sys2Proof.Machine.BarrierInstructions ∧
  Sys2Proof.Machine.BarrierArrivalOnAWord ∧
  Sys2Proof.Machine.SaturationAndStoresComeFirst

/-- R246, R254, R255: SIGNAL becomes a request to the home of its word, each lane by where its address leads; ROLE reads the group's role,
0 in a team without a pipeline, and makes the group a loader where R246 reassigns it. -/
def Sys2Proof.Machine.SignalAndRole : Prop :=
  ∀ f : Fields,
    (∀ reach : Nat → Reached, Acts (.signal f) f
      (fun e ls => ∀ j ∈ ls, reachAtomic e f j (e.pair j f.a) 8 8 true = reach j)
      (fun e ls => inOrder ls fun j s => match reach j with
        | .memory place page => (s.reload e.g.id j e.g.core page).addOp e j none (e.pair j f.a) (.signal place (e.pair j f.b))
        | r => reachEffect e j r s)
      fun _ _ j => match reach j with
        | .memory _ _ => {}
        | r => stopped r) ∧
    Completes (.role f) f (fun e _ => e.t.pipe = false) (fun _ _ s => s)
      (fun e ls => e.wrote ls fun j => e.setReg j f.d 0) ∧
    Completes (.role f) f (fun e ls => e.t.pipe = true ∧ e.reassigns ls = false) (fun _ _ s => s)
      (fun e ls => e.wrote ls fun j => e.setReg j f.d (BitVec.ofNat 32 e.g.role)) ∧
    Completes (.role f) f (fun e ls => ls ≠ [] ∧ e.t.pipe = true ∧ e.reassigns ls = true)
      (fun e _ s => (s.mapGroup e.g.id fun g => { g with role := 1 }).mapTeam e.t.id fun t =>
        { t with lastChange := some e.s.clk.toNat })
      (fun e ls => e.wrote ls fun j => e.setReg j f.d 1)

namespace Sys2Proof.Machine

/-- The sector an ENQ of a lane goes to (R252): the own one, the one in B, or the least loaded. -/
def enqSector (f : Fields) (e : Env) (j : Nat) (s : State) : Nat :=
  if f.mod.toNat % 4 = 1 then (e.reg j f.b).toNat
  else if f.mod.toNat % 4 = 2 then s.leastLoaded e.partition (coreSector e.g.core) else coreSector e.g.core

/-- Whether a lane's ENQ names a sector that is not in service in its partition (R252). -/
def enqAstray (f : Fields) (e : Env) (j : Nat) : Bool :=
  f.mod.toNat % 4 == 1 && !(e.s.partitionSectors e.partition).contains (e.reg j f.b).toNat

/-- One lane of ENQ (R239, R252): nothing for a bad ember, a sector that is not there or back-pressure; taken into the local dispatch
slot, or submitted to the sector. -/
def enqueues (f : Fields) (e : Env) (j : Nat) (s : State) : State :=
  if e.emberBad j = true ∨ enqAstray f e j = true ∨ s.refused e.t.ctx (enqSector f e j s) = true then s
  else if f.mod.toNat % 4 = 0 ∧ s.slotEmpty e.g.core = true then s.takeSlot e.t.ctx e.g.core (e.s.record e.t) (e.outBytes j)
  else s.submit e.t.ctx (enqSector f e j s) (e.s.record e.t) (e.outBytes j) []

end Sys2Proof.Machine

/-- R233, R252, R256 to R258: ENQ, each lane in turn: a bad ember or sector faults, otherwise it owes the predicate that says whether it was
refused; YIELD waits for a commit at team scope; CLAIM takes the next indices once per issue; JDEC becomes a request to the
counter's home. -/
def Sys2Proof.Machine.TaskInstructions : Prop :=
  ∀ f : Fields,
    (f.mod.toNat % 4 ≠ 3 → Acts (.enq f) f (fun _ _ => True) (fun e ls => inOrder ls (enqueues f e))
      fun e ls j =>
        let s := e.turn ls (enqueues f e) j
        if e.emberBad j = true then { fault := some { kind := emberInvalid } }
        else if enqAstray f e j = true then { fault := some { kind := addressFault } }
        else { writes := setPred f.d.toNat (s.refused e.t.ctx (enqSector f e j s)) }) ∧
    Completes (.yield f) f (fun e _ => e.quiet ∧ e.g.sata = false) (fun _ _ s => s)
      (fun e ls => e.waiting ls (fun _ => .commit 2 true (f.mod.getLsbD 0)) none) ∧
    (∀ k : Instance,
      let n (e : Env) (ls : List Nat) : Nat := (e.reg (ls.headD 0) f.a).toNat
      let size := k.cx * k.cy
      let taken (e : Env) (ls : List Nat) : Nat := min (n e ls) (k.total / size - k.next / size)
      Completes (.claim f) f
        (fun e ls => ls ≠ [] ∧ e.s.instance? e.t.inst = some k ∧ 1 ≤ n e ls ∧ n e ls ≤ 64)
        (fun e ls s => s.mapInstance e.t.inst fun i => { i with next := i.next + taken e ls * (i.cx * i.cy) })
        fun e ls => e.awaiting f.la.toNat ls fun j =>
          { writes := e.setReg j f.d (BitVec.ofNat 32 (k.next / size)) ++ e.setReg j (f.d + 1) (BitVec.ofNat 32 (taken e ls)) }) ∧
    Acts (.claim f) f (fun e ls => ls ≠ [] ∧ ((e.reg (ls.headD 0) f.a).toNat = 0 ∨ 64 < (e.reg (ls.headD 0) f.a).toNat))
      (fun _ _ s => s) (fun _ _ _ => { fault := some { kind := illegalInstruction }, together := true }) ∧
    ∀ reach : Nat → Reached,
      let dests (e : Env) (ls : List Nat) (j : Nat) : List Place := e.destsOf (ls.filter fun k => (reach k).arrives) j f.d false
      Acts (.jdec f) f
        (fun e ls => ∀ j ∈ ls, reachAtomic e f j (e.address f j) 4 8 true = reach j)
        (fun e ls => inOrder ls fun j s => match reach j with
          | .memory place page => (s.reload e.g.id j e.g.core page).addOp e j (some e.pid) (e.address f j)
              (.joinDec place (e.address f j) (e.reg j f.b) (dests e ls j))
          | r => reachEffect e j r s)
        fun e ls j => match reach j with
          | .memory _ _ => { places := dests e ls j, waits := 1 }
          | r => stopped r

/-- R236, R237, R239, R252: what ENQ does with an ember. It is refused where the context has QLIM embers in the sector, or where the sector's 256
places on chip and the context's ring are full; embers of accepted PUTQs that are still to come count (DEDUCED, log 34). Otherwise it
joins the sector's queue last, on chip while a place is free for which no other waits (DEDUCED, log 34), in the context's ring with its
bytes in a free entry (R230, R396); the least loaded sector of a partition is the lowest of those that hold the fewest (DEDUCED, log 34). -/
def Sys2Proof.Machine.EmbersJoinQueues : Prop :=
  ∀ s : State,
    (∀ ctx n, let here := s.sectorEmbers n
      let qlim := (s.ctx ctx).embqctl.toNat % 65536
      let coming : List Nat := s.ops.filterMap fun o => match o.access with
        | .putEmber _ m inst _ => if m = n then (s.instance? inst).map fun i => i.ctx else none
        | _ => none
      let own := (coming.filter fun c => c == ctx).length
      let chip := (here.filter fun e => decide (e.place = .chip)).length
      s.refused ctx n = true ↔ (qlim ≠ 0 ∧ qlim ≤ (here.filter fun e => e.ctx == ctx).length + own) ∨
        (256 ≤ chip + coming.length ∧
          2 ^ (s.ctx ctx).emberLog ≤ (here.filter fun e => e.ctx == ctx && decide (e.place = .ring)).length + (own - (256 - chip)))) ∧
    (∀ ctx n r b payload, ∃ x : Ember, (s.submit ctx n r b payload).embers = s.embers ++ [x] ∧
      (∃ i : Instance, (s.submit ctx n r b payload).instances = s.instances ++ [i] ∧ x.kind = .fresh i.id ∧ i.ctx = ctx ∧
        i.record = r ∧ i.ember = b ∧ i.total = emberInum b) ∧
      x.ctx = ctx ∧ x.sector = n ∧ x.pri = emberPri b ∧ x.keys = emberKeys b ∧ x.arrival = s.now ∧ x.payload = payload ∧
      (x.place = .chip ↔ (s.embers.filter fun e => e.sector == n && decide (e.place = .chip)).length < 256 ∧
        ∀ e ∈ s.embers, e.sector = n → e.outside = false) ∧
      (x.place = .ring → (∀ e ∈ s.embers, e.sector = n → e.ctx = ctx → e.place = .ring → e.entry ≠ x.entry) ∧
        ((∀ i ∈ s.instances, i.id ≠ s.ids) → ∃ a, (s.ctx ctx).emberRings[n]? = some a ∧
          (s.submit ctx n r b payload).mem = (s.deviceWrite ctx (sectorCore n) (a + BitVec.ofNat 64 (64 * x.entry)) b).mem))) ∧
    (∀ p n dflt, n ∈ s.partitionSectors p → let m := s.leastLoaded p dflt
      m ∈ s.partitionSectors p ∧ (s.sectorEmbers m).length ≤ (s.sectorEmbers n).length ∧
        ((s.sectorEmbers m).length = (s.sectorEmbers n).length → m ≤ n)) ∧
    ∀ ctx core r b, ∃ x : Ember, (s.takeSlot ctx core r b).embers = s.embers ++ [x] ∧ x.place = .slot core ∧ x.ctx = ctx ∧
      x.sector = coreSector core ∧ x.pri = emberPri b ∧ x.keys = emberKeys b

/-- R233, R236, R240, R244, R252, R256 to R258: ENQ, YIELD, CLAIM and JDEC, and the queues that embers join. What it says that the
rules leave open is the model's choice, log 34. -/
def Obligations.TaskInstructions : Prop := Sys2Proof.Machine.TaskInstructions ∧
  Sys2Proof.Machine.EmbersJoinQueues

namespace Sys2Proof.Machine

/-- The sector a PUTQ goes to (R253). -/
def putqSector (f : Fields) (e : Env) (s : State) : Nat :=
  if f.mod.getLsbD 6 then s.leastLoaded e.partition (coreSector e.g.core) else coreSector e.g.core

/-- One lane of PUTQ with a good ember, its addresses and its buffer found good (R253): refused, or the payload written as one unit and
the ember left to join a queue once the unit is applied. -/
def putqTakes (f : Fields) (e : Env) (j offset : Nat) (places : List Nat) (s : State) : State :=
  let sector := putqSector f e s
  if s.refused e.t.ctx sector = true then s
  else
    let bytes := places.mapIdx fun i p => (p, sget (0 : Byte) e.t.slice (offset + i))
    let u := (s.publishUnit 0 bytes []).1
    let q := (s.publishUnit 0 bytes []).2.newInstance e.t.ctx (e.s.record e.t) (e.outBytes j)
    { q.2 with ids := q.2.ids + 1, ops := q.2.ops ++ [
        { id := q.2.ids, gid := 0, lane := j, team := 0, pend := none, va := e.address f j, pc := (e.g.lane j).pc,
          issued := e.s.now, since := e.s.real, access := .putEmber u sector q.1 (places.map fun p => p / 128).eraseDups }] }

end Sys2Proof.Machine

/-- R233, R253: PUTQ, each lane in turn: EmberInvalid, then the checks of its global addresses and of its buffer; one that passes writes
its payload as one unit and leaves its ember to join a queue once the unit is applied, unless it is refused, and the predicate it owes
says so. -/
def Sys2Proof.Machine.PutqWritesItsPayload : Prop :=
  ∀ (f : Fields) (reach : Nat → Except Reached (List Nat × Option PageEntry)) (span : Nat → Except FaultInfo Nat),
    let n := 4 * (f.mod.toNat % 64 + 1)
    let seen (e : Env) (j : Nat) (page : Option PageEntry) (s : State) : State := match page with
      | some p => s.reload e.g.id j e.g.core p
      | none => s
    let act (e : Env) (j : Nat) (s : State) : State :=
      if e.emberBad j = true then s
      else match reach j, span j with
        | .error r, _ => reachEffect e j r s
        | .ok _, .error _ => s
        | .ok (places, page), .ok offset => putqTakes f e j offset places (seen e j page s)
    Acts (.putq f) f
      (fun e ls => (∀ j ∈ ls, reachPlaces e j (e.address f j) n 1 = reach j ∧
          checkSpan e.t f.c.toNat (e.reg j f.b).toNat n 4 .read = span j) ∧
        ∀ o ∈ e.s.ops, (o.span.map fun x => x.1) ≠ some e.t.id)
      (fun e ls => inOrder ls (act e))
      fun e ls j =>
        if e.emberBad j = true then { fault := some { kind := emberInvalid } }
        else match reach j, span j with
          | .error r, _ => stopped r
          | .ok _, .error i => { fault := some i }
          | .ok (_, page), .ok _ =>
            let s := seen e j page (e.turn ls (act e) j)
            { writes := setPred f.d.toNat (s.refused e.t.ctx (putqSector f e s)) }

/-- R246, R253 to R255: SIGNAL, ROLE and PUTQ. -/
def Obligations.SignalsRolesAndPayloads : Prop := Sys2Proof.Machine.SignalAndRole ∧
  Sys2Proof.Machine.PutqWritesItsPayload

/-! ## Engines and the matrix engine (R265 to R321) -/

namespace Sys2Proof.Machine

/-- No access to the scratchpad slice of the issuing team is pending. -/
def Env.still (e : Env) : Prop := ∀ o ∈ e.s.ops, (o.span.map fun x => x.1) ≠ some e.t.id

/-- The n bytes of the issuing team's slice at an offset. -/
def Env.block (e : Env) (offset n : Nat) : List Byte := (List.range n).map fun i => sget (0 : Byte) e.t.slice (offset + i)

/-- Whether a lane's submission to queue q enters it now (R280, R315): the queue has room, and no thread of the team that waits for it comes
first. -/
def Env.admitted (e : Env) (j q : Nat) (x : Submission) (s : State) : Bool :=
  ((s.team? e.t.id).map fun t => t.hasRoom q && s.nextInLine t j q x).getD false

/-- A lane's submission of the issue. -/
def Env.submission (e : Env) (dests : List Place) (w : Submit) : Submission :=
  { issued := e.s.now, pid := e.pid, len := e.m, dests, work := w }

/-- An instruction whose lanes, one after another, check what they submit to queue q and submit it (R265, R280, R315): a lane that fails a
check has the outcome the check gives; one that passes owes its number, and enters its submission where the queue has room or waits for
room with what it has checked. -/
def Submits (i : Instr) (f : Fields) (q : Nat) (isPair : Bool) (readable : Env → Nat → State → Prop)
    (check : Env → Nat → State → Except LaneOut Submit) : Prop :=
  let dests (e : Env) (j : Nat) : List Place := e.destPlaces j f.d isPair
  let act (e : Env) (j : Nat) (s : State) : State := match check e j s with
    | .error _ => s
    | .ok w => if e.admitted j q (e.submission (dests e j) w) s = true then (s.enterQueue e.g j w).2 else s
  let lead (e : Env) (ls : List Nat) : Option Nat := ls.find? fun j => match check e j (e.turn ls (act e) j) with
    | .error o => o.fault.isNone
    | .ok _ => true
  Acts i f (fun e ls => e.still ∧ ∀ j ∈ ls, readable e j (e.turn ls (act e) j))
    (fun e ls => inOrder ls (act e))
    fun e ls j =>
      let s := e.turn ls (act e) j
      match check e j s with
      | .error o => o
      | .ok w =>
        let x := e.submission (dests e j) w
        if e.admitted j q x s = true then { writes := placeWords (dests e j) (s.enterQueue e.g j w).1 }
        else
          let other : Bool := (dests e j).any Place.isScalar && lead e ls != some j
          { places := dests e j, waits := 1,
            flow := .wait (.room q { x with lead := if other = true then lead e ls else none }) none }

/-- A fault of a lane by itself. -/
def faults (i : FaultInfo) : Except LaneOut Submit := .error { fault := some i }

/-- A wait for a queue's number of a lane (R226, R276, R282, R318): it passes where the number has been reached, with the lines dropped that
units of the queue have touched and an acquire of the slice, and waits otherwise. -/
def WaitsFor (i : Instr) (f : Fields) (seqc : Env → Nat) (target : Env → Nat → Nat) (w : Nat → Wait) : Prop :=
  Acts i f (fun _ _ => True)
    (fun e ls => inOrder ls fun j s => if target e j ≤ seqc e then s.wakeDrops e.t (w (target e j)) else s)
    fun e _ j => if target e j ≤ seqc e then { writes := reports f, change := fun l => { l with stale := none } }
      else { flow := .wait (w (target e j)) (limit f e.s) }

end Sys2Proof.Machine

/-- R163, R200, R201, R265, R267 to R269, R277, R278, R280, R281: XCOPY, XGATH, XCOLL and XCHAIN submit their lanes' commands to a queue, after
the checks, each with its fault. -/
def Sys2Proof.Machine.CommandsAreSubmitted : Prop :=
  ∀ f : Fields,
    let block (e : Env) (j : Nat) (check : Nat → Except LaneOut Submit) : Except LaneOut Submit :=
      match checkBlock e.t f.c.toNat ((e.reg j f.b).toNat + f.imm.toInt) 64 64 with
      | .error i => faults i
      | .ok offset => check offset
    let judged (c : Option Complaint) (held : Option FaultInfo) (w : Submit) : Except LaneOut Submit := match c, held with
      | some .form, _ => faults { kind := engineCommand }
      | some (.state i), _ => faults i
      | none, some i => faults i
      | none, none => .ok w
    let copy (kind : Nat) (e : Env) (j : Nat) (s : State) : Except LaneOut Submit := block e j fun offset =>
      let c := e.block offset 64
      if cmdKind c ≠ kind then faults { kind := engineCommand }
      else judged (s.complaint e.t c false) (s.extentsFault e.t (s.cmdExtents e.t c)) (.command f.a.toNat false c 0)
    Submits (.xcopy f) f f.a.toNat true (fun _ _ _ => True) (copy 0) ∧
    Submits (.xgath f) f f.a.toNat true (fun _ _ _ => True) (copy 1) ∧
    Submits (.xcoll f) f 4 true
      (fun e j s => ∀ offset, checkBlock e.t f.c.toNat ((e.reg j f.b).toNat + f.imm.toInt) 64 64 = .ok offset →
        s.collOk e.t (e.block offset 64) = true → ∃ b, s.namesUs e.t (e.block offset 64) = .ok b)
      (fun e j s => block e j fun offset =>
        let c := e.block offset 64
        match s.collOk e.t c, s.namesUs e.t c with
        | true, .ok true =>
          judged (if cmdFlag c 16 then s.barwComplaint e.t (collBarw c) else none) (s.extentsFault e.t (collExtents c)) (.command 4 false c 0)
        | _, _ => faults { kind := engineCommand }) ∧
    Submits (.xchain f) f f.b.toNat true (fun _ _ _ => True) fun e j _ =>
      let a := e.address f j
      if a.toNat % 64 ≠ 0 then faults (addressed misaligned a 0)
      else if e.s.classOf e.t a = .unused then faults (addressed addressFault a 0)
      else .ok (.command f.b.toNat true [] a)

/-- R267 to R269, R277, R278: the form of a copy, gather or collective command: the kind, the reserved bits, the length, the element and the
classes of the addresses; with ARRV, BARW names a barrier word that may be updated. -/
def Sys2Proof.Machine.CommandFormsAreChecked : Prop :=
  ∀ (s : State) (t : Team) (c : List Byte),
    let usable (a : DWord) : Prop := s.classOf t a ≠ .unused
    let bits (x lo n : Nat) : Nat := x / 2 ^ lo % 2 ^ n
    (∀ chain, s.formOk t c chain = true ↔
      cmdKind c ≤ 1 ∧ cmdCtl c / 2 ^ 9 = 0 ∧ bits (cmdBarw c) 20 4 = 0 ∧ bits (cmdBarw c) 29 3 = 0 ∧ 1 ≤ cmdLen c ∧ cmdLen c ≤ 2 ^ 30 ∧
      usable (cmdSrc c) ∧ usable (cmdDst c) ∧
      (cmdKind c = 1 → cmdGstr c / 2 ^ 5 = 0 ∧ cmdGstr c % 16 ≤ 12 ∧ cmdLen c % 2 ^ (cmdGstr c % 16) = 0 ∧ usable (cmdGidx c)) ∧
      (chain = true → cmdNext c = 0 ∨ ((cmdNext c).toNat % 64 = 0 ∧ usable (cmdNext c)))) ∧
    (s.collOk t c = true ↔
      cmdCtl c / 2 ^ 17 = 0 ∧ bits (cmdCtl c) 7 1 = 0 ∧ bits (collBarw c) 20 4 = 0 ∧ bits (collBarw c) 29 3 = 0 ∧
      bits (cmdCtl c) 0 4 ≤ 2 ∧ bits (cmdCtl c) 4 3 ≤ 5 ∧ 1 ≤ collCount c ∧ collCount c ≤ 2 ^ 26 ∧ 1 ≤ collRanks c ∧ collRanks c ≤ 4096 ∧
      collRank c < collRanks c ∧ usable (cmdSrc c) ∧ usable (cmdDst c) ∧ s.classOf t (collList c) = .global ∧
      (4 ≤ bits (cmdCtl c) 4 3 → bits (cmdCtl c) 8 4 ≤ 7) ∧
      (bits (cmdCtl c) 4 3 < 4 → 11 ≤ bits (cmdCtl c) 8 4 ∧ bits (cmdCtl c) 8 4 ≤ 13)) ∧
    collBarw c = leNat ((c.drop 0x18).take 4) ∧ collRank c = leNat ((c.drop 0x1C).take 4) ∧ cmdBarw c = leNat ((c.drop 0x1C).take 4) ∧
    ∀ barw, s.team? t.id = some t →
      (s.barwComplaint t barw = none ↔ ∃ o, checkBuffer t (bits barw 24 5) (bits barw 0 20 : Nat) 8 .barrier = .ok o)

/-- R265, R280: a command that enters an engine queue stands last in it with the number after SEQA, which is the lane's result. -/
def Sys2Proof.Machine.CommandsTakeNumbers : Prop :=
  ∀ (s : State) (g : Group) (j q : Nat) (chain : Bool) (bytes : List Byte) (next : DWord) (t : Team), s.team? g.team = some t →
    let n := (t.engine q).seqa + 1
    let r := s.enterQueue g j (.command q chain bytes next)
    r.1 = [BitVec.ofNat 32 n, BitVec.ofNat 32 (n / 2 ^ 32)] ∧ r.2 = { s with teams := r.2.teams } ∧
    ∃ (u : Team) (c : Command), r.2.team? t.id = some u ∧ u = { t with engines := u.engines } ∧
      u.engine q = { t.engine q with seqa := n, queue := (t.engine q).queue ++ [c] } ∧ (∀ k, k ≠ q → u.engine k = t.engine k) ∧
      c.number = n ∧ c.chain = chain ∧ c.bytes = bytes ∧ c.next = next ∧ c.gid = g.id ∧ c.lane = j ∧ c.started = false ∧
      (c.collective = true ↔ q = 4)

/-- R265 to R269, R277 to R281: commands are checked and submitted, and take their numbers. -/
def Obligations.CommandsAreSubmitted : Prop := Sys2Proof.Machine.CommandsAreSubmitted ∧
  Sys2Proof.Machine.CommandFormsAreChecked ∧
  Sys2Proof.Machine.CommandsTakeNumbers

/-- R226, R276, R282 to R285: XSEQ, XWAIT, XPUB, XSTOP and XCRC. That XSTOP stops the queue at once, a chunk boundary of the model, is its
choice (DEDUCED, log 31). -/
def Sys2Proof.Machine.EngineObservation : Prop :=
  ∀ f : Fields,
    let q := f.a.toNat
    Owes (.xseq f) f (fun e j =>
      if f.mod.getLsbD 0 then e.setReg j f.d (BitVec.ofNat 32
        ((e.t.engine q).stat.toNat + if (e.t.engine q).queue.isEmpty then 0 else 16))
      else e.setPair j f.d (BitVec.ofNat 64 (e.t.engine q).seqc)) ∧
    WaitsFor (.xwait f) f (fun e => (e.t.engine q).seqc) (fun e j => (e.pair j f.b).toNat) (fun n => .engine q n) ∧
    Completes (.xpub f) f (fun e ls => ls = [] ∨ (e.t.engine q).shadow = []) (fun _ _ s => s) (fun e ls => e.passed ls) ∧
    Completes (.xpub f) f (fun e ls => ls ≠ [] ∧ (e.t.engine q).shadow ≠ [])
      (fun e ls s =>
        let p := s.publishQueue e.t.id q (e.t.engine q).seqc
        if p.2.unitApplied p.1 (f.sc == 6) = true then p.2
        else inOrder ls (fun j r => r.addOp e j none 0 (.published p.1 (f.sc == 6))) p.2)
      (fun e ls => e.passed ls) ∧
    Completes (.xstop f) f (fun e ls => ls = [] ∨ (e.t.engine q).queue = []) (fun _ _ s => s) (fun e ls => e.passed ls) ∧
    Completes (.xstop f) f (fun e ls => ls ≠ [] ∧ (e.t.engine q).queue ≠ [])
      (fun e _ s => s.stopQueue e.t.id q 6 6 true none) (fun e ls => e.passed ls) ∧
    Completes (.xcrc f) f (fun _ _ => True)
      (fun e ls => inOrder ls fun j s => s.addOp e j (some e.pid) 0
        (.crcRead q (e.t.engine q).seqa (if f.mod.getLsbD 0 ∧ ls.getLast? = some j then ls.head?.map fun k => e.reg k f.b else none)
          (f.mod.getLsbD 1) (e.destsOf ls j f.d false)))
      fun e ls => e.awaiting f.la.toNat ls fun j => { places := e.destsOf ls j f.d false, waits := 1 }

/-- R265, R271, R284, R295: a queue that stops is empty, its SEQC becomes SEQA, STAT holds the status of the failing command, or that of the
later ones, and its shadow lines are dropped unless they are kept; nothing else of the queue changes. Said where no thread waits. -/
def Sys2Proof.Machine.StoppedQueues : Prop :=
  ∀ (s : State) (tid q status later : Nat) (keep : Bool) (t : Team), s.team? tid = some t → q < 5 → status < 16 → later < 16 →
    (∀ g ∈ s.groups, ∀ l ∈ g.lanes, ∀ w, l.status ≠ .waiting w) →
    ∃ u : Team, (s.stopQueue tid q status later keep none).team? tid = some u ∧ u.matrix = t.matrix ∧
      (u.engine q).queue = [] ∧ (u.engine q).seqa = (t.engine q).seqa ∧ (u.engine q).seqc = (t.engine q).seqa ∧
      (u.engine q).stat.toNat = (if (t.engine q).queue.length ≤ 1 then status else later) ∧
      (u.engine q).shadow = (if keep = true then (t.engine q).shadow else []) ∧ (u.engine q).crcr = (t.engine q).crcr ∧
      ∀ k, k ≠ q → u.engine k = t.engine k

/-- R159, R197, R200, R291, R292, R299, R310, R315 to R317: MMA, MLOADA and MDRAIN, lane by lane with their checks in the rules' order; what
passes is accepted into the matrix queue and owes the low word of its number, or waits for room. -/
def Sys2Proof.Machine.MatrixOperationsAreAccepted : Prop :=
  ∀ f : Fields,
    let o (e : Env) (j : Nat) : Int := (e.reg j f.b).toNat + f.imm.toInt
    Submits (.mma f) f 5 false (fun _ _ _ => True) (fun e j s =>
      if o e j % 128 ≠ 0 then faults { kind := misaligned, addr := BitVec.ofInt 64 (o e j) }
      else match checkBlock e.t f.c.toNat (o e j) 128 128 with
        | .error i => faults i
        | .ok offset =>
          let b := e.block offset 128
          let x := multiplyOf b
          let (sa, sb) := (s.slot e.t x.slotA, s.slot e.t x.slotB)
          if s.multiplyOk e.t x = false then faults { kind := matrixParam }
          else if elementOf sa.elem = none ∨ elementOf sb.elem = none then faults { kind := formatSlotInvalid }
          else if e.t.tiles ≤ x.tile then faults { kind := tileInvalid }
          else match spansFault e.t (x.spans sa sb) with
            | some i => faults i
            | none => .ok (.matrix (.multiply b) true ((x.spans sa sb).map fun y => (e.t.id, y.buf)).eraseDups
                (e.t.fullStream x.aBuf && e.t.fullStream x.bBuf) none)) ∧
    Submits (.mloada f) f 5 false (fun _ _ _ => True) (fun e j s =>
      let a := e.address f j
      let load (holds : List (Nat × Nat)) : Except LaneOut Submit := .ok (.matrix (.load f.b.toNat a) true holds false none)
      let within (t : Team) (offset : Nat) : Except LaneOut Submit := match loadBuffer ((s.team? t.id).getD t) offset a with
        | .error i => faults i
        | .ok b => load [(t.id, b)]
      if e.t.tiles ≤ f.b.toNat then faults { kind := tileInvalid }
      else if s.classOf e.t a = .unused then faults (addressed addressFault a 0)
      else if a.toNat % 4 ≠ 0 then faults (addressed misaligned a 0)
      else match s.classOf e.t a with
        | .scratchpad p => within e.t p
        | .window rank p => (match e.memberTeam rank with
          | .ok t => within t p
          | .error w => .error { flow := .wait w none })
        | _ => load []) ∧
    Submits (.mdrain f) f 5 false (fun _ _ _ => True) (fun e j s =>
      match checkBlock e.t f.c.toNat (o e j) 64 64 with
      | .error i => faults i
      | .ok offset =>
        let b := e.block offset 64
        let d := drainOf b
        let (k, tk) := (s.slot e.t d.slot, s.slot e.t d.tslot)
        if s.drainOk e.t d k tk = false then faults { kind := matrixParam }
        else if elementOf k.elem = none ∨ (d.transposed = true ∧ elementOf tk.elem = none) then faults { kind := formatSlotInvalid }
        else if e.t.tiles ≤ f.a.toNat then faults { kind := tileInvalid }
        else match s.drainFault e.t d k tk with
          | some i => faults i
          | none => .ok (.matrix (.drain f.a.toNat b) true
              ((d.extents e.t k tk).flatMap fun x => (s.extentBuffers e.t x).map fun y => (y.1.id, y.2)).eraseDups false
              (if d.mode = 0 then none else some (d.dst, s.addScope e.t d (storedBytes k.elem 1) e.g.core))))

/-- R291, R316: MZERO enters the matrix queue once per issue without a number, or its lanes wait for room; a tile that the team lacks raises
TileInvalid. -/
def Sys2Proof.Machine.TilesAreCleared : Prop :=
  ∀ (f : Fields) (low : Nat),
    let k := f.b.toNat
    let work : Submit := .matrix (.zero k) false [] false none
    let x (e : Env) (w : Submit) : Submission := e.submission [] w
    let room (e : Env) : Bool := e.admitted low 5 (x e work) { e.s with ids := e.s.ids + 1 }
    Acts (.mzero f) f (fun e _ => e.t.tiles ≤ k) (fun _ _ s => s) (fun _ _ _ => { fault := some { kind := tileInvalid } }) ∧
    Completes (.mzero f) f (fun e ls => ls.head? = some low ∧ k < e.t.tiles ∧ room e = true)
      (fun e _ s => (s.enterQueue e.g low work).2) (fun e ls => e.passed ls) ∧
    Completes (.mzero f) f (fun e ls => ls.head? = some low ∧ k < e.t.tiles ∧ room e = false) (fun _ _ s => s)
      (fun e ls => e.waiting ls (fun j => .room 5 (x e (if j = low then work else .joined))) none)

/-- R299, R309, R310: the parameters of a multiply and of a drain. -/
def Sys2Proof.Machine.MatrixParametersAreChecked : Prop :=
  ∀ (s : State) (t : Team),
    (∀ x : Multiply, s.multiplyOk t x = true ↔
      1 ≤ x.m ∧ x.m ≤ 128 ∧ 1 ≤ x.n ∧ x.n ≤ 256 ∧ 32 ≤ x.k ∧ x.k ≤ 16384 ∧ x.k % 32 = 0 ∧ x.aStr % 4 = 0 ∧ x.bStr % 4 = 0 ∧
      x.aOff % 4 = 0 ∧ x.bOff % 4 = 0 ∧
      (x.aen = true → x.vecOff % 2 = 0 ∧ s.classOf t x.tbase = .global ∧ x.tbase.toNat % 16384 = 0)) ∧
    ∀ (d : Drain) (k tk : Slot), s.drainOk t d k tk = true ↔
      1 ≤ d.m ∧ d.row0 + d.m ≤ 128 ∧ 1 ≤ d.n ∧ d.col0 + d.n ≤ 256 ∧ d.mode ≠ 3 ∧
      (d.mode ≠ 0 → k.elem ≤ 2 ∧ k.kind = 0 ∧ d.tdst = 0) ∧ (d.mode = 2 → s.classOf t d.dst = .global) ∧ d.rank < d.count ∧
      s.classOf t d.dst ≠ .unused ∧ (d.tdst ≠ 0 → s.classOf t d.tdst ≠ .unused) ∧
      (k.blocks = true → d.n % blockSize k.kind = 0) ∧ (d.tdst ≠ 0 → tk.blocks = true → d.m % blockSize tk.kind = 0)

/-- R292, R297, R299, R309, R315: an accepted operation stands last in the queue of its team with the number after SEQA, or without one,
and a drain in an add mode becomes something for its thread's FENCE to wait for. -/
def Sys2Proof.Machine.AcceptedOperationsQueue : Prop :=
  ∀ (s : State) (g : Group) (j : Nat) (work : MatrixWork) (numbered full : Bool) (adds : Option (DWord × Nat)) (t : Team),
    s.team? g.team = some t →
    let r := s.enterQueue g j (.matrix work numbered [] full adds)
    r.1 = [BitVec.ofNat 32 (t.matrix.seqa + 1)] ∧
    (∃ (u : Team) (m : MatrixEntry), r.2.team? t.id = some u ∧ u = { t with matrix := u.matrix, markNext := u.markNext } ∧
      u.matrix = { t.matrix with seqa := if numbered = true then t.matrix.seqa + 1 else t.matrix.seqa,
                                 queue := t.matrix.queue ++ [m] } ∧
      (u.markNext = true ↔ t.markNext = true ∧ ∀ b, work ≠ .multiply b) ∧
      m.number = (if numbered = true then t.matrix.seqa + 1 else 0) ∧ m.work = work ∧ m.gid = g.id ∧ m.lane = j ∧ m.holds = [] ∧
      m.full = full ∧ m.after = s.pendingScratch g.id j ∧ m.started = false ∧
      (m.marked = true ↔ t.markNext = true ∧ ∃ b, work = .multiply b)) ∧
    (adds = none → r.2.ops = s.ops) ∧
    ∀ va scope, adds = some (va, scope) → ∃ o, r.2.ops = s.ops ++ [o] ∧ o.gid = g.id ∧ o.lanes = [j] ∧ o.access = .drainAdd s.ids scope

/-- R292, R299, R310, R315 to R317: what the matrix queue accepts, and how an accepted operation stands in it. -/
def Obligations.MatrixQueueAcceptance : Prop := Sys2Proof.Machine.MatrixOperationsAreAccepted ∧
  Sys2Proof.Machine.TilesAreCleared ∧
  Sys2Proof.Machine.MatrixParametersAreChecked ∧
  Sys2Proof.Machine.AcceptedOperationsQueue

/-- R226, R276, R318 to R321: MSEQ, MWAIT, AQRY, AINV and APREF. -/
def Sys2Proof.Machine.MatrixObservation : Prop :=
  ∀ f : Fields,
    Owes (.mseq f) f (fun e j =>
      if f.mod.getLsbD 0 then e.setReg j f.d (BitVec.ofNat 32 (e.t.matrix.stat.toNat +
        (if e.t.matrix.queue.isEmpty then 0 else 16) + ((List.range 4).map fun t =>
          if (e.t.matrix.accord t).isSome then 2 ^ (8 + t) else 0).sum))
      else e.setPair j f.d (BitVec.ofNat 64 e.t.matrix.seqc)) ∧
    WaitsFor (.mwait f) f (fun e => e.t.matrix.seqc) (fun e j => numberOf e.t.matrix.seqa (e.reg j f.b).toNat)
      (fun n => .matrix n) ∧
    Owes (.aqry f) f (fun e j => e.setReg j f.d
      (if f.mod.toNat % 4 = 0 then e.t.matrix.repl else if f.mod.toNat % 4 = 1 then e.t.matrix.miss
       else if (e.s.core e.g.core).accords.any (fun x => x.hasTag e.t.ctx (e.pair j f.a) ((e.reg j f.b).toNat % 65536)
         ((e.reg j f.b).toNat / 65536 * 16384)) then 1 else 0)) ∧
    (∀ j, Completes (.ainv f) f (fun e ls => ls.head? = some j ∧ ∀ o ∈ e.s.ops, o.id < e.s.ids)
      (fun e ls s =>
        let r := s.addOp e j none 0 (.accordDrop (f.mod.toNat % 4) (if f.mod.toNat % 4 = 0 then 0 else e.pair j f.a)
          ((e.reg j f.b).toNat % 65536) (e.t.matrix.queue.map fun m => m.uid))
        { r with ops := s.ops ++ ((r.ops.getLast?).map fun o => { o with others := ls.drop 1 }).toList })
      fun e ls => e.passed ls) ∧
    Completes (.apref f) f (fun _ _ => True)
      (fun e ls => inOrder ls fun j s =>
        s.prefetchSlice e.t e.g.core (e.pair j f.a) ((e.reg j f.b).toNat % 65536) f.imm.toNat)
      fun e ls => e.passed ls

/-- R318: the number that MWAIT waits for: the one at most SEQA, within 2^32 of it, whose low word the register holds. A low word above
SEQA names one that lies before the first, which SEQC has reached: 0 stands for it. -/
def Sys2Proof.Machine.NumbersByTheirLowWord : Prop :=
  ∀ seqa low : Nat, low < 2 ^ 32 →
    (low ≤ seqa → numberOf seqa low ≤ seqa ∧ seqa < numberOf seqa low + 2 ^ 32 ∧ numberOf seqa low % 2 ^ 32 = low) ∧
    (seqa < low → numberOf seqa low = 0)

/-- R301, R304, R319: what APREF leaves of one slice. Nothing where TBASE or the origin is no multiple of 16 KiB, the id is 0xFFFF or not below
NIDS, the origin lies past the entry, or a page cannot be read; a slice that the core's accord cache holds stays there; one that it lacks
stands there with the 16 KiB of M at its place, and the others stay while the cache has room. Nothing but the cache changes, MISS and REPL
neither. -/
def Sys2Proof.Machine.SlicesArePrefetched : Prop :=
  ∀ (s : State) (t : Team) (core : Nat) (tbase : DWord) (id origin : Nat),
    let r := s.prefetchSlice t core tbase id origin
    let reader : Team := { t with core }
    let tagged (x : Slice) : Prop := x.ctx = t.ctx ∧ x.tbase = tbase ∧ x.accord = id ∧ x.origin = origin
    r = { s with cores := r.cores } ∧
    (tbase.toNat % 16384 ≠ 0 ∨ origin % 16384 ≠ 0 ∨ id = 0xFFFF → r = s) ∧
    (∀ e, s.memoryBytes reader tbase 20 = .error e → r = s) ∧
    ∀ h, s.memoryBytes reader tbase 20 = .ok h →
      let nids := leNat (h.take 4)
      let size := leNat ((h.drop 4).take 4) * 16384
      let place : DWord := tbase + BitVec.ofNat 64 (0x4000 + id * size) + BitVec.ofNat 64 origin
      (nids ≤ id ∨ size ≤ origin → r = s) ∧
      (tbase.toNat % 16384 = 0 → origin % 16384 = 0 → id ≠ 0xFFFF → id < nids → origin < size →
        ((∃ x ∈ (s.core core).accords, tagged x ∧ x.dropped = false) →
          (r.core core).accords = (s.core core).accords.map fun x =>
            if x.hasTag t.ctx tbase id origin = true then { x with used := s.now } else x) ∧
        ((∀ x ∈ (s.core core).accords, tagged x → x.dropped = true) →
          (∀ e, s.memoryBytes reader place 16384 = .error e → r = s) ∧
          ∀ bs, s.memoryBytes reader place 16384 = .ok bs → (s.core core).accords.length < 16 →
            (∃ x ∈ (r.core core).accords, tagged x ∧ x.dropped = false ∧ ∀ i, i < 16384 → sget 0 x.bytes i = bs.getD i 0) ∧
            ∀ y, ¬tagged y → (y ∈ (r.core core).accords ↔ y ∈ (s.core core).accords)))

/-- R276, R282 to R285, R318 to R321: observing and stopping the engine queues, and observing the matrix queue and the accord
cache. What it says that the rules leave open is the model's choice, log 31. -/
def Obligations.EngineAndMatrixObservation : Prop := Sys2Proof.Machine.EngineObservation ∧
  Sys2Proof.Machine.StoppedQueues ∧
  Sys2Proof.Machine.MatrixObservation ∧
  Sys2Proof.Machine.NumbersByTheirLowWord ∧
  Sys2Proof.Machine.SlicesArePrefetched

/-! ## Traps, system instructions and privilege (R329 to R336, R352, R366 to R376) -/

namespace Sys2Proof.Machine

/-- An issue whose acting lanes take a trap of their own making (R367): they stand at the instruction until, one after another,
they enter the handler with the next instruction as the resume point. -/
def EntersHandler (i : Instr) (f : Fields) (holds : Env → Prop) (info : FaultInfo) : Prop :=
  CompletesThen i f (fun e _ => holds e) (fun _ _ s => s) (fun e ls => e.moved ls fun _ l => l.countDown)
    fun _ ls iss t => inOrder ls (fun j r => r.trapEntry iss.gid j info (nextPC iss.pc iss.len) iss.len) t

/-- The lanes that may make a privileged write (R336). -/
def Env.able (e : Env) (ls : List Nat) : List Nat := ls.filter fun j => (e.g.lane j).tl || e.t.priv

/-- No thread waits for anything. -/
def nobodyWaits (s : State) : Prop := ∀ g ∈ s.groups, ∀ l ∈ g.lanes, ∀ w, l.status ≠ .waiting w

/-- The registers that MFC reads, by number (R329, R335). -/
def registerValue (e : Env) (j n : Nat) : DWord :=
  let l := e.g.lane j
  let x := e.s.ctx e.t.ctx
  if n = 0x000 then BitVec.ofNat 64 (l.kind.toNat + if l.tl then 256 else 0)
  else if n = 0x001 then l.tinfo.setWidth 64
  else if n = 0x002 then l.taddr
  else if n = 0x003 then l.tpc
  else if n = 0x004 then l.tnpc
  else if n = 0x005 then l.tframe
  else if n = 0x100 then x.trapbase
  else if n = 0x101 then x.trapctl.setWidth 64
  else if n = 0x102 then x.framectl.setWidth 64
  else if n = 0x103 then x.embqctl.setWidth 64
  else if n = 0x104 then x.audctl.setWidth 64
  else if n = 0x105 then x.audbase
  else if n = 0x106 then x.audstat
  else if n = 0x107 then x.eqbase
  else if n = 0x108 then x.eqctl.setWidth 64
  else if n = 0x109 then x.eqhead.setWidth 64
  else if n = 0x10A then x.eqtail.setWidth 64
  else if n = 0x10B then x.eqovf.setWidth 64
  else if n = 0x10C then x.svcbase
  else if n = 0x10D then x.svcctl.setWidth 64
  else if n = 0x10E then x.svcsig
  else if n = 0x200 then BitVec.ofNat 64 e.g.core
  else if n = 0x201 then BitVec.ofNat 64 (e.s.partitionCores x.partition).length
  else sget 0 x.fatal (n - 0x110)

end Sys2Proof.Machine

/-- R330, R366, R367: TRAP and BRK enter the handler with no record; BRK under an attached debugger halts the group instead. -/
def Obligations.TrapInstructionsEnterTheHandler : Prop :=
  ∀ f : Fields,
    let attached (e : Env) : Prop := e.s.hub.dbgEn = true ∧ (e.s.ctx e.t.ctx).debug = true
    EntersHandler (.trap f) f (fun _ => True) { kind := trapKind, info := BitVec.ofNat 32 f.b.toNat } ∧
    EntersHandler (.brk f) f (fun e => ¬attached e) { kind := breakpoint, info := BitVec.ofNat 32 f.b.toNat } ∧
    Completes (.brk f) f (fun e ls => attached e ∧ ls ≠ [])
      (fun e _ s => s.mapGroup e.g.id fun g => { g with halted := true }) (fun e ls => e.passed ls)

/-- R95, R330, R332: what trap entry saves and where it goes. Where the ring has room the frame of the handler starts at the interrupted hi; the trap
registers, the trap link and a0 to a15 hold what the rule lists, and the registers of the interrupted frame stay as they were. Where it
has none the lane waits for room, and the trap link of a frame of which only the first 16 registers are held says so (DEDUCED, the model's
choices, log 21); where the handler's frame would pass KMAX, or TRAPBASE fails as
a target, the trap is a double one. -/
def Obligations.TrapEntrySavesAndGoes : Prop :=
  ∀ (s : State) (gid j : Nat) (g : Group) (t : Team) (i : FaultInfo) (resume : DWord) (m : Nat),
    s.group? gid = some g → s.team? g.team = some t → j < g.lanes.length →
    let l := g.lane j
    let trapbase := (s.ctx t.ctx).trapbase
    (g.kmax < l.hi + 32 → s.trapEntry gid j i resume m = s.doubleTrap gid j { kind := stackOverflow } l.pc i.kind) ∧
    (l.hi + 32 ≤ g.kmax → g.budget < l.hi + 16 - l.lo → s.trapEntry gid j i resume m =
      s.mapLane gid j fun l => { l with status := .waiting (.handler i resume m), timer := none, faulting := none }) ∧
    (l.hi + 32 ≤ g.kmax → l.hi + 16 - l.lo ≤ g.budget → ∀ b, s.enterLine t.ctx g.core trapbase .call = .bad b →
      s.trapEntry gid j i resume m = s.doubleTrap gid j b l.pc i.kind) ∧
    (l.hi + 32 ≤ g.kmax → l.hi + 16 - l.lo ≤ g.budget → l.lo ≤ l.hi → i.kind < 256 →
      (∀ b, s.enterLine t.ctx g.core trapbase .call ≠ .bad b) →
      ∃ g' : Group, (s.trapEntry gid j i resume m).group? gid = some g' ∧
        (∀ k, k ≠ j → g'.lane k = g.lane k) ∧
        let r := g'.lane j
        r.tl = true ∧ r.kind.toNat = i.kind ∧ r.tinfo = i.info ∧ r.taddr = i.addr ∧ r.tpc = resume ∧ r.tnpc = nextPC l.pc m ∧
        r.tframe = BitVec.ofNat 64 (l.depth * 2 ^ 48 + l.n / 16 * 2 ^ 44 + l.k * 2 ^ 40 + l.fp) ∧
        r.link r.depth = makeLink 0 (if l.hi = l.fp + 16 then 0 else l.n / 16) 0 ∧ r.depth = l.depth + 1 ∧ r.fp = l.hi ∧ r.n = 0 ∧ r.k = 0 ∧
        r.hi = l.hi + 16 ∧ r.lo = l.lo ∧ r.preds = l.preds ∧ r.pc = trapbase ∧ r.status = .ready ∧
        sget 0 r.ring (l.hi % g.budget) = BitVec.ofNat 32 i.kind ∧ sget 0 r.ring ((l.hi + 1) % g.budget) = i.info ∧
        sget 0 r.ring ((l.hi + 2) % g.budget) = i.addr.extractLsb' 0 32 ∧
        sget 0 r.ring ((l.hi + 3) % g.budget) = i.addr.extractLsb' 32 32 ∧
        sget 0 r.ring ((l.hi + 4) % g.budget) = resume.extractLsb' 0 32 ∧
        sget 0 r.ring ((l.hi + 5) % g.budget) = resume.extractLsb' 32 32 ∧
        (∀ x, 6 ≤ x → x < 16 → sget 0 r.ring ((l.hi + x) % g.budget) = 0) ∧
        ∀ x, l.lo ≤ x → x < l.hi → sget 0 r.ring (x % g.budget) = sget 0 l.ring (x % g.budget))

/-- R10, R59, R330, R332, R333, R338: a fault of lanes without outstanding results writes one record for all of them that are in no
handler; with HEN = 1 they enter it, one after another, each at its faulting instruction, with HEN = 0 they are parked as fatal under
POLICY; a lane in its handler takes a double trap. That all lanes of a fault wait for the last outstanding result of any of them, and
share one record then, is the model's choice (DEDUCED, log 19). -/
def Obligations.FaultsTakeTheTrapPath : Prop :=
  ∀ (s : State) (gid j : Nat) (ls : List Nat) (g : Group) (t : Team) (i : FaultInfo) (m : Nat),
    s.group? gid = some g → s.team? g.team = some t →
    let x := s.ctx t.ctx
    let record (ls : List Nat) (first : Nat) (dead double : Bool) : State :=
      s.addRecord (s.faultRecord g t (maskOf ls) i (g.lane j).pc first dead double)
    (ls.head? = some j → (∀ k ∈ ls, (g.lane k).pend = [] ∧ (g.lane k).tl = false) →
      (x.hen = true → s.raiseFault gid ls i m =
        inOrder ls (fun k r => r.trapEntry gid k i (g.lane k).pc m) (record ls 0 false false)) ∧
      (x.hen = false → x.policy = 0 → s.raiseFault gid ls i m = (record ls 0 true false).parkFatal gid ls) ∧
      (x.hen = false → x.policy = 1 → s.raiseFault gid ls i m = ((record ls 0 true false).parkFatal gid ls).killTeam t.id i.kind) ∧
      (x.hen = false → 2 ≤ x.policy → s.raiseFault gid ls i m = ((record ls 0 true false).parkFatal gid ls).haltContext t.ctx)) ∧
    ((g.lane j).pend = [] → (g.lane j).tl = true → i.kind ≠ uncorrectable → (g.lane j).kind.toNat ≠ uncorrectable → x.policy = 0 →
      s.raiseFault gid [j] i m = ((record [j] (g.lane j).kind.toNat true true).parkFatal gid [j]).parkFatal gid [j]) ∧
    ((∃ k ∈ ls, (g.lane k).pend ≠ []) → s.raiseFault gid ls i m = s.mapGroup gid fun g => g.mapLanes fun k l =>
      if k ∈ ls then { l with status := .stalled true, faulting := some (i, m, maskOf ls) } else l) ∧
    (ls ≠ [] → (∀ k ∈ ls, k < g.lanes.length ∧ k < 32 ∧ (g.lane k).pend = [] ∧ (g.lane k).faulting = some (i, m, maskOf ls)) →
      j ∈ ls → ls = lanesOf (maskOf ls) →
      s.resumeFault gid j = (s.mapGroup gid fun g => g.mapLanes fun k l =>
        if k ∈ ls then { l with faulting := none } else l).trapPath gid ls i m)

/-- R68, R263, R331, R369: RETT, lane by lane. Without a handler it is illegal; with the interrupted frame resident it restores that frame and goes
to TPC, or TNPC with .next, checked as a branch target where MTC has written it; otherwise it waits for the refill, with the handler's
registers released where both do not fit. A frame whose registers an uncompleted RET had released comes back without them. -/
def Obligations.ReturnFromHandler : Prop :=
  ∀ f : Fields,
    let target (l : Lane) : DWord := if f.mod.getLsbD 0 then l.tnpc else l.tpc
    let wrote (l : Lane) : Bool := if f.mod.getLsbD 0 then l.tnpcSet else l.tpcSet
    let fp (l : Lane) : Nat := l.tframe.toNat % 2 ^ 32
    let n (l : Lane) : Nat := 16 * (l.tframe.toNat / 2 ^ 44 % 16)
    let depth (l : Lane) : Nat := l.tframe.toNat / 2 ^ 48 % 2 ^ 16
    let top (l : Lane) : Nat := if n l = 0 ∨ l.released = some (fp l) then fp l + 16 else fp l + 32 + n l
    let resident (l : Lane) : Prop := l.lo ≤ fp l ∧ (depth l = 0 ∨ l.linkLo ≤ depth l)
    Acts (.rett f) f (fun _ _ => True)
      (fun e ls => inOrder ls fun j s =>
        if (e.g.lane j).tl = true ∧ resident (e.g.lane j) then e.fetches j (target (e.g.lane j)) s else s)
      fun e _ j =>
        let own := e.g.lane j
        if own.tl = false then illegal
        else if resident own then
          e.goes j (target own) (if wrote own then .branch else .none) fun l =>
            { l with fp := fp l, n := n l, k := l.tframe.toNat / 2 ^ 40 % 16, depth := depth l,
                     hi := if n l = 0 ∨ l.released = some (fp l) then fp l + 16 else fp l + 32 + n l,
                     released := none, tl := false, pc := target own, fetch := own.fetch,
                     spillTo := (l.spillTo.map (min (fp l))).filter fun x => decide (l.lo < x) }
        else
          { change := fun l => if l.hi - fp own ≤ e.g.budget then l else { l with hi := top own },
            flow := .wait (.refill (fp own) (depth own)) none }

/-- R335, R336, R370: MFC reads each register of the tables, and a number that is none is illegal; MTC writes TPC and TNPC lane by lane, and a
context register with the value of the lowest privileged lane where that lies in range; the lanes without privilege take Privilege,
one by one, and a number that cannot be written, or a value out of range, is illegal. -/
def Sys2Proof.Machine.RegisterMoves : Prop :=
  ∀ f : Fields,
    let n := f.imm.toNat
    let v (e : Env) (j : Nat) : DWord := if cregWide n then e.pair j f.a else (e.reg j f.a).setWidth 64
    (cregKnown n = true → Owes (.mfc f) f (fun e j =>
      if cregWide n then e.setPair j f.d (registerValue e j n) else e.setReg j f.d ((registerValue e j n).extractLsb' 0 32))) ∧
    (cregKnown n = false → Acts (.mfc f) f (fun _ _ => True) (fun _ _ s => s) fun _ _ _ => illegal) ∧
    (cregWritable n = false → Acts (.mtc f) f (fun _ _ => True) (fun _ _ s => s) fun _ _ _ => illegal) ∧
    (n = 0x003 → Completes (.mtc f) f (fun _ _ => True) (fun _ _ s => s)
      (fun e ls => e.changed ls fun j l => { l with tpc := e.pair j f.a, tpcSet := true })) ∧
    (n = 0x004 → Completes (.mtc f) f (fun _ _ => True) (fun _ _ s => s)
      (fun e ls => e.changed ls fun j l => { l with tnpc := e.pair j f.a, tnpcSet := true })) ∧
    (0x100 ≤ n → cregWritable n = true → Acts (.mtc f) f (fun _ _ => True)
      (fun e ls s => match (e.able ls).head? with
        | some low => if cregInRange n (v e low) = true then s.mapCtx e.t.ctx fun x => x.setRegister n (v e low) else s
        | none => s)
      fun e ls j => match (e.able ls).head? with
        | some low =>
          if j ∉ e.able ls then { fault := some { kind := privilege } }
          else if cregInRange n (v e low) = true then {}
          else { fault := some { kind := illegalInstruction }, together := true }
        | none => { fault := some { kind := privilege } })

/-- R336: on lanes outside a handler, in a team without the privileged flag, MTC of a context register, STEST and TLBGEN take
Privilege, one lane at a time, and have no other effect. -/
def Sys2Proof.Machine.PrivilegeIsChecked : Prop :=
  ∀ (i : Instr) (f : Fields),
    (i = .stest f ∨ i = .tlbgen f ∨ (i = .mtc f ∧ 0x100 ≤ f.imm.toNat ∧ cregWritable f.imm.toNat = true)) →
    ∀ s iss g t, Issues i f s iss g t →
      let ls := actors i f (issueEnv i s iss g t)
      (∀ j ∈ ls, (g.lane j).tl = false) → t.priv = false →
      ∃ t', exec i s = .next (inOrder ls (fun j r => r.raiseFault iss.gid [j] { kind := privilege } iss.len) t') ∧
        Leaves s.taken t' iss.gid fun x =>
          ((issueEnv i s iss g t).moved ls (fun _ l => l) x).stalling (drainLanes i g iss.lanes)

/-- R335: the numbers of the registers that MFC knows, those that MTC may write, and the ranges of their values. That the alignments of
AUDBASE, EQBASE and SVCBASE are ranges that MTC checks is the model's choice (DEDUCED, log 21). -/
def Sys2Proof.Machine.RegisterNumbers : Prop :=
  ∀ n : Nat, n < 4096 →
    (cregKnown n = true ↔ n ≤ 0x005 ∨ (0x100 ≤ n ∧ n ≤ 0x10E) ∨ (0x110 ≤ n ∧ n ≤ 0x117) ∨ n = 0x200 ∨ n = 0x201) ∧
    (cregWritable n = true ↔ n = 0x003 ∨ n = 0x004 ∨ (0x100 ≤ n ∧ n ≤ 0x105) ∨ (0x107 ≤ n ∧ n ≤ 0x109) ∨ (0x10C ≤ n ∧ n ≤ 0x10E)) ∧
    ∀ v : DWord, cregInRange n v = true ↔
      (n = 0x105 → v.toNat % 2 ^ 18 = 0) ∧ (n = 0x107 ∨ n = 0x10C → v.toNat % 4096 = 0) ∧
      (n = 0x108 → 6 ≤ v.toNat % 32 ∧ v.toNat % 32 ≤ 16) ∧ (n = 0x10D → v.toNat % 16 ≤ 10)

/-- R94, R237, R334, R335, R354: what a write leaves in a context register; reserved fields read 0, and a write of EQBASE or EQCTL
empties the error queue. -/
def Sys2Proof.Machine.ContextRegisterWrites : Prop :=
  ∀ (x : Context) (v : DWord),
    let w : Word := v.extractLsb' 0 32
    (x.setRegister 0x100 v).trapbase = v ∧ (x.setRegister 0x101 v).trapctl = w &&& 0xF#32 ∧
    (x.setRegister 0x102 v).framectl = w &&& 0xFF#32 ∧ (x.setRegister 0x103 v).embqctl = w &&& 0xFFFF#32 ∧
    (x.setRegister 0x104 v).audctl = w &&& 0xFF1F#32 ∧ (x.setRegister 0x105 v).audbase = v ∧ (x.setRegister 0x10C v).svcbase = v ∧
    (x.setRegister 0x10D v).svcctl = w &&& 0xF#32 ∧ (x.setRegister 0x10E v).svcsig = v ∧
    (x.setRegister 0x107 v).eqbase = v ∧ (x.setRegister 0x107 v).unread = 0 ∧
    (x.setRegister 0x108 v).eqctl = w &&& 0x1F#32 ∧ (x.setRegister 0x108 v).unread = 0 ∧
    ((x.eqtail - w).toNat ≤ x.queueSize → (x.setRegister 0x109 v).eqhead = w) ∧
    (∀ n, (x.setRegister n v).fatal = x.fatal ∧ (x.setRegister n v).eqtail = x.eqtail ∧
      (x.setRegister n v).eqovf = x.eqovf ∧ (x.setRegister n v).audstat = x.audstat)

/-- R94, R237, R334, R335, R354, R370: MFC and MTC, and what a write leaves in a context register. What it says that the rules
leave open is the model's choice, log 21. -/
def Obligations.RegistersMoveByNumber : Prop := Sys2Proof.Machine.RegisterMoves ∧
  Sys2Proof.Machine.RegisterNumbers ∧
  Sys2Proof.Machine.ContextRegisterWrites

/-- R351, R352, R368: SVC. A lane without a frame is illegal; the others post one request in the next free slot and park past the
instruction, wait where no slot is free, and fault together, park or wait where the slot or the signal word cannot be reached. -/
def Sys2Proof.Machine.ServiceRequests : Prop :=
  ∀ (f : Fields) (k : Nat) (slot signal : Reached),
    let x (e : Env) := e.s.ctx e.t.ctx
    let framed (e : Env) (ls : List Nat) : List Nat := ls.filter fun j => (e.g.lane j).n != 0
    let free (e : Env) : Option Nat := ({ e.s with ids := e.s.ids + 1 } : State).freeSlot e.t.ctx e.g.core
    let all (e : Env) (j : Nat) (o : LaneOut) : LaneOut := if (e.g.lane j).n = 0 then illegal else o
    let va (e : Env) : DWord := (x e).svcbase + BitVec.ofNat 64 (4096 * k)
    let seen (e : Env) : Prop := free e = some k ∧ e.reachPosting (va e) 4 = slot
    let asks (e : Env) (ls : List Nat) (r : Reached) (a : DWord) (s : State) : State := match r with
      | .park va => s.requestMove e.t.ctx va
      | .notReady place _ => inOrder (framed e ls) (fun j s => s.blockedAt e.g j a place) s
      | _ => s
    let halts (r : Reached) : LaneOut := match r with
      | .fault i => { fault := some i, together := true }
      | r => stopped r
    let posted (e : Env) : LaneOut := { change := fun l => l.advance e.m, flow := .park (.service k) }
    Acts (.svc f) f (fun e ls => framed e ls = []) (fun _ _ s => s) (fun _ _ _ => illegal) ∧
    Acts (.svc f) f (fun e ls => framed e ls ≠ [] ∧ free e = none) (fun _ _ s => s)
      (fun e _ j => all e j { flow := .wait .slot none }) ∧
    (slot.arrives = false → Acts (.svc f) f (fun e ls => framed e ls ≠ [] ∧ seen e)
      (fun e ls s => asks e ls slot (va e) s) fun e _ j => all e j (halts slot)) ∧
    ∀ place page, slot = .memory place page →
      Acts (.svc f) f (fun e ls => framed e ls ≠ [] ∧ seen e ∧ (x e).svcsig = 0)
        (fun e ls s => postService f e (framed e ls) k place none s) (fun e _ j => all e j (posted e)) ∧
      (signal.arrives = false → Acts (.svc f) f
        (fun e ls => framed e ls ≠ [] ∧ seen e ∧ (x e).svcsig ≠ 0 ∧ e.reachPosting (x e).svcsig 8 = signal)
        (fun e ls s => asks e ls signal (x e).svcsig s) fun e _ j => all e j (halts signal)) ∧
      ∀ p page', signal = .memory p page' → Acts (.svc f) f
        (fun e ls => framed e ls ≠ [] ∧ seen e ∧ (x e).svcsig ≠ 0 ∧ e.reachPosting (x e).svcsig 8 = signal)
        (fun e ls s => postService f e (framed e ls) k place (some p) s) (fun e _ j => all e j (posted e))

/-- R351, R352, R354: what a posted request leaves: STATE 1, the lanes, RSEQ, WHERE, the team's index, the program counter, each lane's A and
outs, zeros in the reserved fields; the signal word raised to RSEQ; the next RSEQ and the next slot. Said where no thread waits and the
service vector is off. -/
def Sys2Proof.Machine.PostedRequests : Prop :=
  ∀ (f : Fields) (e : Env) (j : Nat) (ls : List Nat) (k place : Nat) (signal : Option Nat) (s : State),
    ls.head? = some j → (∀ l ∈ ls, l < 32) → ls.Nodup → nobodyWaits s → (s.ctx e.t.ctx).svcnote.getLsbD 0 = false → place + 4096 ≤ 2 ^ 64 →
    (∀ p, signal = some p → p + 8 ≤ place ∨ place + 4096 ≤ p) → (s.ctx e.t.ctx).live = true →
    let x := s.ctx e.t.ctx
    let t := postService f e ls k place signal s
    t.readNat place 4 = 1 ∧ t.readNat (place + 0x004) 4 = (maskOf ls).toNat ∧ t.readNat (place + 0x008) 8 = x.rseq.toNat ∧
    t.readNat (place + 0x010) 4 = e.g.whereWord.toNat ∧ t.readNat (place + 0x014) 4 = e.t.index % 2 ^ 32 ∧
    t.readNat (place + 0x018) 8 = (e.g.lane j).pc.toNat ∧
    (∀ l ∈ ls, t.readNat (place + 0x020 + 4 * l) 4 = (e.reg l f.a).toNat ∧
      ∀ o, o < 16 → t.readNat (place + 0x100 + 64 * l + 4 * o) 4 = (e.reg l (BitVec.ofNat 7 (0x50 + o))).toNat) ∧
    (∀ a, (0x0A0 ≤ a ∧ a < 0x100) ∨ (0x900 ≤ a ∧ a < 0x1000) → t.byte (place + a) = 0) ∧
    (∀ p, signal = some p → t.readNat p 8 = max (s.readNat p 8) x.rseq.toNat) ∧
    (t.ctx e.t.ctx).rseq = x.rseq + 1 ∧ (t.ctx e.t.ctx).svcNext = (k + 1) % 2 ^ (x.svcctl.toNat % 16)

/-- R351, R352, R368: SVC posts a request and parks its lanes, and what stands in the slot. -/
def Obligations.ServiceRequests : Prop := Sys2Proof.Machine.ServiceRequests ∧
  Sys2Proof.Machine.PostedRequests

/-- R226, R333, R336, R355, R371 to R376: ERAISE, AUDIT, STEST, TLBGEN, LSWEEP and WAITSIG; the lanes of STEST and TLBGEN without privilege
take Privilege, one by one. That these two take the operand of their lowest privileged lane (log 21) and that a lane of ERAISE.fatal
stays at the instruction (log 36) are the model's choices (DEDUCED). -/
def Sys2Proof.Machine.SystemInstructions : Prop :=
  ∀ f : Fields,
    let raised (e : Env) (ls : List Nat) (dead : Bool) (s : State) : State :=
      s.addRecord (s.faultRecord e.g e.t (maskOf ls)
        { kind := errorRaised, info := e.reg (ls.headD 0) f.a, aux := e.pair (ls.headD 0) f.b } (e.g.lane (ls.headD 0)).pc 0 dead false)
    let value (e : Env) (ls : List Nat) : Nat := (e.reg ((e.able ls).headD 0) f.a).toNat
    let served (e : Env) (ls : List Nat) : Bool :=
      value e ls < 16 && (e.s.partitionMask (e.s.ctx e.t.ctx).partition).testBit (value e ls)
    let judged (e : Env) (ls : List Nat) (j : Nat) (ok : Bool) (kind : Nat) (o : LaneOut) : LaneOut :=
      if j ∉ e.able ls then { fault := some { kind := privilege } } else if ok = true then o
      else { fault := some { kind }, together := true }
    (f.mod.getLsbD 0 = false → Completes (.eraise f) f (fun _ ls => ls ≠ [])
      (fun e ls s => raised e ls false s) (fun e ls => e.passed ls)) ∧
    (f.mod.getLsbD 0 = true → CompletesThen (.eraise f) f (fun _ ls => ls ≠ [])
      (fun e ls s => raised e ls true s) (fun e ls => e.moved ls fun _ l => l.countDown)
      fun _ ls iss t => t.applyPolicy iss.gid ls errorRaised) ∧
    Completes (.audit f) f (fun _ ls => ls ≠ [])
      (fun e _ s => s.mapTeam e.t.id fun t =>
        if f.mod.toNat % 4 = 0 then { t with markNext := true } else { t with audit := f.mod.toNat % 4 })
      (fun e ls => e.passed ls) ∧
    Acts (.stest f) f (fun _ _ => True)
      (fun e ls s => if e.able ls = [] ∨ served e ls = false ∨ f.mod.getLsbD 0 = true then s
        else s.mapSector (value e ls) fun x => { x with request := true })
      (fun e ls j =>
        let x := e.s.sector (value e ls)
        judged e ls j (served e ls) addressFault { writes := e.setReg j f.d (BitVec.ofNat 32
          (x.result + if f.mod.getLsbD 0 = false ∨ x.request = true then 4 else 0)) }) ∧
    Acts (.tlbgen f) f (fun _ _ => True)
      (fun e ls s =>
        let v := value e ls
        if e.able ls = [] ∨ 256 ≤ v then s
        else inOrder (e.able ls) (fun j r => r.addOp e j (some e.pid) 0
          (.generation (s.translated v) (BitVec.ofNat 32 ((s.raiseGeneration v).generation v)) (e.destsOf (e.able ls) j f.d false)))
          (s.raiseGeneration v))
      (fun e ls j => judged e ls j (decide (value e ls < 256)) illegalInstruction
        { places := e.destsOf (e.able ls) j f.d false, waits := 1 }) ∧
    Completes (.lsweep f) f (fun _ _ => True)
      (fun e ls => inOrder ls fun j s =>
        if e.s.classOf e.t (e.address f j) = .global then s.sweep (s.ctx e.t.ctx).asid (e.address f j) else s)
      (fun e ls => e.passed ls) ∧
    ∀ reach : Nat → Reached,
      let target (e : Env) (j : Nat) : Nat := (e.pair j f.b).toNat
      let met (e : Env) (j : Nat) (s : State) : Bool := s.signalReached e.t e.g j (e.pair j f.a) (target e j) none
      let act (e : Env) (j : Nat) (s : State) : State :=
        let r := reachEffect e j (reach j) s
        if (reach j).arrives = true ∧ met e j r = true then r.dropView e.t.id else r
      Acts (.waitsig f) f
        (fun e ls => e.quiet ∧ ∀ j ∈ ls, reachGeneric e j (e.pair j f.a) 8 8 0 true = reach j)
        (fun e ls => inOrder ls (act e))
        fun e ls j =>
          if (reach j).arrives = false then stopped (reach j)
          else
            let s := reachEffect e j (reach j) (e.turn ls (act e) j)
            if met e j s = true then { writes := reports f }
            else { flow := .wait (.signal (e.pair j f.a) (target e j) (s.signalSeen e.t e.g j (e.pair j f.a) none)) (limit f e.s) }

/-- R175, R376: a signal word has reached a target where its page translates, its home is ready, no access of the thread to it is on its way and
its value, read as by a .live load, is at least the target; a thread that has read a word of M below it reads again when M holds another. -/
def Sys2Proof.Machine.SignalsAreReadAtTheirHome : Prop :=
  ∀ (s : State) (t : Team) (g : Group) (j target place : Nat) (va : DWord) (page : PageEntry) (seen : Option Nat),
    s.translate t.ctx g.core none va 0 = .ok place page →
    let clear : Prop := s.home place = .ready ∧ ∀ o ∈ s.ops, o.isOf g.id j = true → o.touches place 8 = false
    (s.signalReached t g j va target seen = true ↔ clear ∧ seen ≠ some (s.readNat place 8) ∧
      target ≤ leNat ((List.range 8).map fun i => s.liveByte t (place + i))) ∧
    (clear → s.signalSeen t g j va seen = some (s.readNat place 8)) ∧
    (¬clear → s.signalSeen t g j va none = none)

/-- R167, R211, R374, R375: TLBGEN's accesses are those of the address space that are translated and not yet performed, contributions that
a tile holds among them; a sweep takes a page's
translations out of every last-page register, TLB and phase record, and no other. -/
def Sys2Proof.Machine.SweptTranslations : Prop :=
  (∀ (s : State) (asid id : Nat), id ∈ s.translated asid ↔
    (∃ r ∈ s.ranks, id ∈ r.ops ∧ (s.ctx r.ctx).asid = asid) ∨
    ∃ o ∈ s.ops, o.id = id ∧ (o.homeSpan.isSome = true ∨ o.isStore = true) ∧ ∃ t, s.team? o.team = some t ∧ (s.ctx t.ctx).asid = asid) ∧
  ∀ (s : State) (asid : Nat) (a : DWord),
    let swept (p : PageEntry) : Prop := p.asid = asid ∧ p.page = a.toNat / pageBytes p.size
    let t := s.sweep asid a
    (∀ gid j p, (t.lane gid j).lastPage = some p ↔ (s.lane gid j).lastPage = some p ∧ ¬swept p) ∧
    (∀ core p, p ∈ (t.core core).tlb → p ∈ (s.core core).tlb ∧ ¬swept p) ∧
    (∀ u ∈ t.teams, ∀ ph, u.phase = some ph → ∀ g ∈ ph.groups, ∀ l ∈ g.lanes, ∀ p, l.lastPage = some p → ¬swept p) ∧
    t.mem = s.mem ∧ t.generations = s.generations ∧ t.contexts = s.contexts ∧ t.ops = s.ops

/-- R167: a generation counts up by one modulo 65,536, for the address space named alone. -/
def Sys2Proof.Machine.GenerationsCount : Prop :=
  ∀ (s : State) (asid other : Nat),
    (s.raiseGeneration asid).generation asid = (s.generation asid + 1) % 65536 ∧
      (other ≠ asid → (s.raiseGeneration asid).generation other = s.generation other)

/-- R167, R336, R355, R371 to R376: the other system instructions, sweeps, and the count of generations. What it says that the
rules leave open is the model's choice, logs 21 and 36. -/
def Obligations.SystemInstructionsAndGenerations : Prop := Sys2Proof.Machine.SystemInstructions ∧
  Sys2Proof.Machine.SignalsAreReadAtTheirHome ∧
  Sys2Proof.Machine.SweptTranslations ∧
  Sys2Proof.Machine.GenerationsCount

/-- R5, R62, R65: a code without an instruction takes IllegalInstruction on its guarded lanes, and the other lanes pass it. -/
def Sys2Proof.Machine.UnassignedCodesAreIllegal : Prop :=
  ∀ (f : Fields) (major : BitVec 5) (minor : BitVec 10) (s : State) (iss : Issue) (g : Group) (t : Team),
    s.issue = some iss → s.group? iss.gid = some g → s.team? g.team = some t →
    let e := issueEnv (.unassignedCode f major minor) s iss g t
    guardOk f = true → e.guarded f ≠ [] →
    exec (.unassignedCode f major minor) s = .next
      ((e.s.mapGroup iss.gid (e.moved (e.guarded f) fun _ l => l)).raiseFault iss.gid (e.guarded f)
        { kind := illegalInstruction } iss.len)

/-- R5, R50, R56, R60, R65: a form that breaks a check, by its guard, its length or a field, takes IllegalInstruction and has no other
effect: on the whole convergence set where the guard is malformed or SEL has none, on the guarded lanes otherwise; the lanes that
do not fault pass it, but those that stall for a drain first. A nonzero LA of a kind other than L and a scope code of 7 break a check. -/
def Sys2Proof.Machine.IllegalFormsFault : Prop :=
  ∀ (i : Instr) (f : Fields) (c : Code) (s : State) (iss : Issue) (g : Group) (t : Team),
    fieldsOf i = some f → codeOf i = some c → s.issue = some iss → s.group? iss.gid = some g → s.team? g.team = some t →
    let e := issueEnv i s iss g t
    let malformed : Prop := guardOk f = false ∨ (isSel i = true ∧ f.ge = false)
    let broken : Prop := c.len < iss.len ∨ lenOk c.len f = false ∨ fieldsOk c.kind (useOf i) f = false
    (∀ ls, (malformed ∧ ls = lanesOf e.cs) ∨ (¬malformed ∧ broken ∧ ls = e.guarded f) → ls ≠ [] →
      exec i s = .next ((e.s.mapGroup iss.gid fun x => (e.moved ls (fun _ l => l) x).stalling (drainLanes i g iss.lanes)).raiseFault
        iss.gid ls { kind := illegalInstruction } iss.len)) ∧
    (c.kind ≠ .l → f.la ≠ 0 → fieldsOk c.kind (useOf i) f = false) ∧ (f.sc = 7 → fieldsOk c.kind (useOf i) f = false)

namespace Sys2Proof.Machine

/-- Some register forms, with what they write on each acting lane. -/
def plainForms (f : Fields) : List (Instr × (Env → Nat → List Write)) :=
  let op (g : Word → Word → Word) (e : Env) (j : Nat) : List Write := e.setReg j f.d (g (e.reg j f.a) (e.reg j f.b))
  [(.iadd f, op fun a b => a + b), (.isub f, op fun a b => a - b), (.imul f, op fun a b => a * b), (.and f, op fun a b => a &&& b),
   (.or f, op fun a b => a ||| b), (.xor f, op fun a b => a ^^^ b)]

end Sys2Proof.Machine

/-- R10, R89: a register that a lane cannot name is one of the window or the outs that its frame does not hold; r0 to the outs aside, every name is
good. An acting lane that uses such a name takes IllegalInstruction by itself, and has none of the instruction's effect: for every
instruction where all acting lanes do, and, for the register forms named, where some do and the others execute it. -/
def Sys2Proof.Machine.UnnamableRegistersAreIllegal : Prop :=
  (∀ (l : Lane) (n : BitVec 7), nameOk l n = true ↔
    (0x10 ≤ n.toNat → n.toNat < 0x50 → 16 * l.k + (n.toNat - 0x10) < l.n) ∧ (0x50 ≤ n.toNat → n.toNat < 0x60 → l.n ≠ 0)) ∧
  ∀ (i : Instr) (f : Fields) (s : State) (iss : Issue) (g : Group) (t : Team), Sound i f s iss g t →
    let e := issueEnv i s iss g t
    let acting := actors i f e
    let able := acting.filter fun j => namesGood i f e j
    let unable := acting.filter fun j => !namesGood i f e j
    let raised : State → State := inOrder unable fun j r => r.raiseFault iss.gid [j] { kind := illegalInstruction } iss.len
    (fieldsOf i = some f → (codeOf i).isSome → unable ≠ [] → able = [] →
      ∃ t', exec i s = .next (raised t') ∧
        Leaves s.taken t' iss.gid fun x => (e.moved unable (fun _ l => l) x).stalling (drainLanes i g iss.lanes)) ∧
    ∀ ws, (i, ws) ∈ plainForms f →
      let lead := leadOfWrites able (ws e)
      ∃ t' g', exec i s = .next (raised t') ∧ t'.group? iss.gid = some g' ∧ t' = { s.taken with groups := t'.groups } ∧
        (∀ x, x ≠ iss.gid → t'.group? x = s.group? x) ∧ g' = { g with lanes := g'.lanes, scalars := putScalars g.scalars lead } ∧
        ∀ j, j < g.lanes.length → let l := e.takeOver j (sharedOf (placesOf lead)) (g.lane j)
          g'.lane j = if j ∈ able then
              ((e.takeOver j (ownOf (placesOf (ws e j))) l).countDown.putAll e.g.budget (ws e j)).onward e.m e.s.clk.toNat
            else if j ∈ unable then l
            else if e.cs.getLsbD j = true then l.past e.m e.s.clk.toNat else l

/-- R5, R10, R50, R60, R62, R65, R89, R336: what an unprivileged lane, a code without an instruction, an illegal form and a register that a lane cannot name take. -/
def Obligations.PrivilegeAndUnassignedCodes : Prop := Sys2Proof.Machine.PrivilegeIsChecked ∧
  Sys2Proof.Machine.UnassignedCodesAreIllegal ∧
  Sys2Proof.Machine.IllegalFormsFault ∧
  Sys2Proof.Machine.UnnamableRegistersAreIllegal

/-! ## The whole machine: issue, decoding, reset, invariant -/

namespace Sys2Proof.Machine

/-- The instructions that write a register D, or a pair D, and nothing else, each with whether D is a pair. -/
def registerForms (f : Fields) : List (Instr × Bool) :=
  ([.iadd f, .iaddLong f, .isub f, .isubLong f, .imul f, .imulLong f, .imulh f, .imulhLong f, .and f, .andLong f, .or f, .orLong f,
    .xor f, .xorLong f, .andn f, .andnLong f, .shl f, .shlLong f, .shr f, .shrLong f, .shra f, .shraLong f, .imin f, .iminLong f,
    .imax f, .imaxLong f, .mov f, .movLong f, .popc f, .popcLong f, .sel f, .selLong f] : List Instr).map (fun i => (i, false)) ++
  ([.iaddi f, .movi f, .imad f, .ineg f, .iabs f, .rot f, .clz f, .fadd f, .faddLong f, .fsub f, .fsubLong f, .fmul f, .fmulLong f,
    .fmin f, .fminLong f, .fmax f, .fmaxLong f, .hadd2 f, .hadd2Long f, .hmul2 f, .hmul2Long f, .ffma f, .hfma2 f, .bfma2 f,
    .fclass f, .cvti f] : List Instr).map (fun i => (i, false)) ++
  ([.imadw f, .lea f, .dadd f, .dmul f, .dfma f] : List Instr).map fun i => (i, true)

end Sys2Proof.Machine

/-- R9, R38, R55, R57, R120, the frame of the register forms: an issue that completes leaves every byte of memory, every context, team and
other group, every lane outside the convergence set, and of the lanes inside it every predicate, frame, mode and handler
register and every register but the destination, as they were; results outstanding change only in what the instruction's window and its
destination take from them. -/
def Sys2Proof.Machine.RegisterFormsChangeTheirDestinationOnly : Prop :=
  ∀ f : Fields, ∀ i ∈ registerForms f, ∀ s iss g t, Issues i.1 f s iss g t →
    let e := issueEnv i.1 s iss g t
    ∃ t' g', exec i.1 s = .next t' ∧ t'.group? iss.gid = some g' ∧
      (∀ a, t'.byte a = s.byte a) ∧ t' = { s with issue := none, ids := s.ids + 1, groups := t'.groups } ∧
      (∀ x, x ≠ iss.gid → t'.group? x = s.group? x) ∧ g' = { g with lanes := g'.lanes, scalars := g'.scalars } ∧
      (∀ k, (∀ j ∈ actors i.1 f e, .scalar k ∉ e.destPlaces j f.d i.2) → sget 0 g'.scalars k = sget 0 g.scalars k) ∧
      ∀ j, let l := g.lane j
        let l' := g'.lane j
        (iss.lanes.getLsbD j = false → l' = { l with pend := l'.pend }) ∧ (l.pend = [] → l'.pend = []) ∧
        l' = { l with pc := l'.pc, fetch := l'.fetch, status := l'.status, stamp := l'.stamp, ring := l'.ring, pend := l'.pend } ∧
        (j ∉ actors i.1 f e → l'.ring = l.ring) ∧
        ∀ r, (∀ x, .ring x ∈ e.destPlaces j f.d i.2 → r ≠ x % g.budget) → sget 0 l'.ring r = sget 0 l.ring r

/-- R9, R10, R57, R59, R79: what an issue leaves on each lane of its group, by the outcome of the lane, for an instruction that writes no s register: a lane that
faults stays at the instruction; one that waits to execute it again, or parks on a page, does so with nothing of its results; one that waits
in the instruction has passed it but for the wait; the others have their results, at once or, of kind L, outstanding with their
lookahead, and go on; the lanes that do not act pass, and those outside the convergence set stay. -/
def Sys2Proof.Machine.OutcomesLaneByLane : Prop :=
  ∀ (e : Env) (i : Instr) (f : Fields) (acting : List Nat) (out : Nat → LaneOut) (x : Group) (j : Nat),
    (∀ k ∈ acting, ∀ p ∈ (out k).allPlaces, p.isScalar = false) → j < x.lanes.length →
    let l := x.lane j
    let r := (e.gives i f acting out x).lane j
    let o := out j
    let done (l : Lane) : Lane :=
      o.change (if kindOf i = .l then
          if o.allPlaces = [] then (e.takeOver j o.allPlaces l).countDown
          else { (e.takeOver j o.allPlaces l).countDown with
                 pend := (e.takeOver j o.allPlaces l).countDown.pend ++ [(e.pendingOf f.la.toNat
                   (acting.filter fun k => (out k).fault.isNone) out j).without fun p => !e.g.keeps e.s.now (lanesOf e.cs) j p] }
        else (e.takeOver j o.allPlaces l).countDown.putAll e.g.budget o.writes)
    (e.cs.getLsbD j = false → j ∉ acting → r = l) ∧
    (e.cs.getLsbD j = true → j ∉ acting → r = l.past e.m e.s.clk.toNat) ∧
    (j ∈ acting → e.cs.getLsbD j = true →
      (∀ i, o.fault = some i → r = l) ∧
      (o.fault = none →
        (o.flow = .next → r = (done l).onward e.m e.s.clk.toNat) ∧
        (∀ pc fetch, o.flow = .jump pc fetch → r = { done l with pc, fetch }.settle (e.s.clk.toNat + 1)) ∧
        (∀ w timer, o.flow = .wait w timer →
          r = if w.again = true then { o.change l with status := .waiting w, timer } else { done l with status := .waiting w, timer }) ∧
        (∀ va, o.flow = .park (.page va) → r = { l with status := if l.pend = [] then .parked (.page va) else .stalled true }) ∧
        (o.flow = .exit → r = { done l with status := .exited, pend := [], timer := none })))

namespace Sys2Proof.Machine

/-- The instructions of kind D whose effect lies in their own lanes alone, with their fields. -/
def drainingForms (f : Fields) : List Instr :=
  [.phase f, .fence f, .call f, .callx f, .win f, .ffill f, .bwait f, .cbwait f, .role f, .yield f, .xwait f, .mwait f, .trap f, .brk f,
   .svc f, .rett f, .mtc f, .eraise f, .waitsig f]

end Sys2Proof.Machine

/-- R55 to R58: issues inside an open lookahead window. Each instruction that a thread passes counts in its windows, and at the end of one the thread
stalls; an instruction of kind D issues only where every result has arrived, and the lanes that await one stall before it; with SLA = 1 the lanes
that read or write an outstanding destination take LookaheadViolation together, before any effect, a lane whose outstanding guard turns it
off too; with SLA = 0 a register or predicate reads as its old or its new value, and one that no window awaits as what it holds. Which of
the two it reads, and the fault of a lane that the guard turns off, are the model's choices (DESIGN CHOICE, log 6). -/
def Sys2Proof.Machine.LookaheadWindows : Prop :=
  (∀ (l : Lane) (m clk : Nat), let r := l.past m clk
    r.pc = nextPC l.pc m ∧ r.pend = l.pend.map (fun q => { q with left := q.left - 1 }) ∧ r.ring = l.ring ∧ r.preds = l.preds ∧
    ((∃ q ∈ l.pend, q.left ≤ 1) → r.status = .stalled false) ∧ ((∀ q ∈ l.pend, 1 < q.left) → r.status = .ready ∧ r.stamp = clk + 1)) ∧
  (∀ (f : Fields), ∀ i ∈ drainingForms f, ∀ s iss g t, s.issue = some iss → s.group? iss.gid = some g → s.team? g.team = some t →
    (∀ j ∈ lanesOf iss.lanes, (g.lane j).pend ≠ []) →
    kindOf i = .d ∧ exec i s = .next (s.taken.mapGroup iss.gid fun x => x.stalling (lanesOf iss.lanes))) ∧
  (∀ (i : Instr) (g : Group) (ls : LaneMask) (j : Nat),
    j ∈ drainLanes i g ls ↔ j ∈ lanesOf ls ∧ kindOf i = .d ∧ (g.lane j).pend ≠ []) ∧
  (∀ (i : Instr) (f : Fields) (e : Env) (j : Nat), (∀ b, i ≠ .bcast b) →
    (j ∈ breachLanes i f e ↔ (e.s.ctx e.t.ctx).sla = true ∧
      ((j ∈ lanesOf e.cs ∧ f.ge = true ∧ (e.g.lane j).awaits (.pred f.gp.toNat) = true) ∨
       (j ∈ actors i f e ∧ ∃ p ∈ allPlaces (usedOn i e f j) f (e.g.lane j) ++ unnamedPlaces i e j, (e.g.lane j).awaits p = true)))) ∧
  (∀ (i : Instr) (f : Fields) (s : State) (iss : Issue) (g : Group) (t : Team), fieldsOf i = some f → (codeOf i).isSome →
    s.issue = some iss → s.group? iss.gid = some g → s.team? g.team = some t →
    let e := issueEnv i s iss g t
    staticFault i e f = [] → heldBack i f e = none → actors i f e ≠ [] → breachLanes i f e = actors i f e →
    (∀ x, i ≠ .cbarv x) → (∀ x, i ≠ .exit x ∧ i ≠ .ret x ∧ i ≠ .wait x ∧ i ≠ .leave x ∧ i ≠ .join x) →
    ∃ t', exec i s = .next (t'.raiseFault iss.gid (actors i f e) { kind := lookaheadViolation } iss.len) ∧
      Leaves s.taken t' iss.gid fun x => (e.moved (actors i f e) (fun _ l => l) x).stalling (drainLanes i g iss.lanes)) ∧
  ∀ (e : Env) (j : Nat) (p : Place), p.isScalar = false →
    ((e.g.lane j).awaits p = false → (∀ q ∈ (e.g.lane j).pend, ∀ w ∈ q.results, w.place ∈ q.places) → e.readPlace j p = e.g.read j p) ∧
    (e.readPlace j p = e.g.read j p ∨ ∃ q ∈ (e.g.lane j).pend, ∃ w ∈ q.results, w.place = p ∧ e.readPlace j p = w.value)

/-- R9, R10, R38, R57, R58, R123, R144: the frame of the register forms, outcomes that differ from lane to lane, and issues with
results outstanding. What it says that the rules leave open is the model's choice, log 6. -/
def Obligations.RegisterFormsChangeTheirDestinationOnly : Prop := Sys2Proof.Machine.RegisterFormsChangeTheirDestinationOnly ∧
  Sys2Proof.Machine.OutcomesLaneByLane ∧
  Sys2Proof.Machine.LookaheadWindows

/-- R65, R81, R82: a step whose turn is an issue takes the group and the thread that the picker names; where every ready thread at its
program counter holds the line, the step executes the instruction decoded there, on those threads. That a test-port byte that has
arrived and an event that the agenda names come first, that a step is one issue or one event, and the turns in which quarters with a
group to issue take them are the model's choices (DESIGN CHOICE, log 3). -/
def Obligations.StepRunsTheDecodedInstruction : Prop :=
  (∀ (s : State) (b : BitVec 8), s.tapIn = some b → step s = exec (decodeTap b) { s.tick with tapIn := none }) ∧
  (∀ (s : State) (i : Instr) (r : List Choice), s.tapIn = none → s.agenda = .event i :: r → s.tick.eventOpen i = true →
    step s = exec i { s.tick with agenda := r }) ∧
  (∀ (s : State) (core quarter j : Nat) (g : Group) (line : Line) (w x imm : Word) (m : Nat),
    s.tapIn = none → s.agenda = [] → s.tick.running = true → s.turn = true →
    s.tick.nextQuarter = some (core, quarter) →
    let now : State := { s.tick with turn := false, lastQuarter := 4 * core + quarter }
    now.pickGroup core quarter = some g → now.group? g.id = some g → g.longest = some j →
    (g.lane j).fetch = .held line → g.entering (g.lane j).pc = [] → line.wordsAt (g.lane j).pc = some (w, x, imm, m) →
    step s = exec (decodeWords w x imm)
      { now.countIssue core quarter g.id with
        issue := some { gid := g.id, pc := (g.lane j).pc, len := m,
                        lanes := maskOf (g.readyLanes.filter fun k =>
                          decide ((g.lane k).pc = (g.lane j).pc ∧ (g.lane k).fetch = (g.lane j).fetch)) } }) ∧
  ∀ (s : State) (n : Nat), let busy (k : Nat) : Prop := ∃ g ∈ s.groups, s.issuable g = true ∧ k = 4 * g.core + g.quarter
    busy n → ((s.lastQuarter < n ∧ ∀ k, busy k → s.lastQuarter < k → n ≤ k) ∨ ((∀ k, busy k → k ≤ s.lastQuarter ∧ n ≤ k))) →
      s.nextQuarter = some (n / 4, n % 4)

/-- R47 to R49, R62 to R64, written out: major, GE, GP, GS, D, A, B; then minor, C, LA, SC, MOD; then the immediate word. -/
def Obligations.WordsDecodeAsTheTablesSay : Prop :=
  let f (ge : Bool) (gp : BitVec 4) (gs : Bool) (d a b : BitVec 7) : Fields :=
    { ge, gp, gs, d, a, b, c := 0, la := 0, sc := 0, mod := 0, imm := 0 }
  decodeWords 0b00000_1_0101_1_0000011_0000101_1110001#32 0 0 = .iadd (f true 5 true 3 5 0x71) ∧
  decodeWords 0b01101_0_0000_0_1110000_1110000_0000000#32 0 0 = .nop ∧
  decodeWords 0b10110_0_0000_0_0000001_0000010_0000011#32 0 0 = .hmul2 (f false 0 false 1 2 3) ∧
  decodeWords 0b11000_0_0000_0_0000001_0000010_0000011#32 0b0000010010_0000100_0000_000_00000001#32 0 =
    .imad { f false 0 false 1 2 3 with c := 4, mod := 1 } ∧
  decodeWords 0b11000_0_0000_0_0000001_0000000_0000000#32 0b0000010001_0000000_0000_000_00000000#32 0xDEADBEEF#32 =
    .movi { f false 0 false 1 0 0 with imm := 0xDEADBEEF#32 } ∧
  decodeWords 0b11001_0_0000_0_0000001_0000010_0000000#32 0b0000010010_0000000_0011_000_00000000#32 0 =
    .frcp { f false 0 false 1 2 0 with la := 3 } ∧
  decodeWords 0b11010_0_0000_0_0000001_0000010_0000000#32 0b0000000000_0000000_0001_010_00000110#32 16 =
    .ld { f false 0 false 1 2 0 with la := 1, sc := 2, mod := 6, imm := 16 } ∧
  decodeWords 0b11011_0_0000_0_0000001_0000010_0000011#32 0b0000001010_0000000_0000_001_00000000#32 0 =
    .atom { f false 0 false 1 2 3 with sc := 1 } ∧
  decodeWords 0b11100_1_1111_1_0000000_0000000_0000000#32 0b0000000000_0000000_0000_000_00000000#32 0x80#32 =
    .bra { f true 15 true 0 0 0 with imm := 0x80#32 } ∧
  decodeWords 0b11101_0_0000_0_0000000_0000000_0000001#32 0b0000000100_0000000_0000_000_00000001#32 0 =
    .cbarv { f false 0 false 0 0 1 with mod := 1 } ∧
  decodeWords 0b11110_0_0000_0_0000010_0000001_0000100#32 0b0100000101_0000000_0000_000_00000001#32 0 =
    .mseq { f false 0 false 2 1 4 with mod := 1 } ∧
  decodeWords 0b11111_0_0000_0_0000010_0000000_0000000#32 0b0000000011_0000000_0010_000_00000000#32 0x103#32 =
    .mfc { f false 0 false 2 0 0 with la := 2, imm := 0x103#32 } ∧
  decodeWords 0b10111_0_0000_0_0000000_0000000_0000000#32 0 0 = .unassignedCode (f false 0 false 0 0 0) 0x17 0 ∧
  decodeTap 0x10#8 = .tapFreeze ∧ decodeTap 0x7F#8 = .bypass 0x7F#8

/-- R3, R47 to R49, R62 to R64: every well-formed instruction that has words is read back from them, with every operand. -/
def Obligations.DecodeUndoesEncode : Prop := ∀ i : Instr, Sys2Proof.Laws.RoundTrip.Statement i

/-- R28, R34, R329, R335, R384, R400, R401: the values after reset; nothing runs until POWER_ON, and the memory has its canonical form. Where
the spec states a value it is that one; that memory lists nothing (log 2) and values such as CORESVC 0 (log 4) are the model's choices
(DESIGN CHOICE). -/
def Obligations.ResetState : Prop :=
  let s := State.reset
  let x : Context := {}
  s.mem = [] ∧ Memory.wf s.mem ∧ s.clk = 0 ∧ s.plat.power = false ∧ s.groups = [] ∧ s.teams = [] ∧ s.records = [] ∧ s.ops = [] ∧
  s.hub.readyA = 0 ∧ s.hub.readyB = 0 ∧ s.hub.failA = 0 ∧ s.hub.failB = 0 ∧ s.hub.coresvc = 0 ∧ s.hub.dnv = false ∧
  s.hub.devnum = 0 ∧ s.hub.stctl = 10 ∧
  s.test.frozen = false ∧ s.host.queues = [] ∧
  x.trapbase = 0 ∧ x.trapctl = 0x4#32 ∧ x.framectl = 0x23#32 ∧ x.embqctl = 0 ∧ x.audctl = 0x1F#32 ∧ x.audbase = 0 ∧
  x.audstat = 0 ∧ x.eqbase = 0 ∧ x.eqctl = 6 ∧ x.eqhead = 0 ∧ x.eqtail = 0 ∧ x.eqovf = 0 ∧ x.svcbase = 0 ∧ x.svcctl = 0 ∧
  x.svcsig = 0 ∧ x.fatal = [] ∧ x.seq = 1 ∧ x.rseq = 1

/-- R3: memory holds one byte for each address, in its canonical form (addresses rising, no entry that reads as an unlisted one),
and every step keeps it so. -/
def Obligations.EveryStepKeepsMemoryCanonical : Prop :=
  ∀ s t : State, Memory.wf s.mem → step s = .next t → Memory.wf t.mem

/-! ## Events: what each leaves where it happens -/

/-- R57, R59, R79, R160, R193, R226, R81: an arrival writes the results of one instruction, ends the stall that waited for them and sets
SAT and SATA where a conversion saturated; where it is the last that the lanes of a fault wait for, these lanes take the trap path together
(log 19, DEDUCED). The results arrive oldest first, and only without an access or another lane's scalar result still to wait for. After its
limit a timed wait whose phase has not completed in time reports 1 past the instruction; after 256 issues in a row a quarter turns to the
oldest other group. -/
def Sys2Proof.Machine.ThreadEvents : Prop :=
  (∀ (s : State) (gid lane : Nat) (g : Group) (q : Pending), s.group? gid = some g → g.arrived lane = some q →
    let r := (s.mapGroup gid fun x =>
      { x.mapLane lane (fun l =>
          ({ l with pend := l.pend.filter fun y => !(y.id == q.id) }.putAll x.budget q.results).unstall s.clk.toNat) with
        scalars := putScalars x.scalars q.results }).saturate gid q.sat.isSome (q.sat.getD false)
    ((r.lane gid lane).faulting = none → exec (.resultArrival gid lane) s = .next r.wakeAll) ∧
    (∀ i m ls, (r.lane gid lane).faulting = some (i, m, ls) →
      (∃ x ∈ lanesOf ls, (r.lane gid x).faulting = some (i, m, ls) ∧ (r.lane gid x).pend ≠ []) →
      exec (.resultArrival gid lane) s = .next r.wakeAll) ∧
    (∀ i m ls, (r.lane gid lane).faulting = some (i, m, ls) →
      (∀ x ∈ lanesOf ls, (r.lane gid x).faulting = some (i, m, ls) → (r.lane gid x).pend = []) →
      let them := (lanesOf ls).filter fun x => (r.lane gid x).faulting == some (i, m, ls)
      exec (.resultArrival gid lane) s = .next ((r.mapGroup gid fun x => x.mapLanes fun k l =>
        if k ∈ them then { l with faulting := none } else l).raiseFault gid them i m).wakeAll)) ∧
  (∀ (g : Group) (j : Nat) (q : Pending), g.arrived j = some q → ∃ older newer : List Pending,
    (g.lane j).pend = older ++ q :: newer ∧ q.waits = 0 ∧
    (q.joint = true → ∀ x < 32, ∀ y ∈ (g.lane x).pend, y.id = q.id → y.waits = 0) ∧
    ∀ p ∈ older, 0 < p.waits ∨ (p.joint = true ∧ ∃ x < 32, ∃ y ∈ (g.lane x).pend, y.id = p.id ∧ 0 < y.waits) ∨
      ∃ x, p.lead = some x ∧ ∃ y ∈ (g.lane x).pend, y.id = p.id) ∧
  (∀ (s : State) (gid lane : Nat) (g : Group) (w : Wait) (t : Timer), s.group? gid = some g →
    (g.lane lane).status = .waiting w → (g.lane lane).timer = some t → s.timeHeld g = false → t.deadline < s.clk.toNat →
    t.met = false → exec (.timedWaitExpiry gid lane) s = .next (s.mapLane gid lane fun l => l.leave w true s.clk.toNat)) ∧
  (∀ (l : Lane) (w : Wait) (t : Timer) (expired : Bool) (stamp : Nat), l.timer = some t → w.again = false → l.pend = [] →
    l.leave w expired stamp = { l.advance w.words with
      preds := if expired then l.preds ||| BitVec.ofNat 16 (2 ^ t.pred) else l.preds &&& ~~~BitVec.ofNat 16 (2 ^ t.pred),
      timer := none, status := .ready, stamp := stamp }) ∧
  ∀ (s : State) (core quarter : Nat) (g : Group), 256 ≤ sget 0 (s.core core).run quarter →
    oldest (s.groups.filter fun g => g.core == core && g.quarter == quarter && s.issuable g &&
      some g.id != sget none (s.core core).lastGroup quarter) = some g →
    exec (.issueRunCap core quarter) s = .next (s.mapCore core fun k =>
      { k with lastGroup := sput none k.lastGroup quarter (some g.id), run := sput 0 k.run quarter 0 })

/-- R21, R95 to R102, R405: a spill that its port lets through writes the lowest resident frame of the lane whose turn it is to the arena
and raises lo, and with it those of the group's lanes whose spill shares a register with its; a refill brings the frame below back; a
resolved translation lets the spill go on; a page that is not there is asked for, and leaves the frame resident, and so does a device
out of reach, for which the spill waits a second (log 44). -/
def Sys2Proof.Machine.SpillEvents : Prop :=
  (∀ (s : State) (gid lane : Nat) (g : Group), s.group? gid = some g → (g.lane lane).spillDue g = true → s.engineTurn g lane = true →
    s.mayServe (.spill gid lane) = true →
    exec (.frameSpill gid lane) s = .next (inOrder (s.spillsWith g lane) (fun j r => r.spillLane gid j) s)) ∧
  (∀ (s : State) (g : Group) (lane j : Nat), j < 32 → (j ∈ s.spillsWith g lane ↔ j = lane ∨
    (s.spillable g j = true ∧ (g.lane j).spillDue g = true ∧ ∃ a d b a' d' b', (g.lane lane).lowestFrame = some (a, d, b) ∧
      (g.lane j).lowestFrame = some (a', d', b') ∧ a < b' ∧ a' < b))) ∧
  (∀ (s : State) (gid lane : Nat) (g : Group) (t : Team) (a d b : Nat), s.group? gid = some g → s.team? g.team = some t →
    (g.lane lane).lowestFrame = some (a, d, b) →
    (s.reach t.ctx g.core (g.spillAddrs t.rst lane a b d) 1 = .ok →
      s.spillLane gid lane =
        ((((s.notAway (.spill gid lane)).spillAll gid t.ctx g.core t.rst (g.spillItems lane a b d)).mapLane gid lane fun l =>
          { l with lo := b, linkLo := d + 1, links := sdrop l.links d,
                   spillTo := (l.spillTo.map (min l.fp)).filter fun x => decide (b < x) }).wakeLane gid lane)) ∧
    (∀ va, s.reach t.ctx g.core (g.spillAddrs t.rst lane a b d) 1 = .absent va →
      s.spillLane gid lane = (s.mapLane gid lane fun l => { l with spillBlocked := true }).requestMove t.ctx va) ∧
    ∀ va, s.reach t.ctx g.core (g.spillAddrs t.rst lane a b d) 1 = .waits →
      s.awayOf t.ctx g.core (g.spillAddrs t.rst lane a b d) 1 = some va →
      ((∀ e ∈ s.aways, e.1 ≠ Away.spill gid lane) →
        s.spillLane gid lane = { s with aways := s.aways ++ [(.spill gid lane, s.real)] }) ∧
      ∀ since, (s.aways.find? fun e => e.1 == Away.spill gid lane) = some (Away.spill gid lane, since) →
        (s.real < since + 1000000000 → s.spillLane gid lane = s) ∧
        (since + 1000000000 ≤ s.real → (g.lane lane).status = .ready → s.spillLane gid lane =
          { s with aways := s.aways.filter fun e => !(e.1 == Away.spill gid lane) }.addRecord (s.faultRecord g t (maskOf [lane])
            { kind := accessViolation, addr := va, info := 4 } 0 0 false false))) ∧
  (∀ (s : State) (gid lane : Nat) (g : Group) (t : Team) (waits : Bool), s.group? gid = some g → s.team? g.team = some t →
    let l := g.lane lane
    let d := l.lowDepth
    let base := frameBelow l.lo (l.link d)
    l.refillDue = some waits → s.engineTurn g lane = true → d ≠ 0 → l.hi - base ≤ g.budget →
    (waits = false → l.fp - l.lo < 16 * g.rfwm ∧ g.spillMark + (l.hi - base) ≤ g.budget) →
    s.reach t.ctx g.core (g.refillAddrs t.rst lane base l.lo (d - 1)) 0 = .ok → s.mayServe (.refill gid lane) = true →
    exec (.frameRefill gid lane) s = .next (((s.notAway (.refill gid lane)).mapLane gid lane fun x =>
      { (s.notAway (.refill gid lane)).refillLane g t.ctx g.core t.rst lane base l.lo (d - 1) x with
        lo := base, linkLo := d - 1, background := false, filling := waits }).wakeLane gid lane)) ∧
  (∀ (s : State) (gid lane : Nat) (g : Group), s.group? gid = some g → (g.lane lane).spillBlocked = true →
    exec (.spillTranslationReply gid lane false) s = .next (s.mapLane gid lane fun l => { l with spillBlocked := false }) ∧
    ∀ a d b t, (g.lane lane).status = .ready → (g.lane lane).lowestFrame = some (a, d, b) → s.team? g.team = some t →
      exec (.spillTranslationReply gid lane true) s = .next (s.mapLane gid lane fun l =>
        { l with arenaFault := some ((g.spillAddrs t.rst lane a b d).headD 0) })) ∧
  ∀ (s : State) (g h : Group) (i j : Nat), s.engineTurn g j = true → h ∈ s.groups → h.core = g.core → i < 32 →
    s.engineDue h i = true → (g.lane j).free g.budget ≤ (h.lane i).free h.budget ∧
      ((g.lane j).free g.budget = (h.lane i).free h.budget → g.slot ≤ h.slot ∧ (g.slot = h.slot → j ≤ i))

/-- R21, R103, R256, R177: a save that its port lets through writes resident registers, links and the save area, and frees the slot; a page
that is not there is asked for; where pages are bad the save is abandoned and not attempted again for them (log 35, DEDUCED). A resumption
takes the group back on a core where it fits. -/
def Sys2Proof.Machine.GroupEvents : Prop :=
  (∀ (s : State) (gid : Nat) (g x : Group) (t : Team), s.group? gid = some g → s.team? g.team = some t →
    g.saveDue = true → t.stopped = false → s.mayServe (.save gid) = true →
    let pages := piecePages g.saveArea (g.savePieces t) ++ (g.saveTargets t).flatMap fun e => e.2
    (s.saveBad g t = [] → s.reach t.ctx g.core pages 1 = .ok → g.yielding = false →
      ((s.notAway (.save gid)).saveRegisters g t).group? gid = some x →
      exec (.groupSave gid) s = .next
        ((((s.notAway (.save gid)).saveRegisters g t).writePieces t.ctx x.core x.saveArea (x.savePieces t)).mapGroup gid fun y =>
          { y.mapLanes (fun _ l => { l with ring := [], links := [], lastPage := none, background := false }) with
            resident := false, yielding := false })) ∧
    (∀ va, s.saveBad g t = [] → s.reach t.ctx g.core pages 1 = .absent va →
      exec (.groupSave gid) s = .next (s.requestMove t.ctx va)) ∧
    (s.saveBad g t ≠ [] → (∀ e ∈ s.saveBad g t, e.2 ∈ g.saveFailed) → ∃ r, exec (.groupSave gid) s = .next r ∧
      r = s.mapGroup gid fun y => { y with saveFailed := y.saveFailed.eraseDups, yielding := false })) ∧
  ∀ (s : State) (gid core quarter slot : Nat) (e : Ember) (g : Group) (t : Team),
    (s.embers.find? fun x => decide (x.kind = .resume gid)) = some e → s.group? gid = some g → s.team? g.team = some t →
    s.spent e = false → s.contextOpen e.ctx = true → e.place = .chip → coreSector core = e.sector → s.firstOf e = true →
    s.emberFits e core = true → s.keysFree e = true → s.resumeSlot g t core = some (quarter, slot) →
    s.resumeAbsent g t core = none → s.mayServe (.restore gid) = true →
    exec (.groupResume gid core) s = .next (((s.notAway (.resume gid)).removeEmber e.id).resumeGroup g t core quarter slot)

/-- R57, R79, R81, R95 to R103, R226, R256: results, timed waits, spills, refills, saves and resumptions. What it says that the
rules leave open is the model's choice, logs 19, 35 and 44. -/
def Obligations.ThreadAndGroupEvents : Prop := Sys2Proof.Machine.ThreadEvents ∧
  Sys2Proof.Machine.SpillEvents ∧
  Sys2Proof.Machine.GroupEvents

/-- R236 to R245, R257, R177: an attempt that finds room and keys starts the ember, and otherwise it goes to the tail; embers move to
their rings in order of arrival, age after 20 µs and leave a slot after 2250 cycles; a core takes up to 64 indices of a grid, or of an
ember without keys, at once, and a cluster's members start on their cores, each team with the lines it inherits. That a core pulls its
indices in one step, that a spent ember leaves at its next attempt, and that a step names the lines a new team's view holds are log 34
(DEDUCED), the model's choice. -/
def Obligations.DispatchEvents : Prop :=
  (∀ (s : State) (id core iid : Nat) (named : List (Nat × Nat)) (e : Ember) (i : Instance), s.ember? id = some e →
    e.kind = .fresh iid → s.instance? iid = some i → s.spent e = false → s.contextOpen e.ctx = true → e.place = .chip →
    coreSector core = e.sector → s.firstOf e = true → s.emberFits e core = true →
    (s.keysFree e = true →
      let r := s.pull iid core (if (emberKeys i.ember).isEmpty then 64 else 1) [named] e.payload
      exec (.emberDispatch id core named) s = .next
        (if ∀ i', r.instance? iid = some i' → i'.total ≤ i'.next then r.removeEmber e.id else r)) ∧
    (s.keysFree e = false → ∃ r, exec (.emberDispatch id core named) s = .next r ∧
      r.embers = (s.embers.filter fun x => !(x.id == e.id)) ++ s.embers.filter (fun x => x.id == e.id) ∧
      r.groups = s.groups ∧ r.teams = s.teams ∧ r.mem = s.mem ∧ r.instances = s.instances)) ∧
  (∀ (s : State) (iid core n : Nat) (named : List (List (Nat × Nat))) (payload : List Nat),
    s.pull iid core n named payload = inOrder (List.range n) (fun k s => match s.instance? iid with
      | none => s
      | some i => (s.startNext i core (named.getD k []) payload).getD s) s) ∧
  (∀ (s r : State) (i : Instance) (core : Nat) (named : List (Nat × Nat)) (payload : List Nat),
    s.startNext i core named payload = some r → s.instance? i.id = some i → i.next < i.total ∧
      (r.instance? i.id).map (fun x => x.next) = some (i.next + i.cx * i.cy) ∧
      ∃ k ∈ r.clusters, k.inst = i.id ∧ k.base = i.next ∧ k.cx = i.cx ∧ k.cy = i.cy ∧ k.keys = emberKeys i.ember) ∧
  (∀ (s : State) (id : Nat) (e : Ember), s.ember? id = some e → e.place = .ring → s.chipRoom e.sector = true →
    (∀ x ∈ s.embers, x.sector = e.sector → x.outside = true → x.arrivedBefore e = false) →
    exec (.emberRingMove id) s = .next
      { s with embers := (s.embers.filter fun x => !(x.id == e.id)) ++ [{ e with place := .chip }] }) ∧
  (∀ (s : State) (id : Nat) (e : Ember), s.ember? id = some e → e.aged = none → e.born + 20000 ≤ s.real →
    exec (.emberAged id) s = .next
      { s with embers := s.embers.map fun x => if x.id = e.id then { x with aged := some (e.born + 20000) } else x }) ∧
  (∀ (s : State) (core : Nat) (e : Ember), (s.embers.find? fun x => decide (x.place = .slot core)) = some e →
    e.first + 2250 ≤ s.clk.toNat →
      let rest : State := { s with embers := s.embers.filter fun x => !(x.id == e.id) }
      ∃ r, exec (.localSlotTimeout core) s = .next r ∧ ∃ (p : EmberPlace) (n : Nat), p ≠ .slot core ∧
        r.embers = rest.embers ++ [{ e with place := p, entry := n }] ∧
        (p ≠ .ring → n = e.entry ∧ r = { s with embers := r.embers }) ∧
        (p = .ring → n = rest.ringEntry e.ctx e.sector ∧ ∃ a, rest.ringAddress e.ctx e.sector n = some a ∧
          r = { rest.deviceWrite e.ctx (sectorCore e.sector) a (rest.emberBytes { e with place := .ring }) with
                embers := r.embers })) ∧
  (∀ (s : State) (grid core : Nat) (named : List (List (Nat × Nat))) (i : Instance), s.instance? grid = some i →
    s.pulls i core = true →
    exec (.gridClaim grid core named) s = .next
      (s.pull grid core 64 named (((s.instanceEmber grid).map fun e => e.payload).getD []))) ∧
  ∀ (s : State) (cid rank core : Nat) (named : List (Nat × Nat)) (k : Cluster) (i : Instance) (slots : List (Nat × Nat))
    (areas : List (Nat × Nat × Nat)) (x : Context),
    s.cluster? cid = some k → s.instance? k.inst = some i → core = coreAt k.die (k.x0 + rank % k.cx) (k.y0 + rank / k.cx) →
    rank < k.cx * k.cy → (∀ e ∈ k.members, e.1 ≠ rank) → s.contextOpen i.ctx = true →
    s.coreOpen i.partition core (some cid) = true → s.fitTeam i core = some (slots, areas, x) →
    (∀ m ∈ s.coreTeams core, m.cluster ≠ some cid) →
    exec (.clusterMemberStart cid { rank, inherited := named }) s = .next
      (s.startTeam i (k.base + rank) rank cid core slots areas x named k.payload).wakeAll

/-- R21, R172, R174, R181, R207, R211, R212, R223, R405: accesses that their bank or home grants are performed, in the order of their thread
and place; stores enter the buffer, or wait for a shadow line of their slice; a tile that has been pending for 100 ms writes a record,
with the place as its ADDR (log 30, DEDUCED); an access to a device out of reach ends after a second (log 44, DEDUCED, says how far
other devices are modelled). -/
def Sys2Proof.Machine.AccessEvents : Prop :=
  (∀ (s : State) (id : Nat) (o : Op), s.op? id = some o →
    (o.isScratch = true → o.isArrival = false → s.scratchReady o = true → s.mayServe (.access id) = true →
      exec (.scratchpadRequestPerform id) s = .next (s.performScratch o).wakeAll) ∧
    (o.isArrival = true → s.scratchReady o = true → s.mayServe (.access id) = true →
      exec (.barrierArrival id) s = .next (s.performScratch o)) ∧
    (s.performable o = true → s.mayServe (.access id) = true → exec (.perform id) s = .next (s.performAccess o)) ∧
    (∀ t, o.waiting = none → s.storeReady o = true → s.team? o.team = some t → t.newLine t.store o.stores = none →
      exec (.storeEnter id) s = .next ((s.dropOp id).mapTeam t.id fun t => t.withStore o.stores).wakeAll) ∧
    (∀ t b, o.waiting = none → s.storeReady o = true → s.team? o.team = some t → t.newLine t.store o.stores = some b →
      s.sliceFull b = true → exec (.storeEnter id) s = .next
        ({ s with ops := s.ops.map fun x => if x.id = id then { x with waiting := some (x.waiting.getD s.now) } else x }
          : State).wakeAll) ∧
    (∀ t, o.waiting ≠ none → s.storeReady o = true → s.team? o.team = some t →
      (∀ b, t.newLine t.store o.stores = some b → s.sliceFull b = false ∧ s.waitsLonger o b = false) →
      exec (.shadowLineGrant id) s = .next ((s.dropOp id).mapTeam t.id fun t => t.withStore o.stores).wakeAll) ∧
    (∀ ctx place code control width rank count bytes, o.access = .ranked ctx place code control width rank count bytes →
      s.homeReady o = true → s.mayServe (.access id) = true →
      exec (.rankedContribution id) s = .next (s.contribute o ctx place code control width rank count bytes))) ∧
  (∀ (s : State) (tile : Nat) (t : RankTile), s.ranks[tile]? = some t → t.since + 225000000 ≤ s.clk.toNat →
    exec (.rankStallTimeout tile) s = .next
      ({ s with ranks := s.ranks.set tile { t with since := s.clk.toNat } }.addRecord
        { ctx := t.ctx, kind := kindWord rankStall 0 false false, addr := BitVec.ofNat 64 t.place, time := s.clk })) ∧
  (∀ (s : State) (id place : Nat) (o : Op), s.op? id = some o → o.access = .blocked place → o.since + 1000000000 ≤ s.real →
    s.home place = .waiting →
    exec (.unreachableTimeout id) s = .next ((s.dropOp o.id).raiseEntry o.gid [o.lane] (s.lane o.gid o.lane).fetch
      { kind := accessViolation, addr := o.va, info := 4 } (s.lane o.gid o.lane).words)) ∧
  ∀ (s : State) (id place n : Nat) (t : Team) (o : Op), s.op? id = some o → (∀ p, o.access ≠ .blocked p) →
    o.homeSpan = some (place, n) → s.team? o.team = some t → o.since + 1000000000 ≤ s.real → isRemote place = true →
    s.home place = .waiting →
    exec (.unreachableTimeout id) s = .next (((s.dropOp o.id).deliverFree o).addRecord
      (s.opRecord o t { kind := accessViolation, addr := o.va, info := 4 }))

/-- R172, R185, R272, R274, R404, R405: views take and lose lines; a commit of a team that stands ready publishes its units; units
arrive and are applied, their bytes written to M in one step (but for bytes whose home has failed, of which a record tells: log 24,
DEDUCED); a command's lines are published when it has done the rest. Parts for other devices and the units that they send are log 44
(DEDUCED). -/
def Sys2Proof.Machine.PhaseEvents : Prop :=
  (∀ (s : State) (team line : Nat) (t : Team), s.team? team = some t →
    (s.home (128 * line) = .ready → (s.coreLines t.core).length < 2048 →
      exec (.fill team line) s = .next (s.mapTeam team fun t => match sget none t.view line with
        | some _ => t
        | none => { t with view := sput none t.view line (some { bytes := s.bytes (128 * line) 128, time := s.now }) })) ∧
    exec (.drop team line) s = .next (s.mapTeam team fun t => { t with view := sput none t.view line none })) ∧
  (∀ (s : State) (team : Nat) (t : Team), s.team? team = some t → t.exit = .running → t.cluster = none → t.rst = false →
    s.commitReady t = true → exec (.commit team) s = .next ((s.notAway (.team t.id)).commitOne t).wakeAll) ∧
  (∀ (s : State) (team : Nat) (t : Team) (m : MatrixEntry) (r : List MatrixEntry), s.team? team = some t →
    t.matrix.queue = m :: r → m.publishing = some 0 →
    let p := (s.mapTeam team fun t => { t with matrix := { t.matrix with
      shadow := t.matrix.shadow ++ m.shadow, lines := t.matrix.lines ++ blocksOf m.shadow } }).publishQueue team 5 m.number
    exec (.publish team 5) s = .next (p.2.mapTeam team fun t =>
      { t with matrix := { t.matrix with queue := t.matrix.queue.mapIdx fun i x =>
          if i = 0 then { x with shadow := [], publishing := some p.1 } else x } })) ∧
  (∀ (s : State) (team queue : Nat) (t : Team) (c : Command) (r : List Command), s.team? team = some t → queue < 5 →
    (t.engine queue).queue = c :: r → c.publishing = some 0 →
    let p := (s.mapTeam team fun t => t.mapEngine queue fun e => { e with
      shadow := e.shadow ++ c.shadow, lines := e.lines ++ c.ownLines }).publishQueue team queue c.number
    exec (.publish team queue) s = .next (p.2.mapTeam team fun t => t.mapEngine queue fun e =>
      { e with queue := e.queue.mapIdx fun i x => if i = 0 then { x with shadow := [], publishing := some p.1 } else x })) ∧
  (∀ (s : State) (i : Nat) (p : Part), s.sent[i]? = some p →
    (s.routePorts (p.device - 1) ≠ [] → exec (.partArrive (.sent i)) s = .next
      { s with sent := s.sent.eraseIdx i,
               remoteQueues := sput [] s.remoteQueues p.device (sget [] s.remoteQueues p.device ++ [{ p with away := none }]) }) ∧
    (s.routePorts (p.device - 1) = [] → p.away = none → exec (.partArrive (.sent i)) s = .next
      { s with sent := s.sent.set i { p with away := some s.real } })) ∧
  (∀ (s : State) (bytes : List (Nat × Byte)), s.hub.dnv = true → (∀ e ∈ bytes, targetOf e.1 ≠ .unused) →
    exec (.partArrive (.foreign bytes)) s = .next
      { s with ids := s.ids + 1, queue := s.queue ++ [{ unit := s.ids, team := 0, bytes := bytes, device := 0,
                                                        queued := s.clk.toNat }] }) ∧
  (∀ (s : State) (bytes : List (Nat × Byte)), s.hub.dnv = false → exec (.partArrive (.foreign bytes)) s = .next s) ∧
  (∀ (s : State) (p : Part) (r : List Part), s.queue = p :: r →
    ((∀ e ∈ p.bytes, s.home e.1 = .ready) → s.mayServe .unit = true →
      exec (.apply 0) s = .next ({ s with queue := r }.writeBytes p.bytes).afterApply) ∧
    ((∃ e ∈ p.bytes, s.home e.1 = .waiting) → exec (.apply 0) s = .next s) ∧
    ∀ t e, (∀ e ∈ p.bytes, s.home e.1 = .failed) → s.team? p.team = some t → p.bytes = [e] → s.mayServe .unit = true →
      exec (.apply 0) s = .next (({ s with queue := r } : State).addRecord
        (s.eventRecord t (addressed accessViolation (BitVec.ofNat 64 (e.1 % 2 ^ 64)) 1) false)).afterApply) ∧
  ∀ (s : State) (device : Nat) (p : Part) (r : List Part), device ≠ 0 → sget [] s.remoteQueues device = p :: r →
    exec (.apply device) s = .next
      ({ s with remoteQueues := sput [] s.remoteQueues device r }.writeBytes p.bytes).afterApply

/-- R3, R172: applying a unit writes each of its bytes and no other: an address takes the last byte the unit has for it. -/
def Sys2Proof.Machine.UnitsWriteTheirBytes : Prop :=
  ∀ (s : State) (bytes : List (Nat × Byte)) (a : Nat),
    sget 0 (s.writeBytes bytes).mem a = ((bytes.reverse.find? fun e => e.1 == a).map fun e => e.2).getD (sget 0 s.mem a)

/-- R3, R172, R185: what a commit publishes. The unit of a buffer holds, for every byte stored, the newest value; its bytes of this device
join the publish queue; the buffer is empty and the view dropped. -/
def Sys2Proof.Machine.UnitsHoldTheNewest : Prop :=
  (∀ (es : List (Nat × Byte)) (a : Nat),
    ((unitBytes es).find? fun e => e.1 == a).map (fun e => e.2) = newest a es ∧
    ((unitBytes es).map fun e => e.1).Nodup) ∧
  (∀ (s : State) (tid : Nat) (t : Team), s.team? tid = some t → ∃ r, s.commitBuffer tid = (s.ids, r) ∧
    r.team? tid = some { t with store := [], overflow := [], view := [], commits := t.commits + 1 } ∧ r.mem = s.mem ∧
    (∃ more, r.queue = s.queue ++ more ∧ ∀ p ∈ more, p.unit = s.ids ∧ p.team = t.id ∧
      p.bytes = (unitBytes t.store).filter fun e => s.isLocal e.1) ∧
    ∀ e ∈ unitBytes t.store, s.isLocal e.1 = true → ∃ p ∈ r.queue, p.unit = s.ids ∧ e ∈ p.bytes) ∧
  ∀ (s : State) (t : Team), t.exit = .running → (s.commitReady t = true ↔ t.relaunch = false ∧ t.stopped = false ∧
    t.matrix.queue = [] ∧ (∀ q < 5, (t.engine q).queue = []) ∧ s.teamLanes t.id ≠ [] ∧
    ∀ l ∈ s.teamLanes t.id, ∃ scope yields cond, l.status = .waiting (.commit scope yields cond))

/-- R112, R172 Release, R234, R235, R245, R342, R343, R353: the end of a team: its exit commit, the release of its keys, the
decrement of its join counter; a consumed error; a completed service; a record that lands. TEAM_EXIT, JOIN_DECREMENT, KEY_RELEASE,
UNCORRECTABLE_CONSUMED, SERVICE_COMPLETION and ERROR_RECORD_LAND complete. The model's choices here: the keys of a holder are released
together, a continuation's bytes past a page come by translation and the ADDR of JoinUnderflow and EmberInvalid (log 34, DEDUCED); the exit
commit comes behind the team's accesses to its slice, and its units behind those of every device where keys are held (log 24, DEDUCED);
a lost record takes a SEQ, a completion that has to wait is kept, and the instruction that a skidding record names (log 36, DEDUCED). -/
def Obligations.TeamEndEvents : Prop :=
  (∀ (s : State) (team : Nat) (t : Team), s.team? team = some t →
    (t.exit = .ending → t.cluster = none → t.rst = false → t.relaunch = false → t.queuesEmpty = true →
      s.scratchPending t.id = false →
      let r := (s.notAway (.team t.id)).commitUnits t.id
      exec (.teamExit team) s = .next (r.2.mapTeam t.id fun t => { t with exit := .committed r.1 }).wakeAll) ∧
    (∀ us, t.exit = .committed us → (∀ u ∈ us, s.unitApplied u (s.keysHeld t) = true) →
      s.othersDone t = false ∨ s.keysHeld t = false →
      exec (.teamExit team) s = .next (s.mapTeam team fun t => { t with exit := .released })) ∧
    (∀ us u, t.exit = .committed us → u ∈ us → s.unitApplied u (s.keysHeld t) = false → exec (.teamExit team) s = .next s) ∧
    (t.exit = .released → t.join = 0 → exec (.teamExit team) s = .next
      (((s.groups.filter fun g => g.team == t.id).foldl (fun s g => s.freeAreas t g) s).mapTeam t.id fun t =>
        { t with exit := .gone, phase := none }).wakeAll) ∧
    (t.exit = .released → t.join ≠ 0 →
      let ends (kind : Nat) : Prop := exec (.joinDecrement team) s = .next
        ((s.addRecord (s.eventRecord t { kind, addr := t.join, info := 3 } false)).finishTeam t)
      (s.classOf t t.join ≠ .global → ends addressFault) ∧
      (s.classOf t t.join = .global → t.join.toNat % 8 ≠ 0 → ends misaligned) ∧
      (s.classOf t t.join = .global → t.join.toNat % 8 = 0 →
        (s.translate t.ctx t.core none t.join 1 = .denied → ends accessViolation) ∧
        (s.translate t.ctx t.core none t.join 1 = .absent →
          exec (.joinDecrement team) s = .next (s.requestMove t.ctx t.join)) ∧
        ∀ place page, s.translate t.ctx t.core none t.join 1 = .ok place page → s.home place = .ready →
          let c := s.readNat place 4
          let note (i : FaultInfo) : ErrorRecord := s.eventRecord t i false
          let w := s.writeNat place 4 0
          let b := (List.range 64).map (w.continuationByte t place t.join)
          let late := ((t.joinAway.map fun since => decide (since + 1000000000 ≤ s.real)).getD false)
          (c = 0 → exec (.joinDecrement team) s = .next
            ((s.addRecord (note { kind := joinUnderflow, addr := t.join })).finishTeam t)) ∧
          (1 < c → exec (.joinDecrement team) s = .next ((s.writeNat place 4 (c - 1)).wakeAll.finishTeam t)) ∧
          (c = 1 → (∃ i < 64, s.home (s.continuationPlace t place t.join i) = .waiting ∧
              (late = false ∨ isRemote (s.continuationPlace t place t.join i) = false)) →
            exec (.joinDecrement team) s = .next (s.mapTeam t.id fun x =>
              { x with joinAway := x.joinAway.orElse fun _ => some s.real })) ∧
          (c = 1 → (∀ i < 64, s.home (s.continuationPlace t place t.join i) ≠ .waiting) →
            ((∃ i < 64, w.home (w.continuationPlace t place t.join i) = .failed) → exec (.joinDecrement team) s = .next
              ((w.addRecord (note { kind := accessViolation, addr := t.join + 8 })).wakeAll.finishTeam t)) ∧
            ((∀ i < 64, w.home (w.continuationPlace t place t.join i) = .ready) →
              (emberBad (s.record t).roles.length b = false → exec (.joinDecrement team) s = .next
                ((w.submit t.ctx t.sector (w.record t) b []).wakeAll.finishTeam t)) ∧
              (emberBad (s.record t).roles.length b = true → exec (.joinDecrement team) s = .next
                ((w.addRecord (note { kind := emberInvalid, addr := t.join + 8 })).wakeAll.finishTeam t))))))) ∧
  (∀ (s : State) (t : Team) (place i : Nat) (va : DWord), i < 64 → (va + BitVec.ofNat 64 (8 + i)).toNat / 4096 = va.toNat / 4096 →
    s.continuationPlace t place va i = place + 8 + i ∧ s.continuationByte t place va i = sget 0 s.mem (place + 8 + i)) ∧
  (∀ (s : State) (ctx cid : Nat) (key : Word) (e : Key), s.keyEntry ctx key = some e → e.holder = some cid →
    (s.releasable cid = true → exec (.keyRelease ctx key) s = .next { s with
      keys := (s.keys.map fun k => if k.holder == some cid then { k with holder := none } else k).filter
                fun k => k.holder.isSome || k.mark.isSome,
      releases := ((s.keys.filter fun k => k.holder == some cid).map fun k => (k.ctx, k.key, s.now)) ++ s.releases }) ∧
    (s.releasable cid = false → exec (.keyRelease ctx key) s = .next s)) ∧
  (∀ (s : State) (cid : Nat) (k : Cluster), s.cluster? cid = some k → (s.releasable cid = true ↔
    k.members.length = k.cx * k.cy ∧ ∀ e ∈ k.members, ∀ m, s.team? e.2 = some m →
      m.exit ≠ .running ∧ m.exit ≠ .ending ∧ ∀ p ∈ s.parts, p.team ≠ m.id)) ∧
  (∀ (s : State) (gid lane skid : Nat) (place : ErrorPlace) (g : Group) (t : Team), s.group? gid = some g →
    s.team? g.team = some t → t.exit ≠ .gone → lane < 32 →
    let r (first : Nat) (dead double : Bool) : State := s.addRecord (s.faultRecord g t (maskOf [lane])
      { kind := uncorrectable, info := BitVec.ofNat 32 (placeCode place) } (g.skidPC lane skid) first dead double)
    let ends (r : State) : State := (if t.rst = true then r.rollback t.id else r.killTeam t.id uncorrectable).wakeAll
    ((g.lane lane).tl = false → exec (.uncorrectableConsumed gid lane place skid) s = .next (ends (r 0 (!t.rst) false))) ∧
    ((g.lane lane).tl = true → exec (.uncorrectableConsumed gid lane place skid) s =
      .next (ends ((r (g.lane lane).kind.toNat true true).parkFatal gid [lane])))) ∧
  (∀ (g : Group) (j : Nat), g.skidPC j 0 = (g.lane j).pc ∧
    ∀ (line : Line) (i : Instr) (m n : Nat), (g.lane j).fetch = .held line → (∀ k ∈ g.live, (g.lane k).pc = (g.lane j).pc) →
      line.instrAt (g.lane j).pc = some (i, m) → runsOn i = true → (line.instrAt (nextPC (g.lane j).pc m)).isSome = true → n < 255 →
      g.skidPC j (n + 1) = line.streamPC n (nextPC (g.lane j).pc m)) ∧
  (∀ (s : State) (ctx slot : Nat), slot < (s.ctx ctx).svcSlots → s.reachOne ctx 0 ((s.ctx ctx).svcAddress slot) 1 = .ok →
    let place := s.placeFor ctx 0 ((s.ctx ctx).svcAddress slot) 1
    let over' := (s.notAway (.service ctx slot)).mapCtx ctx fun x => { x with svcDone := x.svcDone.filter fun n => n != slot }
    (s.readNat place 4 ≠ 2 → exec (.serviceCompletion ctx slot) s = .next over') ∧
    (s.readNat place 4 = 2 → s.serviceAbsent ctx slot = none → ∃ r : State, exec (.serviceCompletion ctx slot) s = .next r.wakeAll ∧
      r.readNat place 4 = 0 ∧ ∀ gid g, r.group? gid = some g → (∀ t, s.team? g.team = some t → t.ctx = ctx) →
        (s.team? g.team).isSome → g.serviceLanes slot = []) ∧
    (∀ va, s.readNat place 4 = 2 → s.serviceAbsent ctx slot = some (some va) →
      (∀ e ∈ (0, (s.ctx ctx).svcAddress slot) :: s.serviceAddrs ctx slot, s.awayOf ctx e.1 [e.2] 1 = none) →
      exec (.serviceCompletion ctx slot) s = .next
        ((s.mapCtx ctx fun x => { x with svcDone := if x.svcDone.contains slot then x.svcDone else x.svcDone ++ [slot] }).requestMove
          ctx va))) ∧
  ∀ (s : State) (ctx index : Nat) (r : ErrorRecord), s.records[index]? = some r → r.ctx = ctx →
    (∀ e ∈ s.records.take index, e.precedes r = false) →
    let x := s.ctx ctx
    let gone (t : State) : State := (State.notAway { t with records := t.records.eraseIdx index } (.record ctx)).wakeAll
    (∀ place page, (isFatal r.kind = true ∧ x.unread < x.queueSize) ∨ (isFatal r.kind = false ∧ x.unread < x.queueSize - 2) →
      s.translate ctx 0 none (x.recordAddress x.eqtail) 1 = .ok place page → s.home place = .ready →
      exec (.errorRecordLand ctx index) s = .next (gone ((((s.writeBytes (placed place (r.bytes x.seq))).mapCtx ctx fun y =>
        y.noteRecord x.eqtail (isFatal r.kind)).mapCtx ctx fun y => { y with eqtail := y.eqtail + 1 }).noteQueue ctx
          (isFatal r.kind)))) ∧
    (isFatal r.kind = false → x.queueSize - 2 ≤ x.unread → x.oldestReplayable = none →
      exec (.errorRecordLand ctx index) s = .next (gone (s.mapCtx ctx fun y =>
        { y with eqovf := y.eqovf + 1, seq := nextSeq y.seq }))) ∧
    (isFatal r.kind = true → x.queueSize ≤ x.unread →
      exec (.errorRecordLand ctx index) s = .next (gone ((s.mapCtx ctx fun y =>
        { y with fatal := latched (r.bytes y.seq), seq := nextSeq y.seq }).haltContext ctx)))

/-- R21, R201, R265 to R278, R281, R404, R405: commands start, are read from a chain, move a chunk, and end; a collective takes a step, and
writes a record where it has stood still for 100 ms. Where a copy's chunks end, whose turn a channel is and how CollStall repeats are
log 31 (DEDUCED), and that a collective waits while the device has no number is log 44 (DEDUCED). -/
def Sys2Proof.Machine.EngineEvents : Prop :=
  ∀ (s : State) (team queue : Nat) (t : Team) (c : Command) (rest : List Command), s.team? team = some t →
    (t.engine queue).queue = c :: rest → s.served t = true →
    (c.started = false → c.bytes ≠ [] → s.crcAhead t queue c.number = false →
      (∀ x ∈ s.extentsOf t c, s.unstarted t x.address = false) →
      (s.extentsFault t (s.extentsOf t c) = none →
        exec (.engineCommandStart team queue) s = .next (s.startCommand t queue c)) ∧
      ∀ i, s.extentsFault t (s.extentsOf t c) = some i →
        exec (.engineCommandStart team queue) s = .next (s.stopQueue team queue 3 2 false (some i))) ∧
    (c.chain = true → c.bytes = [] → s.crcAhead t queue c.number = false → s.unstarted t c.next = false →
      s.mayServe (.chain team queue) = true →
      (65536 ≤ c.count → exec (.chainCommandRead team queue) s = .next
        (s.stopQueue team queue 7 2 false (some { kind := engineCommand, addr := c.next }))) ∧
      (c.count < 65536 → s.extentFault t { address := c.next, length := 64, access := .engineRead } = none →
        ∀ bs, s.engineBytes t c.next 64 = .ok bs →
          (s.complaint t bs true = none → exec (.chainCommandRead team queue) s = .next
            (s.mapCommand team queue fun c => { c with bytes := bs, started := false, count := c.count + 1 })) ∧
          (s.complaint t bs true ≠ none → exec (.chainCommandRead team queue) s = .next
            (s.stopQueue team queue 7 2 false (some { kind := engineCommand, addr := c.next }))))) ∧
    (s.channelTurnOf t queue = true → s.mayServe (.chunk team queue) = true →
      let first := if cmdKind c.bytes = 0 then (cmdSrc c.bytes + BitVec.ofNat 64 c.done).toNat else c.done
      let last := min (cmdLen c.bytes) (c.done + (4096 - first % 4096))
      (∀ r, s.movePieces t queue c.bytes c.done last = (r, none) →
        exec (.engineChunk team queue) s = .next (r.passChannel t queue)) ∧
      ∀ r x, s.movePieces t queue c.bytes c.done last = (r, some x) →
        exec (.engineChunk team queue) s = .next ((r.trouble t queue x).passChannel t queue)) ∧
    (c.started = true → c.total ≤ c.done → c.moved = false →
      (crcDiffers (t.engine queue) c = false → exec (.engineCommandEnd team queue) s = .next (if c.apub = true
        then (s.endStreams t queue c).mapCommand team queue fun c => { c with publishing := some 0 }
        else (s.endStreams t queue c).finishCommand t queue c)) ∧
      (crcDiffers (t.engine queue) c = true → exec (.engineCommandEnd team queue) s = .next
        ((s.endStreams t queue c).stopQueue team queue 1 2 false none))) ∧
    (c.started = true → c.total ≤ c.done → c.moved = true → ∀ u, c.publishing = some u → u ≠ 0 → s.unitApplied u true = true →
      exec (.engineCommandEnd team queue) s = .next (s.finishCommand t queue c)) ∧
    (queue = 4 → c.started = true → c.moved = false → c.done < c.total → collRanks c.bytes = 1 → s.mayServe (.step team) = true →
      ∀ r, moveEach (fun s k => s.moveElement t c.bytes k) (c.done / collElem c.bytes)
          (min (65536 / collElem c.bytes) ((c.total - c.done) / collElem c.bytes)) s = (r, none) →
      exec (.collectiveStep team) s = .next r) ∧
    (queue = 4 → c.started = true → c.moved = false → c.done < c.total → 1 < collRanks c.bytes → s.hub.dnv = false →
      s.mayServe (.step team) = true → exec (.collectiveStep team) s = .next (s.trouble t 4 (.delay none))) ∧
    (queue = 4 → c.started = true → c.moved = false → c.lastProgress + 225000000 ≤ s.clk.toNat →
      exec (.collStallTimeout team) s = .next
        ((s.mapCommand team 4 fun c => { c with lastProgress := s.clk.toNat }).engineRecord t { kind := collStall }))

/-- R272, R276: the last steps of a command: with ARRV its arrival, then it leaves its queue, whose SEQC takes its number. -/
def Sys2Proof.Machine.CommandsEndInOrder : Prop :=
  ∀ (s : State) (t : Team) (q : Nat) (c : Command) (rest : List Command), s.team? t.id = some t →
    (t.engine q).queue = c :: rest → c.arrv = false → (c.chain = false ∨ cmdNext c.bytes = 0) → q < 5 →
    ∃ r, s.finishCommand t q c = State.wakeAll r ∧ ∃ t', r.team? t.id = some t' ∧ (t'.engine q).queue = rest ∧
      (t'.engine q).seqc = c.number ∧ (t'.engine q).stat = 0 ∧ (t'.engine q).shadow = (t.engine q).shadow ++ c.shadow ∧
      (t'.engine q).lines = (t.engine q).lines ++ c.ownLines ∧ r.mem = s.mem ∧ r.groups = s.groups

/-- R292, R297, R300 to R312, R355, R356: matrix operations start and end in queue order; an accord state comes to hand, a missing accord
slice arrives and is counted; a drain goes piece by piece; a sample is taken up by a core that may replay it, and then judged. What REPL
counts and the pieces of a drain are log 32 (DEDUCED). -/
def Sys2Proof.Machine.MatrixEvents : Prop :=
  (∀ (s : State) (team : Nat) (t : Team) (m : MatrixEntry) (rest : List MatrixEntry), s.team? team = some t →
    t.matrix.queue = m :: rest →
    (∀ tile, m.work = .zero tile → s.matrixTurnOf t = true →
      exec (.matrixOpStart team) s = .next ((s.mapCore t.core fun c => { c with matrixTurn := t.teamSlot + 1 }).mapOperation t.id
        fun m => { m with started := true, begun := s.now, progress := s.clk.toNat, opened := false })) ∧
    (∀ block, m.work = .multiply block → s.matrixTurnOf t = true →
      exec (.matrixOpStart team) s = .next (s.startMultiply t m block)) ∧
    (∀ tile a, m.work = .load tile a → s.matrixTurnOf t = true →
      (s.extentFault t { address := a, length := 131072, access := .matrixRead } = none →
        exec (.matrixOpStart team) s = .next (s.beginOperation t)) ∧
      ∀ i, s.extentFault t { address := a, length := 131072, access := .matrixRead } = some i →
        exec (.matrixOpStart team) s = .next (s.stopMatrix t m 3 (some i))) ∧
    (∀ tile, m.work = .zero tile → m.started = true → s.served t = true → m.missing = [] →
      s.mayServe (.operands team) = true →
      exec (.matrixOpEnd team) s = .next
        ((s.mapTeam team fun t => { t with matrix := (t.matrix.clearTile tile).setAccord tile none }).endMatrix t m)) ∧
    (∀ block, m.work = .multiply block → m.started = true → m.unopened = false → s.served t = true → m.missing = [] →
      s.mayServe (.operands team) = true →
      exec (.matrixOpEnd team) s = .next (s.endMultiply t m block)) ∧
    (∀ tile a es, m.work = .load tile a → m.started = true → s.served t = true → m.missing = [] →
      s.mayServe (.operands team) = true →
      s.loadElements t tile a = .ok es →
      exec (.matrixOpEnd team) s = .next
        ((s.mapTeam team fun t => { t with matrix := (t.matrix.setElements es).setAccord tile none }).endMatrix t m)) ∧
    (∀ block, m.work = .multiply block → m.missing = [] → m.unopened = true → s.served t = true → s.mayServe (.fetch team) = true →
      exec (.accordSliceArrive team) s = .next (s.openMultiply t m (multiplyOf block))) ∧
    (∀ block e left a y, m.work = .multiply block → m.missing = e :: left → s.served t = true →
      t.matrix.accord (multiplyOf block).tile = some a → s.fetchSlice t a.tbase (a.entry e.1) e.1 e.2 = .ok y →
      s.mayServe (.fetch team) = true → ∃ r, exec (.accordSliceArrive team) s = .next r ∧ r.mem = s.mem ∧ r.groups = s.groups ∧
        ∃ t', r.team? team = some t' ∧
          t'.matrix.repl = t.matrix.repl + BitVec.ofNat 32 ((a.rowsFor (multiplyOf block) e).1.length +
            (a.rowsFor (multiplyOf block) e).2.length) ∧
          ∃ m', t'.matrix.queue = m' :: rest ∧ m'.missing = left ∧ m'.got = m.got ++ [y]) ∧
    (∀ tile block r, m.work = .drain tile block → m.started = true → s.served t = true → s.mayServe (.drain team) = true →
      m.done < s.drainPieces t (drainOf block) → s.drainPiece t m (drainOf block) tile m.done = (r, none) →
      let went (sent : Bool) : State := r.mapOperation team fun m =>
        { m with done := m.done + 1, progress := s.clk.toNat, sent }
      (m.done + 1 < s.drainPieces t (drainOf block) → exec (.matrixDrainEnd team) s = .next (went false)) ∧
      (m.done + 1 = s.drainPieces t (drainOf block) → exec (.matrixDrainEnd team) s = .next ((went true).settleAdds team).wakeAll)) ∧
    (∀ tile block, m.work = .drain tile block → m.started = true → s.served t = true → s.mayServe (.drain team) = true →
      m.done = s.drainPieces t (drainOf block) → s.contributing team = false →
      let settled := (s.settleAdds team).settleDrain t m (drainOf block) tile
      exec (.matrixDrainEnd team) s = .next (if (drainOf block).apub = true
        then settled.mapOperation team fun m => { m with publishing := some 0 } else settled.finishDrain t m (drainOf block))) ∧
    s.settleAdds team = if m.sent = true ∧ s.contributing team = false then s.endDrains [m.uid] else s) ∧
  (∀ (s : State) (id core : Nat) (y : Sample), (s.samples.find? fun y => y.id == id) = some y →
    let rest : State := { s with samples := s.samples.filter fun z => z.id != id }
    (s.team? y.team = none → s.mayServe (.replay id core) = true → exec (.auditReplay id core) s = .next (rest.mapCtx y.ctx Context.countSkip)) ∧
    ∀ t, s.team? y.team = some t → s.mayReplay y.core core = true → s.mayServe (.replay id core) = true →
      (y.replayer = none → exec (.auditReplay id core) s = .next
        { s with samples := s.samples.map fun z => if z.id = id then { z with replayer := some core } else z }) ∧
      ∀ o start, y.replayer = some core → s.replayInputs t y core (multiplyOf y.block) = .ok (o, start) →
        exec (.auditReplay id core) s = .next (rest.judgeSample t y core (multiplyOf y.block) o start)) ∧
  ∀ (s : State) (t : Team) (y : Sample) (core : Nat) (x : Multiply) (o : Operands) (start : Matrix),
    let result := crc64 ((start.multiplied x (s.slot t x.slotA) (s.slot t x.slotB) o).region x)
    (operandSignature y.block o = y.operands → result = y.result →
      s.judgeSample t y core x o start = s.mapCtx y.ctx fun c =>
        { c with audstat := c.audstat.extractLsb' 32 32 ++ (c.audstat.extractLsb' 0 32 + 1#32) }) ∧
    (operandSignature y.block o = y.operands → result ≠ y.result → ∃ r, s.judgeSample t y core x o start = s.addRecord r ∧
      r.ctx = t.ctx ∧ r.kind = kindWord silentData 0 true false) ∧
    (operandSignature y.block o ≠ y.operands → ∃ r, s.judgeSample t y core x o start = s.addRecord r ∧
      r.ctx = t.ctx ∧ r.kind = kindWord auditInconclusive 0 false false)

/-- R292, R310: an operation that ends leaves the queue, and SEQC takes its number. -/
def Sys2Proof.Machine.OperationsEndInOrder : Prop :=
  ∀ (s : State) (t : Team) (m : MatrixEntry) (rest : List MatrixEntry), s.team? t.id = some t → t.matrix.queue = m :: rest →
    m.holds = [] → ∃ r : State, s.endMatrix t m = ((r.endDrains [m.uid]).releaseSlices t.core).wakeAll ∧ ∃ t', r.team? t.id = some t' ∧
      t'.matrix.queue = rest ∧ t'.matrix.seqc = (if m.number = 0 then t.matrix.seqc else m.number) ∧ t'.matrix.stat = 0 ∧
      t'.matrix.tiles = t.matrix.tiles ∧ t'.matrix.shadow = t.matrix.shadow ++ m.shadow ∧
      t'.matrix.lines = t.matrix.lines ++ blocksOf m.shadow ∧ r.mem = s.mem

/-- R28 to R33, R410: the test port and the freeze. Every test-port instruction loads its code, changes the test port alone, and FREEZE
and RELEASE set and clear the latch; the freeze edge stops the clocks with everything kept; a restart needs the latch clear and
FREEZE_N high, and sets every trained port and the CXL link retraining. That BROWN_N's level is followed at a restart, and the retraining
of the CXL link, are log 39 (DEDUCED). -/
def Sys2Proof.Machine.TestPortEvents : Prop :=
  ∀ s : State,
    let leaves (i : Instr) (code : Nat) (latch requested : Bool) : Prop :=
      ∃ t, exec i s = .next t ∧ t = { s with test := t.test } ∧ t.test.instruction.toNat = code ∧ t.test.latch = latch ∧
        t.test.requested = requested ∧ t.test.frozen = s.test.frozen ∧ t.test.freezeHigh = s.test.freezeHigh ∧
        t.test.chain = s.test.chain
    let asked : Bool := s.test.requested || !s.test.frozen
    leaves .tapIdcode 0x01 s.test.latch s.test.requested ∧ leaves .tapFreeze 0x10 true asked ∧
    leaves .tapRelease 0x11 (s.test.latch && !s.test.freezeHigh) s.test.requested ∧
    leaves .tapStatus 0x12 s.test.latch s.test.requested ∧ leaves .scansel 0x20 s.test.latch s.test.requested ∧
    leaves .scanrd 0x21 s.test.latch s.test.requested ∧
    (∀ code : BitVec 8, leaves (.bypass code) code.toNat s.test.latch s.test.requested) ∧
    (∀ bits : Nat, ∃ t, exec (.dataRegisterShift bits) s = .next t ∧ t = { s with test := t.test } ∧ t.test.out = s.captured ∧
      t.test.chain = if s.test.instruction.toNat = 0x20 then BitVec.ofNat 16 bits else s.test.chain) ∧
    exec .freezeNLow s = .next { s with test := { s.test with freezeHigh := false, requested := asked } } ∧
    exec .freezeNHigh s = .next { s with test := { s.test with freezeHigh := true } } ∧
    exec .frzctlFreeze s = .next { s with test := { s.test with latch := true, requested := asked } } ∧
    (s.test.requested = true → s.test.frozen = false →
      exec .freezeEdge s = .next { s with test := { s.test with frozen := true, requested := false } }) ∧
    (s.test.frozen = true → s.test.latch = false → s.test.freezeHigh = true →
      exec .clockRestart s = .next (State.followBrown { s with
        test := { s.test with frozen := false }, plat := { s.plat with cxlTraining := s.plat.power },
        ports := s.ports.map fun e => if e.2 = .trained then (e.1, .retraining s.real) else e })) ∧
    (s.plat.brownHigh = true → s.plat.quiescing = false → s.followBrown = s)

/-- R32, R33: what the test port reads. STATUS gives the freeze, the latch, FREEZE_N and debug access; SCANRD gives length, bits and
CRC-32C, with length 0 unless the package is frozen with debug access. -/
def Sys2Proof.Machine.ScanReadOut : Prop :=
  (∀ s : State,
    (s.test.instruction = 0x12#8 → s.captured = [s.test.frozen, s.test.latch, s.test.freezeHigh, s.hub.dbgEn] ++
      List.replicate 4 false) ∧
    (s.test.instruction = 0x21#8 → s.test.frozen = false ∨ s.hub.dbgEn = false → s.captured = List.replicate 64 false) ∧
    (s.test.instruction = 0x21#8 → s.test.frozen = true → s.hub.dbgEn = true → ∃ bits : List Bool, bits.length < 2 ^ 32 ∧
      s.captured = lowBits 32 bits.length ++ bits ++ lowBits 32 (crcBits bits) ∧
      ∀ (i : Nat) (b : Bool), bits[i]? = some b → b = s.chainBit s.test.chain.toNat i)) ∧
  crcBits ([0x31, 0x32, 0x33, 0x34, 0x35, 0x36, 0x37, 0x38, 0x39].flatMap (lowBits 8)) = 0xE3069283

/-- R34 to R37, R360, R361, R405, R406, R409, R410: ports, power, the full self-test and the supply. When a new image becomes the one that
runs is log 12 (DEDUCED), BROWN_N while the package is frozen and what a loss of power keeps log 39 (DEDUCED), and a report that its
home keeps waiting, or that is kept for a later STREPORT, log 40 (DEDUCED). -/
def Sys2Proof.Machine.PowerEvents : Prop :=
  ∀ s : State,
    (∀ port, sget Port.untrained s.ports port = .trained →
      exec (.linkLoss port) s = .next { s with ports := sput .untrained s.ports port (.retraining s.real) }) ∧
    (∀ port, port < 24 → s.hub.hasFailed (.clnk port) = false → s.plat.power = true →
      exec (.linkTrained port) s = .next
        ({ s with ports := sput .untrained s.ports port .trained, hub := s.hub.setReady (.clnk port) true } : State).wakeAll) ∧
    (∀ port since, sget Port.untrained s.ports port = .retraining since → port < 24 → since + 100000000 ≤ s.real →
      exec (.portFailTimeout port) s = .next ((s.failFunction (.clnk port)).raise (1024 + port))) ∧
    (s.plat.power = false → ∃ t, exec .powerOn s = .next t ∧ t.plat.power = true ∧ t.hub.failA = s.hub.retA ∧
      t.hub.failB = s.hub.retB ∧ t.plat.fullTest = s.plat.tflag ∧ t.plat.tcount = s.plat.tcount + (if s.plat.tflag then 1 else 0) ∧
      t.mem = s.mem ∧ t.contexts = s.contexts ∧ t.host.counter = s.host.counter ∧ t.host.staged = none ∧
      t.host.image = (match s.host.staged with
        | some b => if s.imageGood b then some b else s.host.image
        | none => s.host.image) ∧
      t.hub.fwsvn = (if t.imageGood t.firmware then BitVec.ofNat 8 (Config.imageVersion t.firmware) else 0)) ∧
    (∃ t, exec .transportNLow s = .next t ∧ t = { s with plat := t.plat } ∧ t.plat.tflag = true ∧ t.plat.tpin = true ∧
      t.plat.tcount = s.plat.tcount ∧ t.plat.tlast = s.plat.tlast) ∧
    (∀ failed, s.plat.fullTest = true →
      let r := failed.foldl State.failFunction s
      let made : State := { r with host := { r.host with report := r.reportBody ++ identitySignature r.reportBody },
                                   plat := { r.plat with fullTest := false, tflag := false, tpin := false } }
      (made.reportHome = .ready → exec (.fullSelfTestEnd failed) s = .next made.writeReport) ∧
      (made.reportHome = .failed → exec (.fullSelfTestEnd failed) s = .next made) ∧
      (made.reportHome = .waiting → exec (.fullSelfTestEnd failed) s = .next s)) ∧
    (s.host.report = [] ∨ s.host.reportTo = 0 → s.reportHome = .ready) ∧
    (s.host.report ≠ [] → s.host.reportTo ≠ 0 →
      s.reportHome = s.homesOf (spanPlaces (hostPlace s.host.reportTo) s.host.report.length)) ∧
    (s.plat.power = true → exec .supplyDroop s = .next { s with hub := { s.hub with stretch := true } }) ∧
    exec .droopEnd s = .next { s with hub := { s.hub with stretch := false } } ∧
    (s.plat.power = true → s.plat.quiescing = false → s.test.frozen = false →
      exec .brownNFall s = .next { s with plat := { s.plat with brownHigh := false, quiescing := true },
                                          preempts := s.preempts ++ [{ purpose := Purpose.brown }] }) ∧
    (s.test.frozen = true → exec .brownNFall s = .next { s with plat := { s.plat with brownHigh := false } } ∧
      exec .brownNRise s = .next { s with plat := { s.plat with brownHigh := true } }) ∧
    (s.plat.quiescing = true → s.hub.quiesced = false → s.queue = [] → (∀ p ∈ s.preempts, p.purpose ≠ Purpose.brown) →
      exec .quiesceComplete s = .next { s with hub := { s.hub with quiesced := true } }) ∧
    (s.plat.quiescing = false → exec .brownNRise s = .next { s with plat := { s.plat with brownHigh := true } }) ∧
    (s.plat.power = true → s.test.frozen = false → s.plat.quiescing = true → ∃ t : State,
      exec .brownNRise s = .next t.wakeAll ∧ t.plat.brownHigh = true ∧ t.plat.quiescing = false ∧ t.hub.quiesced = false ∧
      t.host.brown = [] ∧ t.mem = s.mem ∧ (∀ p ∈ t.preempts, p.purpose ≠ Purpose.brown) ∧
      ∀ c ∈ s.host.brown, (t.ctx c).swapped = false) ∧
    (∃ t, exec .powerLoss s = .next t ∧ t.mem = s.mem ∧ t.plat.power = false ∧ t.groups = [] ∧ t.teams = [] ∧ t.contexts = [] ∧
      t.queue = [] ∧ t.ops = [] ∧ t.clk = 0 ∧ t.hub.readyA = 0 ∧ t.hub.readyB = 0 ∧ t.hub.retA = s.hub.retA ∧
      t.hub.retB = s.hub.retB ∧ t.hub.retired = s.hub.retired ∧ t.plat.tcount = s.plat.tcount ∧ t.plat.tflag = s.plat.tflag)

/-- R360, R7: the self-test report: the words of READY and FAIL, then 64 results of 16 bytes, each with its function first and its last
8 bytes reserved and zero. How a result stands in its other bytes is log 14 (DESIGN CHOICE). -/
def Sys2Proof.Machine.ReportLayout : Prop :=
  ∀ s : State, s.reportBody.length = 1120 ∧
    (s.reportBody.drop 64).take 32 =
      leBytes 8 s.hub.readyA.toNat ++ leBytes 8 s.hub.readyB.toNat ++ leBytes 8 s.hub.failA.toNat ++ leBytes 8 s.hub.failB.toNat ∧
    ∀ i < 64, (s.reportBody.drop (96 + 16 * i)).take 2 = leBytes 2 (Config.selfTestFunction i).toNat ∧
      (s.reportBody.drop (104 + 16 * i)).take 8 = List.replicate 8 0

/-- R2, R21, R22, R34 to R37, R384: functions become ready and fail, with those that depend on them; units are retired; a resource runs
the first of its requests that are ready, by class, arrival and requester; an access that has waited 2048 cycles moves up one class, never
into class 0. Which requests stand at which resource is log 38 (DEDUCED). -/
def Sys2Proof.Machine.FunctionEvents : Prop :=
  ∀ s : State,
    (∀ fn, s.mayBeReady fn = false → exec (.functionReady fn) s = .next s) ∧
    (∀ n, s.mayBeReady (.sect n) = true → exec (.functionReady (.sect n)) s = .next ({ s with
      hub := { s.hub.setReady (.sect n) true with coresvc := s.hub.coresvc ||| s.coresOf n } } : State).wakeAll) ∧
    (s.mayBeReady .cxlio = true → exec (.functionReady .cxlio) s = .next ({ s with
      hub := s.hub.setReady .cxlio true, plat := { s.plat with cxlTraining := false } } : State).wakeAll) ∧
    (∀ fn, s.mayBeReady fn = true → fn ≠ .cxlio → (∀ n, fn ≠ .sect n) → (∀ n, fn ≠ .clnk n) →
      exec (.functionReady fn) s = .next ({ s with hub := s.hub.setReady fn true } : State).wakeAll) ∧
    (∀ fn, s.plat.power = true → exec (.functionFail fn) s = .next (s.failFunction fn)) ∧
    (∀ fn b i, functionBit fn = some (b, i) → i < 64 → (s.hub.fail fn).isReady fn = false ∧ (s.hub.fail fn).hasFailed fn = true ∧
      ∀ d ∈ functionDependents fn, (s.hub.fail fn).isReady d = false) ∧
    (∀ fn i, functionBit fn = some (false, i) →
      exec (.functionRetired (.function fn)) s = .next
        { s.failFunction fn with hub := { (s.failFunction fn).hub with retA := setBit (s.failFunction fn).hub.retA i true } }) ∧
    (∀ fn i, functionBit fn = some (true, i) →
      exec (.functionRetired (.function fn)) s = .next
        { s.failFunction fn with hub := { (s.failFunction fn).hub with retB := setBit (s.failFunction fn).hub.retB i true } }) ∧
    (∀ c, c < 192 → ∃ t, exec (.functionRetired (.core c)) s = .next t ∧ (t.core c).retired = true ∧ t.mem = s.mem) ∧
    (∀ pa : DWord, let frame := pa.toNat / 4096 * 4096
      (frame ∉ s.hub.retired → targetOf frame = .hbm ∨ targetOf frame = .peat →
        exec (.functionRetired (.page pa)) s = .next { s with hub := { s.hub with
          retired := s.hub.retired ++ [frame], pageret := s.hub.pageret + 1 } }) ∧
      (frame ∈ s.hub.retired → exec (.functionRetired (.page pa)) s = .next s)) ∧
    (∀ resource r, s.granted resource = some r → r ∈ s.requests ∧ r.resource = resource ∧ s.acts r.traffic = true ∧
      (∀ x ∈ s.requests, x.resource = resource → s.acts x.traffic = true → r.cls ≤ x.cls ∧ (x.cls = r.cls → r.arrival ≤ x.arrival ∧
        (x.arrival = r.arrival → r.requester ≤ x.requester))) ∧
      exec (.resourceGrant resource) s = s.grant r.traffic) ∧
    (∀ resource, s.granted resource = none → exec (.resourceGrant resource) s = .next s) ∧
    ∀ resource request, ∃ t, exec (.arbitrationPromotion resource request) s = .next t ∧ t = { s with ops := t.ops } ∧
      t.ops.length = s.ops.length ∧ ∀ (k : Nat) (o : Op), s.ops[k]? = some o → ∃ o' : Op, t.ops[k]? = some o' ∧
        o' = { o with promoted := o'.promoted } ∧
        (o.id ≠ request ∨ s.resourceOf o ≠ some resource ∨ promotedClass o.cls o.promoted ≤ 1 ∨
          s.clk.toNat < o.waited + 2048 * (o.promoted + 1) → o' = o) ∧
        (o.id = request → s.resourceOf o = some resource → 1 < promotedClass o.cls o.promoted →
          o.waited + 2048 * (o.promoted + 1) ≤ s.clk.toNat →
          o'.promoted = o.promoted + 1 ∧ promotedClass o'.cls o'.promoted = promotedClass o.cls o.promoted - 1)

/-- R21 to R24: an event that serves traffic takes place only where that is granted its slots. Traffic may be served where every resource at
which it has a request grants it the next slot, or, where no traffic that would act is granted all of its, where one of them does (log 38,
DEDUCED); an event whose traffic may not be served leaves the machine as it is. An access competes in its own class less one for each
2048 cycles that it has waited, and never in class 0 through that. -/
def Sys2Proof.Machine.TrafficWaitsForItsGrant : Prop :=
  ∀ s : State,
    (∀ w : Traffic, s.mayServe w = true ↔ (∀ r ∈ s.requests, r.traffic = w → s.grantsTo w r.resource = true) ∨
      ((∃ r ∈ s.requests, r.traffic = w ∧ s.grantsTo w r.resource = true) ∧ ∀ r ∈ s.requests, s.acts r.traffic = true →
        ∃ x ∈ s.requests, x.traffic = r.traffic ∧ s.grantsTo r.traffic x.resource = false)) ∧
    (∀ (w : Traffic) (resource : Nat), s.grantsTo w resource = true ↔ ∃ r, s.granted resource = some r ∧ r.traffic = w) ∧
    (∀ w : Traffic, s.acts w = false ↔ s.grant w = .next s) ∧
    (∀ id, s.mayServe (.access id) = false → exec (.perform id) s = .next s ∧ exec (.scratchpadRequestPerform id) s = .next s ∧
      exec (.barrierArrival id) s = .next s ∧ exec (.rankedContribution id) s = .next s) ∧
    (∀ gid lane, exec (.frameSpill gid lane) s = if s.mayServe (.spill gid lane) = true then s.grant (.spill gid lane) else .next s) ∧
    (∀ gid lane, exec (.frameRefill gid lane) s = if s.mayServe (.refill gid lane) = true then s.grant (.refill gid lane) else .next s) ∧
    (∀ gid, exec (.groupSave gid) s = if s.mayServe (.save gid) = true then s.grant (.save gid) else .next s) ∧
    (∀ gid core, s.mayServe (.restore gid) = false → exec (.groupResume gid core) s = .next s ∧
      ∀ e ∈ s.embers, s.ember? e.id = some e → e.kind = .resume gid → ∀ named, exec (.emberDispatch e.id core named) s = .next s) ∧
    (∀ t q, exec (.engineChunk t q) s = if s.mayServe (.chunk t q) = true then s.grant (.chunk t q) else .next s) ∧
    (∀ t q, exec (.chainCommandRead t q) s = if s.mayServe (.chain t q) = true then s.grant (.chain t q) else .next s) ∧
    (∀ t, exec (.collectiveStep t) s = if s.mayServe (.step t) = true then s.grant (.step t) else .next s) ∧
    (∀ t, exec (.accordSliceArrive t) s = if s.mayServe (.fetch t) = true then s.grant (.fetch t) else .next s) ∧
    (∀ t, exec (.matrixOpEnd t) s = if s.mayServe (.operands t) = true then s.grant (.operands t) else .next s) ∧
    (∀ t, exec (.matrixDrainEnd t) s = if s.mayServe (.drain t) = true then s.grant (.drain t) else .next s) ∧
    exec (.apply 0) s = (if s.mayServe .unit = true then s.grant .unit else .next s) ∧
    exec .contextSwapDone s = (if s.mayServe .swap = true then s.grant .swap else .next s) ∧
    (∀ y core, exec (.auditReplay y core) s = if s.mayServe (.replay y core) = true then s.grant (.replay y core) else .next s) ∧
    (∀ o : Op, s.rank o = if o.cls ≤ 1 then o.cls else max 1 (o.cls - max o.promoted ((s.clk.toNat - o.waited) / 2048)))

/-- R2, R21, R22, R34 to R37, R360, R361, R405, R409, R410: power, ports, functions, arbitration. What it says that the rules leave
open is the model's choice, logs 12, 14, 38, 39 and 40. -/
def Obligations.PowerAndFunctionEvents : Prop := Sys2Proof.Machine.PowerEvents ∧
  Sys2Proof.Machine.ReportLayout ∧
  Sys2Proof.Machine.FunctionEvents ∧
  Sys2Proof.Machine.TrafficWaitsForItsGrant

/-- R364, R365, R408: with debug access a debugger halts and resumes groups, attaches to a context, writes a register of a halted
group where it stands, in the ring or in the arena, and makes the ready threads of a sub-group issue once; a step without a ready thread is
reported as blocked. That groups may be halted without an attachment, and how a step is taken, is log 39 (DEDUCED). -/
def Sys2Proof.Machine.DebugEvents : Prop :=
  ∀ s : State, s.hub.dbgEn = true →
    (∀ target, exec (.debugHalt target) s = .next (s.mapGroups fun g => if s.targets target g then { g with halted := true } else g)) ∧
    (∀ target, exec (.debugResume target) s = .next
      (s.mapGroups fun g => if s.targets target g then { g with halted := false } else g).wakeAll) ∧
    (∀ ctx attached, (s.ctx ctx).live = true →
      exec (.debuggerAttach ctx attached) s = .next (s.mapCtx ctx fun x => { x with debug := attached })) ∧
    (∀ gid lane name value g p, s.group? gid = some g → g.halted = true → lane < 32 → placeOf (g.lane lane) name = some p →
      nameOk (g.lane lane) name = true → g.arenaRow lane name = none →
      exec (.debuggerRegisterWrite gid lane name value) s = .next (s.mapGroup gid fun x => x.writeName lane name value)) ∧
    (∀ gid lane name value g t r, s.group? gid = some g → s.team? g.team = some t → g.halted = true → lane < 32 →
      placeOf (g.lane lane) name = some (.ring r) → nameOk (g.lane lane) name = true →
      (g.resident = false ∨ r < (g.lane lane).lo → s.reach t.ctx g.core (g.spillAddrs t.rst lane r (r + 1) 0) 1 = .ok →
        exec (.debuggerRegisterWrite gid lane name value) s = .next
          (s.spillAll gid t.ctx g.core t.rst [(r, regOffset lane, leBytes 4 value.toNat)])) ∧
      (g.resident = true → (g.lane lane).lo ≤ r → g.arenaRow lane name = none)) ∧
    (∀ gid j g, s.group? gid = some g → s.steppable g = true → (g.lane j).status = .ready → j < 32 →
      (∀ k, k < j → (g.lane k).pc ≠ (g.lane j).pc ∨ (g.lane k).status ≠ .ready) →
      exec (.singleStep gid (some j)) s = .next
        { s with host := { s.host with stepped := none }, agenda := .single gid j :: s.agenda }) ∧
    ∀ gid j g, s.group? gid = some g → s.steppable g = true →
      (∀ k < 32, (g.lane k).pc = (g.lane j).pc → (g.lane k).status ≠ .ready) →
      ∃ t, exec (.singleStep gid (some j)) s = .next t ∧ t = { s with host := { s.host with stepped := none } } ∧
        t.stepBlocked = true

/-- R28 to R33, R364, R365, R408: the test port, the freeze, and the debugger. What it says that the rules leave open is the
model's choice, log 39. -/
def Obligations.TestPortAndDebugEvents : Prop := Sys2Proof.Machine.TestPortEvents ∧
  Sys2Proof.Machine.ScanReadOut ∧
  Sys2Proof.Machine.DebugEvents

/-- R169, R170, R357, R359, R362, R363: page-move requests, the start and the end of a move, and hold-downs; a sector's test from its
interval to its end, pre-emption, and the swap of two contexts. MIGRATION_REQUEST, MIGRATION_START, MIGRATION_COMPLETE,
HOLDDOWN_EXPIRY, SELF_TEST_INTERVAL, SELF_TEST_END, PREEMPTION, PREEMPTION_COMPLETE and CONTEXT_SWAP_DONE complete. A swap that is whole or
not at all, abandoned samples and where a tested sector's teams go are log 37, a team whose exit commit has taken place log 36, hold-downs,
moves that others pass and moves that end at a failed home log 41 (all DEDUCED). -/
def Sys2Proof.Machine.MigrationAndTestEvents : Prop :=
  ∀ s : State,
    (∀ ctx va tier byHost, (s.ctx ctx).live = true → (s.pageOf ctx va).isSome →
      (∀ m ∈ s.moves, s.pageOf m.ctx m.va ≠ s.pageOf ctx va) →
      exec (.migrationRequest ctx va tier byHost) s = .next { s with ids := s.ids + 1, moves := s.moves ++ [
        { id := s.ids, ctx := ctx, va := va, tier := if byHost = true then tier else .hbm, byHost := byHost, mailbox := false }] }) ∧
    (∀ m l f r, s.hub.isReady .migr = true → s.nextMove = some (m, l) → s.frameFor m l.size = (.frame f, r) →
      let begun (x : Move) : Move := if x.id = m.id
        then { x with started := true, entryPlace := l.base, size := l.size, frame := f, source := entryFrame l.entry } else x
      exec .migrationStart s = .next ((State.writeEntries { r with moves := r.moves.map begun } l.base l.size false none).sweep
        (r.ctx m.ctx).asid m.va)) ∧
    (∀ m : Move, (s.moves.find? fun m => m.started && decide (s.homesOf m.places ≠ .waiting)) = some m →
      (∀ p, (m.places.find? fun p => decide (s.home p = .failed)) = some p → ∃ access, exec .migrationComplete s = .next
        (((s.dropMove m.id).answerMove m 2).addRecord (arbiterRecord m.ctx p access s.clk)).wakeAll) ∧
      ((∀ p ∈ m.places, s.home p ≠ .failed) →
      let r := (State.writeEntries { s with mem := movedBytes s.mem m.source m.frame (pageBytes m.size) } m.entryPlace m.size true
        (some m.frame)).dropMove m.id
      exec .migrationComplete s = .next ((r.holdDown m).answerMove m 0).wakePages.wakeAll)) ∧
    exec .holddownExpiry s = .next { s with holds := s.holds.filter fun h => decide (s.real < h.since + 50000) } ∧
    (∀ n, s.testDue n = true → exec (.selfTestInterval n) s = .next
      { s.mapSector n (fun c => { c with testing := true, request := false }) with
        preempts := s.preempts ++ [{ purpose := .test n }] }) ∧
    (∀ n, (s.sector n).testing = true → (s.sector n).result = 3 →
      (exec (.selfTestEnd n true) s = .next
        (((s.mapSector n fun c => { c with testing := false, result := 1, lastPass := s.clk, passSeq := c.lseq,
                                           visitors := s.contextsIn n, tested := s.real }).becomeReady (.sect n)).releaseTeams
          fun t => coreSector t.core == n)) ∧
      exec (.selfTestEnd n false) s = .next
        (let r := (s.mapSector n fun c => { c with testing := false, fenced := true, result := 2, tested := s.real }).failFunction
          (.sect n)
         { r with records := r.records ++ (s.sector n).suspects r.clk })) ∧
    (∀ i p, s.preemptAt (fun p => decide (p.stage = .requested)) = some (i, p) →
      let stop (t : Team) : Team := if s.preempts' p.purpose t then { t with stopped := true } else t
      exec .preemption s = .next ((State.setStage { s with teams := s.teams.map stop } i p .stopping).abandonSamples
        (s.preemptCores p.purpose))) ∧
    (∀ i p, s.preemptAt (fun p => decide (p.stage = .stopping) && s.quiet p.purpose) = some (i, p) →
      (∀ n, p.purpose = .test n → exec .preemptionComplete s = .next (s.evacuate i n)) ∧
      ((∀ n, p.purpose ≠ .test n) → exec .preemptionComplete s = .next
        { s with preempts := s.preempts.set i { p with stage := .complete } })) ∧
    (∀ i p c out into r, s.preemptAt (fun p => decide (p.stage = .complete)) = some (i, p) → p.purpose = .swap c out into →
      (s.swapOut [out]).swapIn into = some r → s.mayServe .swap = true → exec .contextSwapDone s = .next ((r.endPreempt i).mailboxDone 0).wakeAll) ∧
    ∀ i p, s.preemptAt (fun p => decide (p.stage = .complete)) = some (i, p) → p.purpose = .brown → s.mayServe .swap = true →
      let cs := (s.contexts.filter fun e => e.2.live && !e.2.swapped).map fun e => e.1
      exec .contextSwapDone s = .next { s.swapOut cs with
        preempts := (s.swapOut cs).preempts.eraseIdx i, host := { (s.swapOut cs).host with brown := cs } }

/-- R169: what a completed move leaves: the new frame holds what the page held, and no other byte has changed. -/
def Sys2Proof.Machine.MovesKeepContents : Prop :=
  ∀ (mem : Memory) (source target n a : Nat), Memory.wf mem →
    sget 0 (movedBytes mem source target n) a =
      if target ≤ a ∧ a < target + n then sget 0 mem (source + (a - target)) else sget 0 mem a

/-- R385 to R391, R394, R402, R403, R405, R406: kicks and queue control, acceptance into the journal, the five commands and their
completion; the Hearth's restart and its messages. KICK, QCTL_WRITE, HOST_COMMAND_ACCEPT, HQ_NOP, HQ_LAUNCH, HQ_EMBER, HQ_SIGNAL, HQ_WAIT,
HOST_COMMAND_COMPLETE, HEARTH_RESTART, HEARTH_RESTART_END and COMMAND_LINK_MESSAGE complete. That a SIGNAL to a bad word writes a record and completes, the alignment of record and ember addresses, and
the record of an operand that cannot be read are log 40 (DEDUCED), and the image that runs after a restart log 12 (DEDUCED). -/
def Sys2Proof.Machine.HostQueueEvents : Prop :=
  ∀ s : State,
    (∀ q value, q < 1024 → s.hub.isReady .hqt = true →
      (exec (.kick q true value) s = .next (s.mapQueue q fun x => { x with kick := if x.kick.toNat < value.toNat then value else x.kick })) ∧
      exec (.kick q false value) s = .next (s.mapQueue q fun x => { x with narrow := true })) ∧
    (∀ q value, q < 1024 → s.plat.power = true → exec (.qctlWrite q value) s = .next (s.mapQueue q fun x =>
      { x with en := value.getLsbD 0, log2n := if x.en then x.log2n else value.extractLsb' 2 5, ctx := value.extractLsb' 8 10,
               swo := (s.ctx (value.toNat / 256 % 1024)).swapped })) ∧
    (∀ q, q < 1024 → s.hearthUp = true → (s.hostQueue q).en = true → (s.hostQueue q).swo = false →
      let x := s.hostQueue q
      let i := x.prog.toNat
      let b := s.bytes (x.place i) 64
      let entry : JournalEntry :=
        { id := s.ids, queue := q, index := i, ctx := x.ctx.toNat, bytes := b, bad := commandBad b, acted := commandBad b }
      let r := State.mapQueue { s with ids := s.ids + 1, host := { s.host with journal := s.host.journal ++ [entry] } } q fun q =>
        { q with prog := q.prog + 1 }
      (2 ^ x.log2n.toNat < x.kick.toNat - i →
        exec (.hostCommandAccept q) s = .next (s.mapQueue q fun q => { q with overrun := true, en := false })) ∧
      (i < x.kick.toNat → x.kick.toNat - i ≤ 2 ^ x.log2n.toNat → s.home (x.place i) = .ready →
        (commandBad b = false → exec (.hostCommandAccept q) s = .next r) ∧
        (commandBad b = true → exec (.hostCommandAccept q) s = .next (r.mapQueue q fun q =>
          { q with badcmd := true, badIndex := BitVec.ofNat 32 i })))) ∧
    (∀ e, s.nextCommand 0 = some e → exec .hqNop s = .next (s.acted e)) ∧
    (∀ e b, s.nextCommand 1 = some e → (commandOp0 e.bytes).toNat % 64 = 0 → s.hostBytes e.ctx (commandOp0 e.bytes) 512 = .bytes b →
      (recordGood b true = true → exec .hqLaunch s = .next (s.startGrid e (recordOf b))) ∧
      (recordGood b true = false → exec .hqLaunch s = .next (s.actBad e))) ∧
    (∀ e i, s.nextCommand 1 = some e → (commandOp0 e.bytes).toNat % 64 = 0 → s.hostBytes e.ctx (commandOp0 e.bytes) 512 = .fault i →
      let note : ErrorRecord :=
        { ctx := e.ctx, kind := kindWord i.kind 0 false false, addr := i.addr, info := i.info, time := s.clk }
      exec .hqLaunch s = .next ((s.addRecord note).actBad e)) ∧
    (∀ e b m n r, s.nextCommand 2 = some e → (commandOp0 e.bytes).toNat % 64 = 0 → (commandOp1 e.bytes).toNat % 8 = 0 →
      s.hostBytes e.ctx (commandOp0 e.bytes) 512 = .bytes b → s.hostBytes e.ctx (commandOp1 e.bytes) 64 = .bytes m →
      recordGood b false = true → emberBad (recordOf b).roles.length m = false →
      s.partitionSectors (s.ctx e.ctx).partition = n :: r →
      exec .hqEmber s = .next (((s.clearIcaches (s.ctx e.ctx).partition).submit e.ctx
        (s.leastLoaded (s.ctx e.ctx).partition n) (recordOf b) m []).acted e)) ∧
    (∀ e, s.nextCommand 3 = some e →
      (∀ p, s.hostWord e.ctx (commandOp0 e.bytes) 3 = .place p → exec .hqSignal s = .next
        ((s.raiseWord p (commandOp1 e.bytes).toNat).acted e)) ∧
      ∀ i, s.hostWord e.ctx (commandOp0 e.bytes) 3 = .fault i → exec .hqSignal s = .next ((s.addRecord
        { ctx := e.ctx, kind := kindWord i.kind 0 false false, addr := i.addr, info := i.info, time := s.clk }).acted e)) ∧
    (∀ e p, s.nextCommand 4 = some e → s.hostWord e.ctx (commandOp0 e.bytes) 0 = .place p →
      (commandOp1 e.bytes).toNat ≤ s.readNat p 8 → exec .hqWait s = .next (s.acted e)) ∧
    (∀ id e, (s.host.journal.find? fun e => e.id == id) = some e → s.hearthUp = true → e.acted = true →
      (∀ g, e.grid = some g → s.gridDone g = true) →
      let gone : State := { s with host := { s.host with journal := s.host.journal.filter fun x => x.id != id } }
      (commandCse e.bytes = false → exec (.hostCommandComplete id) s = .next gone) ∧
      ∀ p, commandCse e.bytes = true → s.hostWord e.ctx (BitVec.ofNat 64 (field e.bytes 0x18 8)) 3 = .place p →
        exec (.hostCommandComplete id) s = .next (gone.raiseWord p (field e.bytes 0x20 8))) ∧
    (s.hub.isReady .hearth = true → exec .hearthRestart s = .next
      { s with hub := s.hub.withdraw .hearth, host := { s.host with restarting := true } }) ∧
    (s.host.restarting = true → ∃ t, exec .hearthRestartEnd s = .next t ∧ t.host.restarting = false ∧ t.host.staged = none ∧
      t.host.journal = s.host.journal ∧ t.mem = s.mem ∧ t.host.image = (match s.host.staged with
        | some b => if s.imageGood b then some b else s.host.image
        | none => s.host.image) ∧
      t.hub.fwsvn = (if t.imageGood t.firmware then BitVec.ofNat 8 (Config.imageVersion t.firmware) else 0)) ∧
    ∀ n number, n < 16 →
      (exec (.commandLinkMessage n false number) s = .next (s.mapSector n fun c =>
        if c.permitsDown = 0 ∨ c.handledDown.contains number then c else { c with handledDown := c.handledDown ++ [number] })) ∧
      (s.host.restarting = true → exec (.commandLinkMessage n true number) s = .next (s.mapSector n fun c =>
        if c.permitsUp = 0 then c else { c with waitingUp := c.waitingUp ++ [number], permitsUp := c.permitsUp - 1 })) ∧
      (s.host.restarting = false → exec (.commandLinkMessage n true number) s = .next (s.mapSector n fun c =>
        if c.permitsUp = 0 ∨ c.handledUp.contains number then c else { c with handledUp := c.handledUp ++ [number] }))

/-- R387, R388, R394: a started command and a launched grid, as the journal and the instances hold them; the next command of a code is
one that may start, and nothing earlier of its queue waits. -/
def Sys2Proof.Machine.CommandsTakeEffect : Prop :=
  (∀ (s : State) (e : JournalEntry), s.acted e = { s with host := { s.host with journal := s.host.journal.map fun x =>
    if x.id = e.id then { x with acted := true, away := none } else x } }) ∧
  (∀ (s : State) (opc : Nat) (e : JournalEntry), s.nextCommand opc = some e → e ∈ s.host.journal ∧ commandOpc e.bytes = opc ∧
    e.acted = false ∧ (s.ctx e.ctx).live = true ∧ (s.ctx e.ctx).swapped = false ∧
    ∀ x ∈ s.host.journal, x.queue = e.queue → x.index < e.index → x.acted = true ∧ commandOrd e.bytes = false) ∧
  ∀ (s : State) (e : JournalEntry) (r : Record),
    let t := s.startGrid e r
    let i : Instance :=
      { id := s.ids, ctx := e.ctx, record := r, grid := true, ember := gridEmber r (commandOp1 e.bytes),
        partition := (s.ctx e.ctx).partition, total := r.gx * r.gy * r.gz, journal := some e.id }
    t.mem = s.mem ∧ t.teams = s.teams ∧ t.ids = s.ids + 1 ∧ t.instances = s.instances ++ [i] ∧
    (∀ c < 192, ((s.partitionMask (s.ctx e.ctx).partition).testBit (coreSector c) = true → (t.core c).icache = []) ∧
      ((s.partitionMask (s.ctx e.ctx).partition).testBit (coreSector c) = false → t.core c = s.core c)) ∧
    t.host.journal = s.host.journal.map fun x => if x.id = e.id then { x with acted := true, grid := some s.ids } else x

/-- R385 to R391, R394, R402, R403: host queues, their commands and the Hearth. What it says that the rules leave open is the
model's choice, logs 12 and 40. -/
def Obligations.HostQueueEvents : Prop := Sys2Proof.Machine.HostQueueEvents ∧
  Sys2Proof.Machine.CommandsTakeEffect

/-- R360, R361, R363, R395 to R397, R404, R406 to R408, R414: a mailbox command at the doorbell with good operands acts and is answered; with a
nonzero reserved operand bit its status is 1. PARTSET, CTXNEW, CTXFREE, CTXSWAP, MIGRATE, DEVNUM, ROUTE, ATTEST, DEBUGEN, FWLOAD,
STREPORT and TRANSPORT complete. The statuses of PARTSET, of a second DEVNUM, of an older image and of homes that have failed, STREPORT's
report at once and TRANSPORT with 0 are log 40 (DEDUCED). -/
def Sys2Proof.Machine.MailboxCommands : Prop :=
  ∀ s : State,
    let waits (code : Nat) (os : List Operand) : Prop := s.commandWaits code = true ∧ s.operandsGood os = true
    let small : List Operand := [⟨0x008, 4, 10⟩]
    let p := s.mail 8 4
    let va : DWord := BitVec.ofNat 64 (s.mail 0x010 8)
    (waits 0x01 [⟨0x008, 4, 4⟩, ⟨0x00C, 4, 16⟩] →
      ((∃ q < 16, q ≠ p ∧ s.partitionMask q &&& s.mail 0x00C 4 ≠ 0) → exec .partset s = .next (s.mailboxDone 1)) ∧
      ((∀ q < 16, q ≠ p → s.partitionMask q &&& s.mail 0x00C 4 = 0) →
        ((∃ e ∈ s.contexts, e.2.live = true ∧ e.2.partition = p) → exec .partset s = .next (s.mailboxDone 4)) ∧
        ((∀ e ∈ s.contexts, e.2.live = true → e.2.partition ≠ p) → exec .partset s = .next (State.mailboxDone
          { s with host := { s.host with partitions := sput 0 s.host.partitions p (s.mail 0x00C 4) } } 0)))) ∧
    (waits 0x02 newOperands → (s.newGood = false → exec .ctxnew s = .next (s.mailboxDone 1)) ∧
      (s.newGood = true → (∀ c < 1024, (s.ctx c).live = true) → exec .ctxnew s = .next (s.mailboxDone 2)) ∧
      ∀ c < 1024, s.newGood = true → (s.ctx c).live = false → (∀ k < c, (s.ctx k).live = true) →
        let quotas := ((s.contexts.filter fun e => e.2.live && e.2.partition == p).map fun e => e.2.quota).foldl (· + ·) 0
        (s.partitionCapacity p < quotas + s.mail 0x018 4 → exec .ctxnew s = .next (s.mailboxDone 2)) ∧
        (quotas + s.mail 0x018 4 ≤ s.partitionCapacity p → exec .ctxnew s = .next
          ((((s.mapCtx c fun x => s.newContext.withPage x).updateSwo).putMail 0x008 (leBytes 4 c)).mailboxDone 0))) ∧
    (waits 0x03 small →
      ((s.ctx p).live = false → exec .ctxfree s = .next (s.mailboxDone 1)) ∧
      ((s.ctx p).live = true → (∃ t ∈ s.teams, t.ctx = p ∧ t.exit ≠ .gone) → exec .ctxfree s = .next (s.mailboxDone 4)) ∧
      ((s.ctx p).live = true → (∀ t ∈ s.teams, t.ctx = p → t.exit = .gone) →
        exec .ctxfree s = .next ((s.freeContext p).mailboxDone 0))) ∧
    (waits 0x04 [⟨0x008, 4, 10⟩, ⟨0x00C, 4, 10⟩] →
      let b := s.mail 0x00C 4
      ((s.ctx p).live = false ∨ (s.ctx b).live = false ∨ p = b ∨ (s.ctx p).partition ≠ (s.ctx b).partition →
        exec .ctxswap s = .next (s.mailboxDone 1)) ∧
      ((s.ctx p).live = true → (s.ctx b).live = true → p ≠ b → (s.ctx p).partition = (s.ctx b).partition → s.preempts = [] →
        exec .ctxswap s = .next { s with preempts := [{ purpose := .swap (s.ctx p).partition p b }] })) ∧
    (waits 0x05 [⟨0x008, 4, 10⟩, ⟨0x010, 8, 64⟩, ⟨0x018, 4, 2⟩] →
      (s.walked p va = .unmapped → exec .migrate s = .next (s.mailboxDone 1)) ∧
      ∀ tier l, tierOf (s.mail 0x018 4) = some tier → s.walked p va = .leaf l → (s.ctx p).live = true → entryRem l.entry = false →
        s.moves = [] → exec .migrate s = .next { s with ids := s.ids + 1, moves := [
          { id := s.ids, ctx := p, va := va, tier := tier, byHost := true, mailbox := true }] }) ∧
    (waits 0x06 [⟨0x008, 4, 20⟩] → exec .devnum s = .next (if s.hub.dnv = true then s.mailboxDone 1 else
      ({ s with hub := { s.hub with dnv := true, devnum := BitVec.ofNat 20 p } } : State).mailboxDone 0)) ∧
    (waits 0x07 [⟨0x008, 4, 11⟩, ⟨0x00C, 4, 32⟩] →
      let n := s.mail 0x00C 4
      (n = 0 ∨ 958 < n ∨ 2048 < p + n → exec .route s = .next (s.mailboxDone 1)) ∧
      (n ≠ 0 → n ≤ 958 → p + n ≤ 2048 → (∀ i < n, s.mail (0x100 + 4 * i) 4 < 2 ^ 24) →
        exec .route s = .next (((inOrder (List.range n) (fun i s' => s'.setRoute (p + i) (s.mail (0x100 + 4 * i) 4)) s).mailboxDone
          0).wakeAll))) ∧
    (waits 0x08 [⟨0x008, 32, 256⟩] →
      let m := s.attestation (s.mailBytes 0x008 32)
      let r := m ++ identitySignature m
      exec .attest s = .next ((State.putMail { s with host := { s.host with nonce := s.mailBytes 0x008 32 } } 0x100
        (r ++ List.replicate (0xEF8 - r.length) 0)).mailboxDone 0)) ∧
    (waits 0x09 [⟨0x008, 4, 32⟩] →
      let token := s.mailBytes 0x100 3373
      (p ≠ 3373 → exec .debugen s = .next (s.mailboxDone 1)) ∧
      (p = 3373 → token.take 32 = (List.range 32).map Config.identity → (token.drop 32).take 32 = s.host.nonce →
        exec .debugen s = .next (if Config.signatureValid token = true
          then ({ s with hub := { s.hub with dbgEn := true } } : State).mailboxDone 0 else s.mailboxDone 3)) ∧
      (p = 3373 → (token.drop 32).take 32 ≠ s.host.nonce → exec .debugen s = .next (s.mailboxDone 3))) ∧
    (waits 0x0A [⟨0x008, 8, 64⟩, ⟨0x010, 4, 32⟩] →
      let image := s.bytes (hostPlace (s.mail 8 8)) (s.mail 0x010 4)
      let home := s.homesOf (spanPlaces (hostPlace (s.mail 8 8)) (s.mail 0x010 4))
      (home = .failed → exec .fwload s = .next (s.mailboxDone 2)) ∧
      (home = .ready → s.imageGood image = false → exec .fwload s = .next (s.mailboxDone 3)) ∧
      (home = .ready → s.imageGood image = true → exec .fwload s = .next (State.mailboxDone { s with host := { s.host with
        staged := some image, counter := max s.host.counter (Config.imageVersion image) } } 0))) ∧
    (waits 0x0B [⟨0x008, 8, 64⟩] →
      (s.mail 8 8 % 64 ≠ 0 → exec .streport s = .next (s.mailboxDone 1)) ∧
      let r : State := { s with host := { s.host with reportTo := s.mail 8 8 } }
      (s.mail 8 8 % 64 = 0 → r.reportHome = .ready → exec .streport s = .next (r.writeReport.mailboxDone 0)) ∧
      (s.mail 8 8 % 64 = 0 → r.reportHome = .failed → exec .streport s = .next (r.mailboxDone 2))) ∧
    (waits 0x0C [⟨0x008, 4, 1⟩] →
      let when' := if p == 1 then Config.oscillator s.now else s.plat.tset
      exec .transport s = .next (({ s with plat := { s.plat with tflag := p == 1, tset := when' } } : State).mailboxDone 0)) ∧
    (s.commandWaits 0x06 = true → s.operandsGood [⟨0x008, 4, 20⟩] = false → exec .devnum s = .next (s.mailboxDone 1))

/-- R395: an answer puts its status at 0x004 and clears the doorbell, and leaves the rest of the mailbox. -/
def Sys2Proof.Machine.MailboxAnswers : Prop :=
  ∀ (s : State) (status : Nat), status < 256 → let t := s.mailboxDone status
    t.mail 4 4 = status ∧ t.mail 0xFF8 8 = 0 ∧ t = { s with host := { s.host with mailbox := t.host.mailbox } } ∧
    ∀ a, ¬(4 ≤ a ∧ a < 8) → ¬(0xFF8 ≤ a ∧ a < 0x1000) → sget 0 t.host.mailbox a = sget 0 s.host.mailbox a

/-- R37, R179, R382 to R385, R401: a host's read of device memory gives M's bytes at the home and its write changes them, with an error
response where a home has failed; FRMQRY answers; a write to the register file is aligned and reaches STCTL, the mailbox, a queue or
a context's page, or changes nothing, and is unsupported otherwise; an address that no decoder maps is a fault, and a host's access to a failed home writes no record (log 33, the
model's own). -/
def Sys2Proof.Machine.HostAccessEvents : Prop :=
  ∀ s : State,
    (∀ hpa pa n, s.decoded hpa = some pa → n ≠ 0 → deviceMemory pa n = true → (∀ i < n, s.home (pa + i) = .ready) →
      exec (.hostMemoryAccess (.read hpa n)) s =
        .next { s with host := { s.host with reads := s.bytes pa n, answer := .success } }) ∧
    (∀ hpa pa bs, s.decoded hpa = some pa → bs ≠ [] → deviceMemory pa bs.length = true →
      (∀ i < bs.length, s.home (pa + i) = .ready) →
      exec (.hostMemoryAccess (.write hpa bs)) s = .next ((s.writeBytes (placed pa bs)).wakeAll.answer .success)) ∧
    (∀ hpa pa n, s.decoded hpa = some pa → n ≠ 0 → deviceMemory pa n = true → (∃ i < n, s.home (pa + i) = .failed) →
      exec (.hostMemoryAccess (.read hpa n)) s = .next { s with host := { s.host with answer := .error } }) ∧
    (∀ hpa n, s.decoded hpa = none → exec (.hostMemoryAccess (.read hpa n)) s = .fault .noSuchAddress) ∧
    (∀ hpa, s.host.hdm0.on = true → s.host.hdm0.base.toNat ≤ hpa → hpa < s.host.hdm0.base.toNat + 2 ^ 39 →
      s.decoded hpa = some (hpa - s.host.hdm0.base.toNat)) ∧
    (∀ pa : DWord, s.plat.power = true → exec (.frmqry pa) s = .next { s with hub := { s.hub with
      frmPa := pa, frmDone := true, frmClean := !s.storesTo (pa.toNat / 4096 * 4096) 4096 } }) ∧
    (∀ value, s.plat.power = true → exec (.registerWrite 0x60 4 value) s = .next
      { s with hub := { s.hub with stctl := value.extractLsb' 0 32 &&& 0xFFFF#32 },
               host := { s.host with answer := .success } }) ∧
    (∀ offset bytes value, s.plat.power = true → bytes = 4 ∨ bytes = 8 → offset % bytes = 0 →
      (0x1000 ≤ offset → offset < 0x2000 → exec (.registerWrite offset bytes value) s =
        .next ((s.writeMail (offset - 0x1000) bytes value).answer .success)) ∧
      (0x100000 ≤ offset → offset < 0x110000 → exec (.registerWrite offset bytes value) s = .next
        ((s.writeQueue ((offset - 0x100000) / 0x40) ((offset - 0x100000) % 0x40) bytes value).answer .success)) ∧
      (0x200000 ≤ offset → offset < 0x600000 → exec (.registerWrite offset bytes value) s = .next
        ((s.writePage ((offset - 0x200000) / 0x1000) ((offset - 0x200000) % 0x1000) value).answer .success)) ∧
      (0x70 ≤ offset → offset < 0x1000 → exec (.registerWrite offset bytes value) s =
        .next { s with host := { s.host with answer := .success } })) ∧
    ∀ offset bytes value, s.plat.power = true → (bytes ≠ 4 ∧ bytes ≠ 8) ∨ offset % bytes ≠ 0 →
      exec (.registerWrite offset bytes value) s = .next { s with host := { s.host with answer := .unsupported } }

/-- R4, R6, R382, R384, R385, R400, R401, R409: what the host reads in BAR0: the hub words, the queue entries, the context pages, with
write-only bits, reserved fields and offsets without a register as zero; a read of another size or unaligned is unsupported. What a
register's bits that the rules leave open read as is log 40 (DEDUCED). -/
def Sys2Proof.Machine.RegistersReadAsTheyStand : Prop :=
  ∀ s : State,
    (∀ offset bytes, (bytes ≠ 4 ∧ bytes ≠ 8) ∨ offset % bytes ≠ 0 → s.readRegister offset bytes = none) ∧
    s.readRegister 0x00 8 = some s.hub.readyA ∧ s.readRegister 0x08 8 = some s.hub.readyB ∧
    s.readRegister 0x10 8 = some s.hub.failA ∧ s.readRegister 0x18 8 = some s.hub.failB ∧
    s.readRegister 0x20 4 = some (if s.test.frozen then 2 else 0) ∧
    s.readRegister 0x60 4 = some (s.hub.stctl.setWidth 64) ∧
    s.readRegister 0x58 4 = some (BitVec.ofNat 64 ((if s.hub.stretch then 1 else 0) + (if s.hub.quiesced then 2 else 0))) ∧
    s.readRegister 0x68 4 = some (BitVec.ofNat 64 ((if s.hub.frmDone then 1 else 0) + (if s.hub.frmClean then 2 else 0))) ∧
    (∀ q, q < 1024 → let x := s.hostQueue q
      s.readRegister (0x100000 + 0x40 * q) 8 = some x.qbase ∧
      s.readRegister (0x100000 + 0x40 * q + 0x08) 4 = some (BitVec.ofNat 64 ((if x.en then 1 else 0) + (if x.swo then 2 else 0) +
        4 * x.log2n.toNat + 256 * x.ctx.toNat)) ∧
      s.readRegister (0x100000 + 0x40 * q + 0x10) 8 = some x.kick ∧ s.readRegister (0x100000 + 0x40 * q + 0x18) 8 = some x.prog ∧
      s.readRegister (0x100000 + 0x40 * q + 0x28) 8 = some 0) ∧
    (∀ c, c < 1024 → let x := s.ctx c
      s.readRegister (0x200000 + 0x1000 * c) 4 = some (BitVec.ofNat 64 ((if x.live then 1 else 0) + (if x.halted then 2 else 0) +
        (if x.swapped then 4 else 0) + if x.debug then 8 else 0)) ∧
      s.readRegister (0x200000 + 0x1000 * c + 0x08) 4 = some 0 ∧
      s.readRegister (0x200000 + 0x1000 * c + 0x10) 4 = some (x.eqtail.setWidth 64) ∧
      s.readRegister (0x200000 + 0x1000 * c + 0x18) 4 = some (x.eqnote.setWidth 64)) ∧
    ∀ offset, 0x600000 ≤ offset → offset % 8 = 0 → s.readRegister offset 8 = some 0

/-- R179, R360, R361, R382 to R385, R395 to R397, R400 to R408: mailbox commands, host registers and host accesses. What it says
that the rules leave open is the model's choice, logs 33 and 40. -/
def Obligations.MailboxAndHostEvents : Prop := Sys2Proof.Machine.MailboxCommands ∧
  Sys2Proof.Machine.MailboxAnswers ∧
  Sys2Proof.Machine.HostAccessEvents ∧
  Sys2Proof.Machine.RegistersReadAsTheyStand

/-- R192, R194, R209, R222: what a request leaves when its bank acts on it. A store puts its bytes into the slice and nowhere else; a read
delivers the bytes of the slice to each of its lanes; an atomic writes its result over the old value, which it delivers; BINIT writes
PH 0, EXP and PEND; a true BTEST acquires the slice for its thread (log 23, DEDUCED: what a thread that has not acquired may load). The
requests that wait are tried again. -/
def Sys2Proof.Machine.RequestsTakeEffect : Prop :=
  (∀ (s : State) (o : Op) (p : Spot) (bs : List (Nat × Byte)) (t : Team), o.access = .write p bs →
    s.team? p.team = some t → ∃ (r : State) (t' : Team), s.performScratch o = r.wakeAll ∧ r.team? p.team = some t' ∧ r.mem = s.mem ∧
      r.groups = s.groups ∧ r.ops = s.ops.filter (fun x => !(x.id == o.id)) ∧ t'.buffers = t.buffers ∧ t'.store = t.store ∧
      ∀ a, sget 0 t'.slice a = ((bs.reverse.find? fun e => e.1 == a).map fun e => e.2).getD (sget 0 t.slice a)) ∧
  (∀ (s : State) (o : Op) (p : Spot) (rs : List Reading) (t : Team), o.access = .read p rs → s.team? p.team = some t →
    (∀ r ∈ rs, r.stale = none) →
    s.performScratch o = rs.foldl (fun s r => s.deliverTo o r.lane
      (placeWords r.dests (valueWords r.bytes r.signed (t.sliceNat (p.offset + r.inner) r.bytes))))
      { s with ops := s.ops.filter fun x => !(x.id == o.id) }) ∧
  (∀ (s : State) (o : Op) (p : Spot) (op control : Nat) (wide : Bool) (operand swap : DWord) (dests : List Place) (t : Team),
    o.access = .localAtomic p op control wide operand swap dests → s.team? p.team = some t →
    let n := if wide then 8 else 4
    let old := t.sliceNat p.offset n
    ∃ (r : State) (t' : Team), s.performScratch o = r.wakeAll ∧ r.team? p.team = some t' ∧ r.mem = s.mem ∧
      r.groups = (s.deliver o (placeWords dests (valueWords n false old))).groups ∧
      t'.sliceNat p.offset n = atomicResult op control (8 * n) old operand.toNat swap.toNat % 256 ^ n ∧
      ∀ a, a < p.offset ∨ p.offset + n ≤ a → sget 0 t'.slice a = sget 0 t.slice a) ∧
  (∀ (s : State) (o : Op) (p : Spot) (parity : Bool) (dests : List Place) (t : Team), o.access = .barrierTest p parity dests →
    s.team? p.team = some t →
    let gone : State := { s with ops := s.ops.filter fun x => !(x.id == o.id) }
    (t.phaseBit p.offset = parity → s.performScratch o = gone.deliver o (placeWords dests [0#32])) ∧
    (t.phaseBit p.offset ≠ parity → s.performScratch o =
      (gone.mapLane o.gid o.lane fun l => { l with stale := none }).deliver o (placeWords dests [1#32]))) ∧
  ∀ (s : State) (o : Op) (p : Spot) (count : Nat) (t : Team), o.access = .barrierInit p count → count < 65536 →
    s.team? p.team = some t → ∃ (r : State) (t' : Team), s.performScratch o = r.wakeAll ∧ r.team? p.team = some t' ∧
      t'.sliceNat p.offset 2 = count ∧ t'.sliceNat (p.offset + 2) 2 = count ∧ t'.sliceNat (p.offset + 4) 4 = 0 ∧
      ∀ a, a < p.offset ∨ p.offset + 8 ≤ a → sget 0 t'.slice a = sget 0 t.slice a

/-- R172, R173, R211, R212, R234, R254, R374: what an access leaves at its home. A .live load delivers, for each byte, the newest value of its team or
M's, and changes nothing; a global atomic writes its result over the old value, which it delivers, and no other byte; SIGNAL raises its
word to the maximum and tells the host of a registered word. A ranked contribution joins the tile of its key, waits where the slice has no
free tile, is dropped where its equal is there, and is discarded with a record where it differs; a full tile is applied to M in ascending
rank. That ADDR of the records is the place, and that a tile's key has the width of its contributions, is log 30 (DEDUCED). -/
def Sys2Proof.Machine.AccessesLeaveTheirResults : Prop :=
  (∀ (s : State) (o : Op), let gone : State := { s with ops := s.ops.filter fun x => !(x.id == o.id) }
    (∀ p known signed dests t, o.access = .live p known signed dests → s.team? o.team = some t →
      s.performAccess o = gone.deliver o (placeWords dests (valueWords known.length signed
        (leNat (known.mapIdx fun i k => k.getD (s.liveByte t (p + i))))))) ∧
    (∀ p op control wide operand swap dests, o.access = .atomic p op control wide operand swap dests →
      let n := if wide then 8 else 4
      let old := s.readNat p n
      ∃ r : State, s.performAccess o = r.wakeAll ∧ r.teams = s.teams ∧
        r.groups = (s.deliver o (placeWords dests (valueWords n false old))).groups ∧
        r.readNat p n = atomicResult op control (8 * n) old operand.toNat swap.toNat % 256 ^ n ∧
        ∀ a, a < p ∨ p + n ≤ a → r.byte a = s.byte a) ∧
    (∀ p v, o.access = .signal p v → s.performAccess o = gone.raiseWord p v.toNat) ∧
    (∀ ids value dests, o.access = .generation ids value dests → s.performAccess o = gone.deliver o (placeWords dests [value]))) ∧
  (∀ (s : State) (p v : Nat), v < 2 ^ 64 → ∃ r : State, s.raiseWord p v = r.wakeAll ∧ r.readNat p 8 = max (s.readNat p 8) v ∧
    (∀ a, a < p ∨ p + 8 ≤ a → r.byte a = s.byte a) ∧ r.groups = s.groups ∧ r.teams = s.teams ∧
    r.host.signalled = if p ∈ s.host.signalWords then s.host.signalled ++ [p] else s.host.signalled) ∧
  (∀ (s : State) (o : Op) (ctx place op control width rank count : Nat) (bytes : List (Nat × Byte)),
    let made := s.contribute o ctx place op control width rank count bytes
    let others := s.ranks.filter fun x => !(x.ctx == ctx && x.place == place && x.width == width)
    ((∀ x ∈ s.ranks, ¬(x.ctx = ctx ∧ x.place = place ∧ x.width = width)) →
      ((sliceOf place).isSome = true → 16 ≤ (s.ranks.filter fun x => sliceOf x.place == sliceOf place).length → made = s) ∧
      ((s.ranks.filter fun x => sliceOf x.place == sliceOf place).length < 16 → count ≠ 1 → ∃ r : State, made = r.wakeAll ∧
        r.ranks = s.ranks ++ [{ ctx, place, width, count, op, control, since := s.clk.toNat, parts := [(rank, bytes)],
                                ops := [o.id] }] ∧ r.mem = s.mem)) ∧
    ∀ x : RankTile, (s.ranks.find? fun x => x.ctx == ctx && x.place == place && x.width == width) = some x →
      let agrees : Prop := x.count = count ∧ x.op = op ∧ x.control = control ∧
        ∀ y ∈ x.parts, y.2.map (fun e => e.1) = bytes.map fun e => e.1
      let differs : Prop := ∃ r : State, made = r.wakeAll ∧ r.ranks = s.ranks ∧ r.mem = s.mem ∧
        ∀ t, s.team? o.team = some t → ∃ e, r.records = s.records ++ [e] ∧ e.kind = kindWord rankMismatch 0 false false ∧
          e.addr = BitVec.ofNat 64 place
      (¬agrees → differs) ∧
      (agrees → ∀ y, (x.parts.find? fun y => y.1 == rank) = some y →
        (y.2 = bytes → ∃ r : State, made = r.wakeAll ∧ r.ranks = s.ranks ∧ r.mem = s.mem ∧ r.records = s.records) ∧
        (y.2 ≠ bytes → differs)) ∧
      (agrees → (∀ y ∈ x.parts, y.1 ≠ rank) →
        let full : RankTile := { x with parts := x.parts ++ [(rank, bytes)] }
        (full.parts.length ≠ count → ∃ r : State, made = r.wakeAll ∧ r.mem = s.mem ∧
          r.ranks = others ++ [{ full with ops := x.ops ++ [o.id] }]) ∧
        (full.parts.length = count → ∃ r : State, made = r.wakeAll ∧ r.ranks = others ∧
          r.mem = (inOrder (List.range count) (fun k s => match full.parts.find? fun y => y.1 == k with
            | some y => s.applyPart op control width y.2
            | none => s) s).mem))) ∧
  (∀ (s : State) (op control width place v : Nat), op < 32 → width = 4 ∨ width = 8 → v < 256 ^ width →
    s.applyPart op control width (placed place (leBytes width v)) =
      s.writeNat place width (atomicResult op control (8 * width) (s.readNat place width) v 0)) ∧
  ∀ (s : State) (control width place v : Nat), v < 256 ^ 4 →
    s.applyPart 32 control width (placed place (leBytes 4 v)) = s.writeNat place 4 (drainSum f32 control (s.readNat place 4) v)

/-- R172 to R185, R192, R194, R207 to R212, R222, R223, R272: accesses performed and what they leave, stores entered, commits,
units and their bytes. What it says that the rules leave open is the model's choice, logs 23, 24, 30 and 44. -/
def Obligations.AccessAndPhaseEvents : Prop := Sys2Proof.Machine.AccessEvents ∧
  Sys2Proof.Machine.RequestsTakeEffect ∧
  Sys2Proof.Machine.AccessesLeaveTheirResults ∧
  Sys2Proof.Machine.PhaseEvents ∧
  Sys2Proof.Machine.UnitsWriteTheirBytes ∧
  Sys2Proof.Machine.UnitsHoldTheNewest

namespace Sys2Proof.Machine

/-- The rational number of a finite value; 0 of any other. -/
def valueNumber (v : Value) : Rat :=
  match v with
  | .fin s n d => mkRat (signed s n) d
  | _ => 0

/-- A finite value with a denominator. -/
def finiteValue (v : Value) : Prop :=
  match v with
  | .fin _ _ d => 0 < d
  | _ => False

/-- The sign of a finite value, that of a zero too. -/
def belowZero (v : Value) : Bool :=
  match v with
  | .fin s _ _ => s
  | _ => false

end Sys2Proof.Machine

/-- R300, R303: the tile after an MMA. Each element within M and N takes the blocks of its products in ascending order, one sum and one
rounding for each block of 32; every other element stands. A sum is exact, with a zero as +0; with accords the deltas are added last. -/
def Sys2Proof.Machine.MatrixProducts : Prop :=
  (∀ (tiles : Matrix) (x : Multiply) (sa sb : Slot) (o : Operands) (i j : Nat), x.m ≤ 128 → x.n ≤ 256 → i < x.m → j < x.n →
    let base := addBlocks (tiles.element x.tile i j) x.k fun k =>
      (sa.scaled o.rows o.scalesA x.k i k).mul (sb.scaled o.cols o.scalesB x.k j k)
    (x.aen = false ∨ x.last = false ∨ tiles.accord x.tile = none →
      (tiles.multiplied x sa sb o).element x.tile i j = base) ∧
    (∀ a, x.aen = true → x.last = true → tiles.accord x.tile = some a →
      (a.ids[i]?.getD 0xFFFF = 0xFFFF → (tiles.multiplied x sa sb o).element x.tile i j = base) ∧
      ∀ id, a.ids[i]? = some id → id ≠ 0xFFFF →
        (tiles.multiplied x sa sb o).element x.tile i j = oplus base ((a.accumulate x sa o).delta o.slices i id j))) ∧
  (∀ (tiles : Matrix) (x : Multiply) (sa sb : Slot) (o : Operands) (tile i j : Nat), x.aen = false → x.m ≤ 128 → x.n ≤ 256 →
    i < 128 → j < 256 → (tile ≠ x.tile ∨ x.m ≤ i ∨ x.n ≤ j) →
    (tiles.multiplied x sa sb o).element tile i j = tiles.element tile i j) ∧
  (∀ (c : Word) (p : Nat → Value), addBlocks c 0 p = c) ∧
  (∀ (c : Word) (b : Nat) (p : Nat → Value), addBlocks c (32 * (b + 1)) p =
    oplus (addBlocks c (32 * b) p) (sigma ((List.range 32).map fun i => p (32 * b + i)))) ∧
  (∀ terms : List Value, (.nan ∈ terms ∨ (.inf true ∈ terms ∧ .inf false ∈ terms)) → sigma terms = .nan) ∧
  (∀ (terms : List Value) (neg : Bool), .nan ∉ terms → .inf neg ∈ terms → .inf (!neg) ∉ terms → sigma terms = .inf neg) ∧
  (∀ terms : List Value, (∀ v ∈ terms, finiteValue v) → finiteValue (sigma terms) ∧
    valueNumber (sigma terms) = (terms.map valueNumber).foldr (fun x y => x + y) 0 ∧
    (valueNumber (sigma terms) = 0 → sigma terms = .fin false 0 1)) ∧
  (∀ (c : Word) (v : Value), (v = .nan ∨ f32.isNan c.toNat = true ∨ ∃ neg, v = .inf neg ∧ f32.decode c.toNat = .inf (!neg)) →
    oplus c v = 0x7FC00000#32) ∧
  ∀ (c : Word) (v : Value), finiteCode c.toNat → finiteValue v → ∃ w, finiteValue w ∧
    valueNumber w = valueNumber (f32.decode c.toNat) + valueNumber v ∧
    oplus c v = BitVec.ofNat 32 (f32.encode { cnan := true, foz := false, fiz := false, rm := .rne } w) ∧
    (valueNumber w = 0 → oplus c v = if f32.sign c.toNat && belowZero v then 0x80000000#32 else 0#32)

/-- R201, R265 to R281, R292, R300 to R312, R356: the steps of the engines, and the products of a matrix operation. What it says
that the rules leave open is the model's choice, logs 31, 32 and 44. -/
def Obligations.EngineAndMatrixEvents : Prop := Sys2Proof.Machine.EngineEvents ∧
  Sys2Proof.Machine.CommandsEndInOrder ∧
  Sys2Proof.Machine.MatrixEvents ∧
  Sys2Proof.Machine.MatrixProducts ∧
  Sys2Proof.Machine.OperationsEndInOrder

/-- R204, R275, R311, R346: what a rollback of one team restores. The buffer, the tags, the queues and the tiles are empty, every
sequence number stands at the commit's; a group of the phase record is as the record has it, with lo at fp, nothing outstanding and
the frozen copy current; what a debugger has halted stays halted, and the AINVs that have been issued stand; the team's keys stay held, and an ember of its priority stands for the relaunch, away from the sector of the
error where there is another. A team without a phase record, or whose exit commit has taken place, stays as it is. -/
def Sys2Proof.Machine.RollbackRestores : Prop :=
  (∀ (s : State) (tid erring : Nat) (t : Team) (ph : PhaseRecord), s.team? tid = some t → t.phase = some ph →
    (t.exit = .running ∨ t.exit = .ending) →
    (∃ t' : Team, (s.rollbackTeam tid erring).team? tid = some t' ∧ t'.store = [] ∧ t'.overflow = [] ∧ t'.tags = [] ∧
      t'.relaunch = true ∧ t'.exit = .running ∧ t'.keys = t.keys ∧ t'.slice = t.slice ∧ t'.phase = t.phase ∧
      t'.matrix.queue = [] ∧ t'.matrix.shadow = [] ∧ t'.matrix.lines = [] ∧ t'.matrix.tiles = [] ∧ t'.matrix.accords = [] ∧
      t'.matrix.seqa = ph.seqas.getD 5 0 ∧ t'.matrix.seqc = ph.seqas.getD 5 0 ∧
      (∀ q < 5, (t'.engine q).queue = [] ∧ (t'.engine q).shadow = [] ∧ (t'.engine q).lines = [] ∧ (t'.engine q).seqa = ph.seqas.getD q 0 ∧
        (t'.engine q).seqc = ph.seqas.getD q 0 ∧ (t'.engine q).crcr = 0xFFFFFFFF#32) ∧
      (swf 0 ph.buffers = true → ∀ n, t'.buffer n = emptied (sget 0 ph.buffers n))) ∧
    (∀ g ∈ (s.rollbackTeam tid erring).groups, g.team = tid → ∀ p, ph.groups.find? (fun p => p.id == g.id) = some p →
      g.resident = false ∧ g.current = g.frozen ∧ (∃ now ∈ s.groups, now.id = g.id ∧ g.frozen = now.frozen ∧ g.halted = now.halted) ∧
      ∀ j < 32, (g.lane j).pc = (p.lane j).pc ∧ (g.lane j).fp = (p.lane j).fp ∧ (g.lane j).lo = (p.lane j).fp ∧
        (g.lane j).ring = (p.lane j).ring ∧ (g.lane j).pend = [] ∧ (g.lane j).preds = (p.lane j).preds) ∧
    (s.rollbackTeam tid erring).ops = s.ops.filter (fun o => !(o.team == tid) || (match o.access with
      | .accordDrop _ _ _ _ => true
      | _ => false)) ∧
    (∀ (t' : Team) (b : Nat) (d : DWord), (s.rollbackTeam tid erring).team? t'.id = some t' → (b, d) ∈ t'.buffers →
      d.getLsbD 26 = true → ∃ x ∈ (s.rollbackTeam tid erring).teams, (∃ q ∈ x.engines, ∃ c ∈ q.2.queue, (t'.id, b) ∈ c.holds) ∨
        ∃ m ∈ x.matrix.queue, (t'.id, b) ∈ m.holds) ∧
    (∃ e ∈ (s.rollbackTeam tid erring).embers, e.kind = .relaunch tid ∧ e.ctx = t.ctx ∧ e.pri = t.pri ∧
      ((∃ n ∈ s.partitionSectors (s.ctx t.ctx).partition, n ≠ erring) →
        e.sector ∈ s.partitionSectors (s.ctx t.ctx).partition ∧ e.sector ≠ erring) ∧
      ((∀ n ∈ s.partitionSectors (s.ctx t.ctx).partition, n = erring) → e.sector = erring)) ∧
    ∀ g ∈ s.groups, g.team ≠ tid → g ∈ (s.rollbackTeam tid erring).groups) ∧
  (∀ (s : State) (tid erring : Nat) (t : Team), s.team? tid = some t →
    (t.phase = none ∨ (t.exit ≠ .running ∧ t.exit ≠ .ending)) → s.rollbackTeam tid erring = s) ∧
  ∀ (d : DWord) (i : Nat), (emptied d).getLsbD i = (d.getLsbD i && !(decide (30 ≤ i ∧ i ≤ 51) || i == 26))

/-- R169, R170, R204, R275, R311, R346, R357, R359, R362, R363: page moves, tests, pre-emption, the swap of contexts, and what a
rollback restores. What it says that the rules leave open is the model's choice, logs 36, 37 and 41. -/
def Obligations.MigrationAndTestEvents : Prop := Sys2Proof.Machine.MigrationAndTestEvents ∧
  Sys2Proof.Machine.MovesKeepContents ∧
  Sys2Proof.Machine.RollbackRestores
end

