-- ==== Sys2Proof/Laws/Sparse.lean ====
section
/-! SUPPORT. The laws of data held by number: a read after a write, and the canonical form kept. -/

namespace Sys2Proof.Machine

variable {α : Type} {d : α}

@[simp] theorem sget_nil (d : α) (k : Nat) : sget d [] k = d := rfl

@[simp] theorem sget_cons (d : α) (e : Nat × α) (r : Sparse α) (k : Nat) :
    sget d (e :: r) k = if e.1 = k then e.2 else sget d r k := rfl

theorem sdrop_cons (e : Nat × α) (r : Sparse α) (k : Nat) :
    sdrop (e :: r) k = if e.1 = k then sdrop r k else e :: sdrop r k := by
  unfold sdrop
  by_cases h : e.1 = k <;> simp [h]

theorem sget_sdrop_same (m : Sparse α) (k : Nat) : sget d (sdrop m k) k = d := by
  induction m with
  | nil => rfl
  | cons e r ih =>
    rw [sdrop_cons]
    by_cases h : e.1 = k
    · simpa [h] using ih
    · simpa [h] using ih

theorem sget_sdrop_other (m : Sparse α) {k j : Nat} (h : j ≠ k) : sget d (sdrop m k) j = sget d m j := by
  induction m with
  | nil => rfl
  | cons e r ih =>
    rw [sdrop_cons]
    by_cases hk : e.1 = k
    · have : e.1 ≠ j := fun hj => h (hj ▸ hk)
      simp [hk, ih, Ne.symm h]
    · rw [if_neg hk, sget_cons, sget_cons, ih]

/-- A key that a map does not list. -/
theorem sget_sinsert (m : Sparse α) (k j : Nat) (v : α) (hk : ∀ e ∈ m, e.1 ≠ k) :
    sget d (sinsert m k v) j = if k = j then v else sget d m j := by
  induction m with
  | nil => simp [sinsert]
  | cons e r ih =>
    obtain ⟨k', v'⟩ := e
    have hne : k' ≠ k := hk _ (List.mem_cons_self ..)
    unfold sinsert
    by_cases hlt : k < k'
    · simp only [hlt, if_true]
      rfl
    · simp only [hlt, if_false, sget_cons, ih fun e he => hk e (List.mem_cons_of_mem _ he)]
      by_cases hj : k' = j
      · simp [hj, show k ≠ j from fun h => hne (hj.trans h.symm)]
      · simp [hj]

theorem not_mem_sdrop (m : Sparse α) (k : Nat) : ∀ e ∈ sdrop m k, e.1 ≠ k := by
  intro e he
  unfold sdrop at he
  simp at he
  exact he.2

variable [DecidableEq α]

/-- A read after a write to the same key. -/
@[simp] theorem sget_sput_same (m : Sparse α) (k : Nat) (v : α) : sget d (sput d m k v) k = v := by
  unfold sput
  by_cases h : v = d
  · simp [h, sget_sdrop_same]
  · simp [h, sget_sinsert _ _ _ _ (not_mem_sdrop m k)]

/-- A write leaves every other key alone. -/
theorem sget_sput_other (m : Sparse α) {k j : Nat} (v : α) (h : j ≠ k) : sget d (sput d m k v) j = sget d m j := by
  unfold sput
  by_cases hv : v = d
  · simp [hv, sget_sdrop_other m h]
  · simp [hv, sget_sinsert _ _ _ _ (not_mem_sdrop m k), Ne.symm h, sget_sdrop_other m h]

/-- A read after a write. -/
theorem sget_sput (m : Sparse α) (k j : Nat) (v : α) : sget d (sput d m k v) j = if j = k then v else sget d m j := by
  by_cases h : j = k
  · simp [h]
  · simp [h, sget_sput_other m v h]

/-! ## The canonical form -/

theorem swf_cons (e : Nat × α) (r : Sparse α) :
    swf d (e :: r) = true ↔ e.2 ≠ d ∧ above e.1 r = true ∧ swf d r = true := by
  obtain ⟨k, v⟩ := e
  simp [swf, and_assoc]

theorem above_sdrop {k : Nat} (r : Sparse α) (hr : swf d r = true) (h : above k r = true) (x : Nat) :
    above k (sdrop r x) = true := by
  induction r with
  | nil => rfl
  | cons e t ih =>
    rw [sdrop_cons]
    have hc := (swf_cons e t).1 hr
    by_cases hx : e.1 = x
    · simp only [hx, if_true]
      apply ih hc.2.2
      cases t with
      | nil => rfl
      | cons e2 t2 =>
        have h1 : k < e.1 := by simpa [above] using h
        have h2 : e.1 < e2.1 := by simpa [above] using hc.2.1
        simpa [above] using Nat.lt_trans h1 h2
    · simpa [hx, above] using h

theorem swf_sdrop (m : Sparse α) (k : Nat) (h : swf d m = true) : swf d (sdrop m k) = true := by
  induction m with
  | nil => rfl
  | cons e r ih =>
    have hc := (swf_cons e r).1 h
    rw [sdrop_cons]
    by_cases hk : e.1 = k
    · simpa [hk] using ih hc.2.2
    · simp only [hk, if_false]
      exact (swf_cons _ _).2 ⟨hc.1, above_sdrop r hc.2.2 hc.2.1 k, ih hc.2.2⟩

omit [DecidableEq α] in
theorem above_sinsert {x : Nat} (m : Sparse α) (k : Nat) (v : α) (hx : x < k) (h : above x m = true) :
    above x (sinsert m k v) = true := by
  cases m with
  | nil => simpa [sinsert, above] using hx
  | cons e r =>
    obtain ⟨k', v'⟩ := e
    unfold sinsert
    split
    · simpa [above] using hx
    · simpa [above] using h

theorem swf_sinsert (m : Sparse α) (k : Nat) (v : α) (hv : v ≠ d) (hk : ∀ e ∈ m, e.1 ≠ k) (h : swf d m = true) :
    swf d (sinsert m k v) = true := by
  induction m with
  | nil => simp [sinsert, swf, above, hv]
  | cons e r ih =>
    obtain ⟨k', v'⟩ := e
    have hc := (swf_cons _ _).1 h
    have hne : k' ≠ k := hk _ (List.mem_cons_self ..)
    unfold sinsert
    by_cases hlt : k < k'
    · simp only [hlt, if_true]
      refine (swf_cons _ _).2 ⟨hv, ?_, h⟩
      simpa [above] using hlt
    · simp only [hlt, if_false]
      refine (swf_cons _ _).2 ⟨hc.1, ?_, ih (fun e he => hk e (List.mem_cons_of_mem _ he)) hc.2.2⟩
      exact above_sinsert r k v (by omega) hc.2.1

/-- A write keeps the canonical form. -/
theorem swf_sput (m : Sparse α) (k : Nat) (v : α) (h : swf d m = true) : swf d (sput d m k v) = true := by
  unfold sput
  by_cases hv : v = d
  · simpa [hv] using swf_sdrop m k h
  · simpa [hv] using swf_sinsert _ k v hv (not_mem_sdrop m k) (swf_sdrop m k h)

/-- Writes in order keep the canonical form. -/
theorem swf_sputAll (es : List (Nat × α)) : ∀ m : Sparse α, swf d m = true → swf d (sputAll d m es) = true := by
  unfold sputAll
  induction es with
  | nil => exact fun m h => h
  | cons e r ih => exact fun m h => ih _ (swf_sput m e.1 e.2 h)

theorem sputAll_cons (m : Sparse α) (e : Nat × α) (es : List (Nat × α)) :
    sputAll d m (e :: es) = sputAll d (sput d m e.1 e.2) es := rfl

/-- Writes leave a key alone that none of them names. -/
theorem sget_sputAll_other (es : List (Nat × α)) (k : Nat) :
    ∀ m : Sparse α, (∀ e ∈ es, e.1 ≠ k) → sget d (sputAll d m es) k = sget d m k := by
  induction es with
  | nil => exact fun m _ => rfl
  | cons e r ih =>
    intro m h
    rw [sputAll_cons, ih _ fun e he => h e (List.mem_cons_of_mem _ he)]
    exact sget_sput_other m e.2 (Ne.symm (h e (List.mem_cons_self ..)))

theorem above_filter {k : Nat} (p : Nat × α → Bool) (r : Sparse α) (hr : swf d r = true) (h : above k r = true) :
    above k (r.filter p) = true := by
  induction r with
  | nil => rfl
  | cons e t ih =>
    have hc := (swf_cons e t).1 hr
    rw [List.filter_cons]
    by_cases hp : p e
    · simpa [hp, above] using h
    · simp only [hp]
      apply ih hc.2.2
      cases t with
      | nil => rfl
      | cons e2 t2 =>
        have h1 : k < e.1 := by simpa [above] using h
        have h2 : e.1 < e2.1 := by simpa [above] using hc.2.1
        simpa [above] using Nat.lt_trans h1 h2

/-- A part of a map in canonical form is in canonical form. -/
theorem swf_filter (p : Nat × α → Bool) (m : Sparse α) (h : swf d m = true) : swf d (m.filter p) = true := by
  induction m with
  | nil => rfl
  | cons e r ih =>
    have hc := (swf_cons e r).1 h
    rw [List.filter_cons]
    by_cases hp : p e
    · simp only [hp, if_true]
      exact (swf_cons _ _).2 ⟨hc.1, above_filter p r hc.2.2 hc.2.1, ih hc.2.2⟩
    · simpa [hp] using ih hc.2.2

theorem sget_of_above {k : Nat} (r : Sparse α) (hr : swf d r = true) (h : above k r = true) : sget d r k = d := by
  induction r with
  | nil => rfl
  | cons e t ih =>
    have hc := (swf_cons e t).1 hr
    have h1 : k < e.1 := by simpa [above] using h
    rw [sget_cons, if_neg (by omega)]
    apply ih hc.2.2
    cases t with
    | nil => rfl
    | cons e2 t2 =>
      have h2 : e.1 < e2.1 := by simpa [above] using hc.2.1
      simpa [above] using Nat.lt_trans h1 h2

theorem swf_lt_cons (e : Nat × α) (r : Sparse α) (h : swf d (e :: r) = true) (k : Nat) (hk : k ≤ e.1) : sget d r k = d := by
  have hc := (swf_cons e r).1 h
  apply sget_of_above r hc.2.2
  cases r with
  | nil => rfl
  | cons e2 t =>
    have h2 : e.1 < e2.1 := by simpa [above] using hc.2.1
    simpa [above] using Nat.lt_of_le_of_lt hk h2

/-- Maps in canonical form that read alike are the same data. -/
theorem swf_ext : ∀ {m n : Sparse α}, swf d m = true → swf d n = true → (∀ k, sget d m k = sget d n k) → m = n
  | [], [], _, _, _ => rfl
  | [], e :: r, _, hn, h => by
    have := h e.1
    simp [sget_cons] at this
    exact absurd this.symm ((swf_cons e r).1 hn).1
  | e :: r, [], hm, _, h => by
    have := h e.1
    simp [sget_cons] at this
    exact absurd this ((swf_cons e r).1 hm).1
  | e :: r, x :: t, hm, hn, h => by
    have ce := (swf_cons e r).1 hm
    have cx := (swf_cons x t).1 hn
    have hk : e.1 = x.1 := by
      rcases Nat.lt_trichotomy e.1 x.1 with hlt | heq | hgt
      · have := h e.1
        rw [sget_cons, if_pos rfl, sget_cons, if_neg (by omega), swf_lt_cons x t hn e.1 (by omega)] at this
        exact absurd this ce.1
      · exact heq
      · have := h x.1
        rw [sget_cons, if_neg (by omega), sget_cons, if_pos rfl, swf_lt_cons e r hm x.1 (by omega)] at this
        exact absurd this.symm cx.1
    have hv : e.2 = x.2 := by
      have := h e.1
      rwa [sget_cons, if_pos rfl, sget_cons, if_pos hk.symm] at this
    have hr : r = t := by
      apply swf_ext ce.2.2 cx.2.2
      intro k
      have := h k
      rw [sget_cons, sget_cons, hk] at this
      by_cases hx : x.1 = k
      · rw [swf_lt_cons e r hm k (by omega), swf_lt_cons x t hn k (by omega)]
      · simpa [hx] using this
    obtain ⟨a, b⟩ := e
    obtain ⟨a', b'⟩ := x
    simp_all

end Sys2Proof.Machine
end

