-- ==== Sys2Proof/Laws/State.lean ====
section
/-! SUPPORT. The laws of the state's updates: what each leaves as it was, and what it changes. -/

namespace Sys2Proof.Machine

/-! ## mapGroup -/

@[simp] theorem State.mapGroup_agenda (s : State) (gid : Nat) (f : Group → Group) : (s.mapGroup gid f).agenda = s.agenda := rfl
@[simp] theorem State.mapGroup_turn (s : State) (gid : Nat) (f : Group → Group) : (s.mapGroup gid f).turn = s.turn := rfl
@[simp] theorem State.mapGroup_lastQuarter (s : State) (gid : Nat) (f : Group → Group) : (s.mapGroup gid f).lastQuarter = s.lastQuarter := rfl
@[simp] theorem State.mapGroup_tapIn (s : State) (gid : Nat) (f : Group → Group) : (s.mapGroup gid f).tapIn = s.tapIn := rfl
@[simp] theorem State.mapGroup_now (s : State) (gid : Nat) (f : Group → Group) : (s.mapGroup gid f).now = s.now := rfl
@[simp] theorem State.mapGroup_real (s : State) (gid : Nat) (f : Group → Group) : (s.mapGroup gid f).real = s.real := rfl
@[simp] theorem State.mapGroup_ids (s : State) (gid : Nat) (f : Group → Group) : (s.mapGroup gid f).ids = s.ids := rfl
@[simp] theorem State.mapGroup_issue (s : State) (gid : Nat) (f : Group → Group) : (s.mapGroup gid f).issue = s.issue := rfl
@[simp] theorem State.mapGroup_clk (s : State) (gid : Nat) (f : Group → Group) : (s.mapGroup gid f).clk = s.clk := rfl
@[simp] theorem State.mapGroup_mem (s : State) (gid : Nat) (f : Group → Group) : (s.mapGroup gid f).mem = s.mem := rfl
@[simp] theorem State.mapGroup_teams (s : State) (gid : Nat) (f : Group → Group) : (s.mapGroup gid f).teams = s.teams := rfl
@[simp] theorem State.mapGroup_clusters (s : State) (gid : Nat) (f : Group → Group) : (s.mapGroup gid f).clusters = s.clusters := rfl
@[simp] theorem State.mapGroup_instances (s : State) (gid : Nat) (f : Group → Group) : (s.mapGroup gid f).instances = s.instances := rfl
@[simp] theorem State.mapGroup_contexts (s : State) (gid : Nat) (f : Group → Group) : (s.mapGroup gid f).contexts = s.contexts := rfl
@[simp] theorem State.mapGroup_generations (s : State) (gid : Nat) (f : Group → Group) : (s.mapGroup gid f).generations = s.generations := rfl
@[simp] theorem State.mapGroup_cores (s : State) (gid : Nat) (f : Group → Group) : (s.mapGroup gid f).cores = s.cores := rfl
@[simp] theorem State.mapGroup_sectors (s : State) (gid : Nat) (f : Group → Group) : (s.mapGroup gid f).sectors = s.sectors := rfl
@[simp] theorem State.mapGroup_ops (s : State) (gid : Nat) (f : Group → Group) : (s.mapGroup gid f).ops = s.ops := rfl
@[simp] theorem State.mapGroup_queue (s : State) (gid : Nat) (f : Group → Group) : (s.mapGroup gid f).queue = s.queue := rfl
@[simp] theorem State.mapGroup_sent (s : State) (gid : Nat) (f : Group → Group) : (s.mapGroup gid f).sent = s.sent := rfl
@[simp] theorem State.mapGroup_remoteQueues (s : State) (gid : Nat) (f : Group → Group) : (s.mapGroup gid f).remoteQueues = s.remoteQueues := rfl
@[simp] theorem State.mapGroup_ranks (s : State) (gid : Nat) (f : Group → Group) : (s.mapGroup gid f).ranks = s.ranks := rfl
@[simp] theorem State.mapGroup_embers (s : State) (gid : Nat) (f : Group → Group) : (s.mapGroup gid f).embers = s.embers := rfl
@[simp] theorem State.mapGroup_keys (s : State) (gid : Nat) (f : Group → Group) : (s.mapGroup gid f).keys = s.keys := rfl
@[simp] theorem State.mapGroup_releases (s : State) (gid : Nat) (f : Group → Group) : (s.mapGroup gid f).releases = s.releases := rfl
@[simp] theorem State.mapGroup_records (s : State) (gid : Nat) (f : Group → Group) : (s.mapGroup gid f).records = s.records := rfl
@[simp] theorem State.mapGroup_moves (s : State) (gid : Nat) (f : Group → Group) : (s.mapGroup gid f).moves = s.moves := rfl
@[simp] theorem State.mapGroup_holds (s : State) (gid : Nat) (f : Group → Group) : (s.mapGroup gid f).holds = s.holds := rfl
@[simp] theorem State.mapGroup_preempts (s : State) (gid : Nat) (f : Group → Group) : (s.mapGroup gid f).preempts = s.preempts := rfl
@[simp] theorem State.mapGroup_samples (s : State) (gid : Nat) (f : Group → Group) : (s.mapGroup gid f).samples = s.samples := rfl
@[simp] theorem State.mapGroup_aways (s : State) (gid : Nat) (f : Group → Group) : (s.mapGroup gid f).aways = s.aways := rfl
@[simp] theorem State.mapGroup_ports (s : State) (gid : Nat) (f : Group → Group) : (s.mapGroup gid f).ports = s.ports := rfl
@[simp] theorem State.mapGroup_routes (s : State) (gid : Nat) (f : Group → Group) : (s.mapGroup gid f).routes = s.routes := rfl
@[simp] theorem State.mapGroup_ownRoutes (s : State) (gid : Nat) (f : Group → Group) : (s.mapGroup gid f).ownRoutes = s.ownRoutes := rfl
@[simp] theorem State.mapGroup_hub (s : State) (gid : Nat) (f : Group → Group) : (s.mapGroup gid f).hub = s.hub := rfl
@[simp] theorem State.mapGroup_test (s : State) (gid : Nat) (f : Group → Group) : (s.mapGroup gid f).test = s.test := rfl
@[simp] theorem State.mapGroup_host (s : State) (gid : Nat) (f : Group → Group) : (s.mapGroup gid f).host = s.host := rfl
@[simp] theorem State.mapGroup_plat (s : State) (gid : Nat) (f : Group → Group) : (s.mapGroup gid f).plat = s.plat := rfl

/-! ## mapGroups -/

@[simp] theorem State.mapGroups_agenda (s : State) (f : Group → Group) : (s.mapGroups f).agenda = s.agenda := rfl
@[simp] theorem State.mapGroups_turn (s : State) (f : Group → Group) : (s.mapGroups f).turn = s.turn := rfl
@[simp] theorem State.mapGroups_lastQuarter (s : State) (f : Group → Group) : (s.mapGroups f).lastQuarter = s.lastQuarter := rfl
@[simp] theorem State.mapGroups_tapIn (s : State) (f : Group → Group) : (s.mapGroups f).tapIn = s.tapIn := rfl
@[simp] theorem State.mapGroups_now (s : State) (f : Group → Group) : (s.mapGroups f).now = s.now := rfl
@[simp] theorem State.mapGroups_real (s : State) (f : Group → Group) : (s.mapGroups f).real = s.real := rfl
@[simp] theorem State.mapGroups_ids (s : State) (f : Group → Group) : (s.mapGroups f).ids = s.ids := rfl
@[simp] theorem State.mapGroups_issue (s : State) (f : Group → Group) : (s.mapGroups f).issue = s.issue := rfl
@[simp] theorem State.mapGroups_clk (s : State) (f : Group → Group) : (s.mapGroups f).clk = s.clk := rfl
@[simp] theorem State.mapGroups_mem (s : State) (f : Group → Group) : (s.mapGroups f).mem = s.mem := rfl
@[simp] theorem State.mapGroups_teams (s : State) (f : Group → Group) : (s.mapGroups f).teams = s.teams := rfl
@[simp] theorem State.mapGroups_clusters (s : State) (f : Group → Group) : (s.mapGroups f).clusters = s.clusters := rfl
@[simp] theorem State.mapGroups_instances (s : State) (f : Group → Group) : (s.mapGroups f).instances = s.instances := rfl
@[simp] theorem State.mapGroups_contexts (s : State) (f : Group → Group) : (s.mapGroups f).contexts = s.contexts := rfl
@[simp] theorem State.mapGroups_generations (s : State) (f : Group → Group) : (s.mapGroups f).generations = s.generations := rfl
@[simp] theorem State.mapGroups_cores (s : State) (f : Group → Group) : (s.mapGroups f).cores = s.cores := rfl
@[simp] theorem State.mapGroups_sectors (s : State) (f : Group → Group) : (s.mapGroups f).sectors = s.sectors := rfl
@[simp] theorem State.mapGroups_ops (s : State) (f : Group → Group) : (s.mapGroups f).ops = s.ops := rfl
@[simp] theorem State.mapGroups_queue (s : State) (f : Group → Group) : (s.mapGroups f).queue = s.queue := rfl
@[simp] theorem State.mapGroups_sent (s : State) (f : Group → Group) : (s.mapGroups f).sent = s.sent := rfl
@[simp] theorem State.mapGroups_remoteQueues (s : State) (f : Group → Group) : (s.mapGroups f).remoteQueues = s.remoteQueues := rfl
@[simp] theorem State.mapGroups_ranks (s : State) (f : Group → Group) : (s.mapGroups f).ranks = s.ranks := rfl
@[simp] theorem State.mapGroups_embers (s : State) (f : Group → Group) : (s.mapGroups f).embers = s.embers := rfl
@[simp] theorem State.mapGroups_keys (s : State) (f : Group → Group) : (s.mapGroups f).keys = s.keys := rfl
@[simp] theorem State.mapGroups_releases (s : State) (f : Group → Group) : (s.mapGroups f).releases = s.releases := rfl
@[simp] theorem State.mapGroups_records (s : State) (f : Group → Group) : (s.mapGroups f).records = s.records := rfl
@[simp] theorem State.mapGroups_moves (s : State) (f : Group → Group) : (s.mapGroups f).moves = s.moves := rfl
@[simp] theorem State.mapGroups_holds (s : State) (f : Group → Group) : (s.mapGroups f).holds = s.holds := rfl
@[simp] theorem State.mapGroups_preempts (s : State) (f : Group → Group) : (s.mapGroups f).preempts = s.preempts := rfl
@[simp] theorem State.mapGroups_samples (s : State) (f : Group → Group) : (s.mapGroups f).samples = s.samples := rfl
@[simp] theorem State.mapGroups_aways (s : State) (f : Group → Group) : (s.mapGroups f).aways = s.aways := rfl
@[simp] theorem State.mapGroups_ports (s : State) (f : Group → Group) : (s.mapGroups f).ports = s.ports := rfl
@[simp] theorem State.mapGroups_routes (s : State) (f : Group → Group) : (s.mapGroups f).routes = s.routes := rfl
@[simp] theorem State.mapGroups_ownRoutes (s : State) (f : Group → Group) : (s.mapGroups f).ownRoutes = s.ownRoutes := rfl
@[simp] theorem State.mapGroups_hub (s : State) (f : Group → Group) : (s.mapGroups f).hub = s.hub := rfl
@[simp] theorem State.mapGroups_test (s : State) (f : Group → Group) : (s.mapGroups f).test = s.test := rfl
@[simp] theorem State.mapGroups_host (s : State) (f : Group → Group) : (s.mapGroups f).host = s.host := rfl
@[simp] theorem State.mapGroups_plat (s : State) (f : Group → Group) : (s.mapGroups f).plat = s.plat := rfl

/-! ## mapLane -/

@[simp] theorem State.mapLane_agenda (s : State) (gid j : Nat) (f : Lane → Lane) : (s.mapLane gid j f).agenda = s.agenda := rfl
@[simp] theorem State.mapLane_turn (s : State) (gid j : Nat) (f : Lane → Lane) : (s.mapLane gid j f).turn = s.turn := rfl
@[simp] theorem State.mapLane_lastQuarter (s : State) (gid j : Nat) (f : Lane → Lane) : (s.mapLane gid j f).lastQuarter = s.lastQuarter := rfl
@[simp] theorem State.mapLane_tapIn (s : State) (gid j : Nat) (f : Lane → Lane) : (s.mapLane gid j f).tapIn = s.tapIn := rfl
@[simp] theorem State.mapLane_now (s : State) (gid j : Nat) (f : Lane → Lane) : (s.mapLane gid j f).now = s.now := rfl
@[simp] theorem State.mapLane_real (s : State) (gid j : Nat) (f : Lane → Lane) : (s.mapLane gid j f).real = s.real := rfl
@[simp] theorem State.mapLane_ids (s : State) (gid j : Nat) (f : Lane → Lane) : (s.mapLane gid j f).ids = s.ids := rfl
@[simp] theorem State.mapLane_issue (s : State) (gid j : Nat) (f : Lane → Lane) : (s.mapLane gid j f).issue = s.issue := rfl
@[simp] theorem State.mapLane_clk (s : State) (gid j : Nat) (f : Lane → Lane) : (s.mapLane gid j f).clk = s.clk := rfl
@[simp] theorem State.mapLane_mem (s : State) (gid j : Nat) (f : Lane → Lane) : (s.mapLane gid j f).mem = s.mem := rfl
@[simp] theorem State.mapLane_teams (s : State) (gid j : Nat) (f : Lane → Lane) : (s.mapLane gid j f).teams = s.teams := rfl
@[simp] theorem State.mapLane_clusters (s : State) (gid j : Nat) (f : Lane → Lane) : (s.mapLane gid j f).clusters = s.clusters := rfl
@[simp] theorem State.mapLane_instances (s : State) (gid j : Nat) (f : Lane → Lane) : (s.mapLane gid j f).instances = s.instances := rfl
@[simp] theorem State.mapLane_contexts (s : State) (gid j : Nat) (f : Lane → Lane) : (s.mapLane gid j f).contexts = s.contexts := rfl
@[simp] theorem State.mapLane_generations (s : State) (gid j : Nat) (f : Lane → Lane) : (s.mapLane gid j f).generations = s.generations := rfl
@[simp] theorem State.mapLane_cores (s : State) (gid j : Nat) (f : Lane → Lane) : (s.mapLane gid j f).cores = s.cores := rfl
@[simp] theorem State.mapLane_sectors (s : State) (gid j : Nat) (f : Lane → Lane) : (s.mapLane gid j f).sectors = s.sectors := rfl
@[simp] theorem State.mapLane_ops (s : State) (gid j : Nat) (f : Lane → Lane) : (s.mapLane gid j f).ops = s.ops := rfl
@[simp] theorem State.mapLane_queue (s : State) (gid j : Nat) (f : Lane → Lane) : (s.mapLane gid j f).queue = s.queue := rfl
@[simp] theorem State.mapLane_sent (s : State) (gid j : Nat) (f : Lane → Lane) : (s.mapLane gid j f).sent = s.sent := rfl
@[simp] theorem State.mapLane_remoteQueues (s : State) (gid j : Nat) (f : Lane → Lane) : (s.mapLane gid j f).remoteQueues = s.remoteQueues := rfl
@[simp] theorem State.mapLane_ranks (s : State) (gid j : Nat) (f : Lane → Lane) : (s.mapLane gid j f).ranks = s.ranks := rfl
@[simp] theorem State.mapLane_embers (s : State) (gid j : Nat) (f : Lane → Lane) : (s.mapLane gid j f).embers = s.embers := rfl
@[simp] theorem State.mapLane_keys (s : State) (gid j : Nat) (f : Lane → Lane) : (s.mapLane gid j f).keys = s.keys := rfl
@[simp] theorem State.mapLane_releases (s : State) (gid j : Nat) (f : Lane → Lane) : (s.mapLane gid j f).releases = s.releases := rfl
@[simp] theorem State.mapLane_records (s : State) (gid j : Nat) (f : Lane → Lane) : (s.mapLane gid j f).records = s.records := rfl
@[simp] theorem State.mapLane_moves (s : State) (gid j : Nat) (f : Lane → Lane) : (s.mapLane gid j f).moves = s.moves := rfl
@[simp] theorem State.mapLane_holds (s : State) (gid j : Nat) (f : Lane → Lane) : (s.mapLane gid j f).holds = s.holds := rfl
@[simp] theorem State.mapLane_preempts (s : State) (gid j : Nat) (f : Lane → Lane) : (s.mapLane gid j f).preempts = s.preempts := rfl
@[simp] theorem State.mapLane_samples (s : State) (gid j : Nat) (f : Lane → Lane) : (s.mapLane gid j f).samples = s.samples := rfl
@[simp] theorem State.mapLane_aways (s : State) (gid j : Nat) (f : Lane → Lane) : (s.mapLane gid j f).aways = s.aways := rfl
@[simp] theorem State.mapLane_ports (s : State) (gid j : Nat) (f : Lane → Lane) : (s.mapLane gid j f).ports = s.ports := rfl
@[simp] theorem State.mapLane_routes (s : State) (gid j : Nat) (f : Lane → Lane) : (s.mapLane gid j f).routes = s.routes := rfl
@[simp] theorem State.mapLane_ownRoutes (s : State) (gid j : Nat) (f : Lane → Lane) : (s.mapLane gid j f).ownRoutes = s.ownRoutes := rfl
@[simp] theorem State.mapLane_hub (s : State) (gid j : Nat) (f : Lane → Lane) : (s.mapLane gid j f).hub = s.hub := rfl
@[simp] theorem State.mapLane_test (s : State) (gid j : Nat) (f : Lane → Lane) : (s.mapLane gid j f).test = s.test := rfl
@[simp] theorem State.mapLane_host (s : State) (gid j : Nat) (f : Lane → Lane) : (s.mapLane gid j f).host = s.host := rfl
@[simp] theorem State.mapLane_plat (s : State) (gid j : Nat) (f : Lane → Lane) : (s.mapLane gid j f).plat = s.plat := rfl

/-! ## mapTeam -/

@[simp] theorem State.mapTeam_agenda (s : State) (tid : Nat) (f : Team → Team) : (s.mapTeam tid f).agenda = s.agenda := rfl
@[simp] theorem State.mapTeam_turn (s : State) (tid : Nat) (f : Team → Team) : (s.mapTeam tid f).turn = s.turn := rfl
@[simp] theorem State.mapTeam_lastQuarter (s : State) (tid : Nat) (f : Team → Team) : (s.mapTeam tid f).lastQuarter = s.lastQuarter := rfl
@[simp] theorem State.mapTeam_tapIn (s : State) (tid : Nat) (f : Team → Team) : (s.mapTeam tid f).tapIn = s.tapIn := rfl
@[simp] theorem State.mapTeam_now (s : State) (tid : Nat) (f : Team → Team) : (s.mapTeam tid f).now = s.now := rfl
@[simp] theorem State.mapTeam_real (s : State) (tid : Nat) (f : Team → Team) : (s.mapTeam tid f).real = s.real := rfl
@[simp] theorem State.mapTeam_ids (s : State) (tid : Nat) (f : Team → Team) : (s.mapTeam tid f).ids = s.ids := rfl
@[simp] theorem State.mapTeam_issue (s : State) (tid : Nat) (f : Team → Team) : (s.mapTeam tid f).issue = s.issue := rfl
@[simp] theorem State.mapTeam_clk (s : State) (tid : Nat) (f : Team → Team) : (s.mapTeam tid f).clk = s.clk := rfl
@[simp] theorem State.mapTeam_mem (s : State) (tid : Nat) (f : Team → Team) : (s.mapTeam tid f).mem = s.mem := rfl
@[simp] theorem State.mapTeam_groups (s : State) (tid : Nat) (f : Team → Team) : (s.mapTeam tid f).groups = s.groups := rfl
@[simp] theorem State.mapTeam_clusters (s : State) (tid : Nat) (f : Team → Team) : (s.mapTeam tid f).clusters = s.clusters := rfl
@[simp] theorem State.mapTeam_instances (s : State) (tid : Nat) (f : Team → Team) : (s.mapTeam tid f).instances = s.instances := rfl
@[simp] theorem State.mapTeam_contexts (s : State) (tid : Nat) (f : Team → Team) : (s.mapTeam tid f).contexts = s.contexts := rfl
@[simp] theorem State.mapTeam_generations (s : State) (tid : Nat) (f : Team → Team) : (s.mapTeam tid f).generations = s.generations := rfl
@[simp] theorem State.mapTeam_cores (s : State) (tid : Nat) (f : Team → Team) : (s.mapTeam tid f).cores = s.cores := rfl
@[simp] theorem State.mapTeam_sectors (s : State) (tid : Nat) (f : Team → Team) : (s.mapTeam tid f).sectors = s.sectors := rfl
@[simp] theorem State.mapTeam_ops (s : State) (tid : Nat) (f : Team → Team) : (s.mapTeam tid f).ops = s.ops := rfl
@[simp] theorem State.mapTeam_queue (s : State) (tid : Nat) (f : Team → Team) : (s.mapTeam tid f).queue = s.queue := rfl
@[simp] theorem State.mapTeam_sent (s : State) (tid : Nat) (f : Team → Team) : (s.mapTeam tid f).sent = s.sent := rfl
@[simp] theorem State.mapTeam_remoteQueues (s : State) (tid : Nat) (f : Team → Team) : (s.mapTeam tid f).remoteQueues = s.remoteQueues := rfl
@[simp] theorem State.mapTeam_ranks (s : State) (tid : Nat) (f : Team → Team) : (s.mapTeam tid f).ranks = s.ranks := rfl
@[simp] theorem State.mapTeam_embers (s : State) (tid : Nat) (f : Team → Team) : (s.mapTeam tid f).embers = s.embers := rfl
@[simp] theorem State.mapTeam_keys (s : State) (tid : Nat) (f : Team → Team) : (s.mapTeam tid f).keys = s.keys := rfl
@[simp] theorem State.mapTeam_releases (s : State) (tid : Nat) (f : Team → Team) : (s.mapTeam tid f).releases = s.releases := rfl
@[simp] theorem State.mapTeam_records (s : State) (tid : Nat) (f : Team → Team) : (s.mapTeam tid f).records = s.records := rfl
@[simp] theorem State.mapTeam_moves (s : State) (tid : Nat) (f : Team → Team) : (s.mapTeam tid f).moves = s.moves := rfl
@[simp] theorem State.mapTeam_holds (s : State) (tid : Nat) (f : Team → Team) : (s.mapTeam tid f).holds = s.holds := rfl
@[simp] theorem State.mapTeam_preempts (s : State) (tid : Nat) (f : Team → Team) : (s.mapTeam tid f).preempts = s.preempts := rfl
@[simp] theorem State.mapTeam_samples (s : State) (tid : Nat) (f : Team → Team) : (s.mapTeam tid f).samples = s.samples := rfl
@[simp] theorem State.mapTeam_aways (s : State) (tid : Nat) (f : Team → Team) : (s.mapTeam tid f).aways = s.aways := rfl
@[simp] theorem State.mapTeam_ports (s : State) (tid : Nat) (f : Team → Team) : (s.mapTeam tid f).ports = s.ports := rfl
@[simp] theorem State.mapTeam_routes (s : State) (tid : Nat) (f : Team → Team) : (s.mapTeam tid f).routes = s.routes := rfl
@[simp] theorem State.mapTeam_ownRoutes (s : State) (tid : Nat) (f : Team → Team) : (s.mapTeam tid f).ownRoutes = s.ownRoutes := rfl
@[simp] theorem State.mapTeam_hub (s : State) (tid : Nat) (f : Team → Team) : (s.mapTeam tid f).hub = s.hub := rfl
@[simp] theorem State.mapTeam_test (s : State) (tid : Nat) (f : Team → Team) : (s.mapTeam tid f).test = s.test := rfl
@[simp] theorem State.mapTeam_host (s : State) (tid : Nat) (f : Team → Team) : (s.mapTeam tid f).host = s.host := rfl
@[simp] theorem State.mapTeam_plat (s : State) (tid : Nat) (f : Team → Team) : (s.mapTeam tid f).plat = s.plat := rfl

/-! ## mapCluster -/

@[simp] theorem State.mapCluster_agenda (s : State) (cid : Nat) (f : Cluster → Cluster) : (s.mapCluster cid f).agenda = s.agenda := rfl
@[simp] theorem State.mapCluster_turn (s : State) (cid : Nat) (f : Cluster → Cluster) : (s.mapCluster cid f).turn = s.turn := rfl
@[simp] theorem State.mapCluster_lastQuarter (s : State) (cid : Nat) (f : Cluster → Cluster) : (s.mapCluster cid f).lastQuarter = s.lastQuarter := rfl
@[simp] theorem State.mapCluster_tapIn (s : State) (cid : Nat) (f : Cluster → Cluster) : (s.mapCluster cid f).tapIn = s.tapIn := rfl
@[simp] theorem State.mapCluster_now (s : State) (cid : Nat) (f : Cluster → Cluster) : (s.mapCluster cid f).now = s.now := rfl
@[simp] theorem State.mapCluster_real (s : State) (cid : Nat) (f : Cluster → Cluster) : (s.mapCluster cid f).real = s.real := rfl
@[simp] theorem State.mapCluster_ids (s : State) (cid : Nat) (f : Cluster → Cluster) : (s.mapCluster cid f).ids = s.ids := rfl
@[simp] theorem State.mapCluster_issue (s : State) (cid : Nat) (f : Cluster → Cluster) : (s.mapCluster cid f).issue = s.issue := rfl
@[simp] theorem State.mapCluster_clk (s : State) (cid : Nat) (f : Cluster → Cluster) : (s.mapCluster cid f).clk = s.clk := rfl
@[simp] theorem State.mapCluster_mem (s : State) (cid : Nat) (f : Cluster → Cluster) : (s.mapCluster cid f).mem = s.mem := rfl
@[simp] theorem State.mapCluster_groups (s : State) (cid : Nat) (f : Cluster → Cluster) : (s.mapCluster cid f).groups = s.groups := rfl
@[simp] theorem State.mapCluster_teams (s : State) (cid : Nat) (f : Cluster → Cluster) : (s.mapCluster cid f).teams = s.teams := rfl
@[simp] theorem State.mapCluster_instances (s : State) (cid : Nat) (f : Cluster → Cluster) : (s.mapCluster cid f).instances = s.instances := rfl
@[simp] theorem State.mapCluster_contexts (s : State) (cid : Nat) (f : Cluster → Cluster) : (s.mapCluster cid f).contexts = s.contexts := rfl
@[simp] theorem State.mapCluster_generations (s : State) (cid : Nat) (f : Cluster → Cluster) : (s.mapCluster cid f).generations = s.generations := rfl
@[simp] theorem State.mapCluster_cores (s : State) (cid : Nat) (f : Cluster → Cluster) : (s.mapCluster cid f).cores = s.cores := rfl
@[simp] theorem State.mapCluster_sectors (s : State) (cid : Nat) (f : Cluster → Cluster) : (s.mapCluster cid f).sectors = s.sectors := rfl
@[simp] theorem State.mapCluster_ops (s : State) (cid : Nat) (f : Cluster → Cluster) : (s.mapCluster cid f).ops = s.ops := rfl
@[simp] theorem State.mapCluster_queue (s : State) (cid : Nat) (f : Cluster → Cluster) : (s.mapCluster cid f).queue = s.queue := rfl
@[simp] theorem State.mapCluster_sent (s : State) (cid : Nat) (f : Cluster → Cluster) : (s.mapCluster cid f).sent = s.sent := rfl
@[simp] theorem State.mapCluster_remoteQueues (s : State) (cid : Nat) (f : Cluster → Cluster) : (s.mapCluster cid f).remoteQueues = s.remoteQueues := rfl
@[simp] theorem State.mapCluster_ranks (s : State) (cid : Nat) (f : Cluster → Cluster) : (s.mapCluster cid f).ranks = s.ranks := rfl
@[simp] theorem State.mapCluster_embers (s : State) (cid : Nat) (f : Cluster → Cluster) : (s.mapCluster cid f).embers = s.embers := rfl
@[simp] theorem State.mapCluster_keys (s : State) (cid : Nat) (f : Cluster → Cluster) : (s.mapCluster cid f).keys = s.keys := rfl
@[simp] theorem State.mapCluster_releases (s : State) (cid : Nat) (f : Cluster → Cluster) : (s.mapCluster cid f).releases = s.releases := rfl
@[simp] theorem State.mapCluster_records (s : State) (cid : Nat) (f : Cluster → Cluster) : (s.mapCluster cid f).records = s.records := rfl
@[simp] theorem State.mapCluster_moves (s : State) (cid : Nat) (f : Cluster → Cluster) : (s.mapCluster cid f).moves = s.moves := rfl
@[simp] theorem State.mapCluster_holds (s : State) (cid : Nat) (f : Cluster → Cluster) : (s.mapCluster cid f).holds = s.holds := rfl
@[simp] theorem State.mapCluster_preempts (s : State) (cid : Nat) (f : Cluster → Cluster) : (s.mapCluster cid f).preempts = s.preempts := rfl
@[simp] theorem State.mapCluster_samples (s : State) (cid : Nat) (f : Cluster → Cluster) : (s.mapCluster cid f).samples = s.samples := rfl
@[simp] theorem State.mapCluster_aways (s : State) (cid : Nat) (f : Cluster → Cluster) : (s.mapCluster cid f).aways = s.aways := rfl
@[simp] theorem State.mapCluster_ports (s : State) (cid : Nat) (f : Cluster → Cluster) : (s.mapCluster cid f).ports = s.ports := rfl
@[simp] theorem State.mapCluster_routes (s : State) (cid : Nat) (f : Cluster → Cluster) : (s.mapCluster cid f).routes = s.routes := rfl
@[simp] theorem State.mapCluster_ownRoutes (s : State) (cid : Nat) (f : Cluster → Cluster) : (s.mapCluster cid f).ownRoutes = s.ownRoutes := rfl
@[simp] theorem State.mapCluster_hub (s : State) (cid : Nat) (f : Cluster → Cluster) : (s.mapCluster cid f).hub = s.hub := rfl
@[simp] theorem State.mapCluster_test (s : State) (cid : Nat) (f : Cluster → Cluster) : (s.mapCluster cid f).test = s.test := rfl
@[simp] theorem State.mapCluster_host (s : State) (cid : Nat) (f : Cluster → Cluster) : (s.mapCluster cid f).host = s.host := rfl
@[simp] theorem State.mapCluster_plat (s : State) (cid : Nat) (f : Cluster → Cluster) : (s.mapCluster cid f).plat = s.plat := rfl

/-! ## mapInstance -/

@[simp] theorem State.mapInstance_agenda (s : State) (iid : Nat) (f : Instance → Instance) : (s.mapInstance iid f).agenda = s.agenda := rfl
@[simp] theorem State.mapInstance_turn (s : State) (iid : Nat) (f : Instance → Instance) : (s.mapInstance iid f).turn = s.turn := rfl
@[simp] theorem State.mapInstance_lastQuarter (s : State) (iid : Nat) (f : Instance → Instance) : (s.mapInstance iid f).lastQuarter = s.lastQuarter := rfl
@[simp] theorem State.mapInstance_tapIn (s : State) (iid : Nat) (f : Instance → Instance) : (s.mapInstance iid f).tapIn = s.tapIn := rfl
@[simp] theorem State.mapInstance_now (s : State) (iid : Nat) (f : Instance → Instance) : (s.mapInstance iid f).now = s.now := rfl
@[simp] theorem State.mapInstance_real (s : State) (iid : Nat) (f : Instance → Instance) : (s.mapInstance iid f).real = s.real := rfl
@[simp] theorem State.mapInstance_ids (s : State) (iid : Nat) (f : Instance → Instance) : (s.mapInstance iid f).ids = s.ids := rfl
@[simp] theorem State.mapInstance_issue (s : State) (iid : Nat) (f : Instance → Instance) : (s.mapInstance iid f).issue = s.issue := rfl
@[simp] theorem State.mapInstance_clk (s : State) (iid : Nat) (f : Instance → Instance) : (s.mapInstance iid f).clk = s.clk := rfl
@[simp] theorem State.mapInstance_mem (s : State) (iid : Nat) (f : Instance → Instance) : (s.mapInstance iid f).mem = s.mem := rfl
@[simp] theorem State.mapInstance_groups (s : State) (iid : Nat) (f : Instance → Instance) : (s.mapInstance iid f).groups = s.groups := rfl
@[simp] theorem State.mapInstance_teams (s : State) (iid : Nat) (f : Instance → Instance) : (s.mapInstance iid f).teams = s.teams := rfl
@[simp] theorem State.mapInstance_clusters (s : State) (iid : Nat) (f : Instance → Instance) : (s.mapInstance iid f).clusters = s.clusters := rfl
@[simp] theorem State.mapInstance_contexts (s : State) (iid : Nat) (f : Instance → Instance) : (s.mapInstance iid f).contexts = s.contexts := rfl
@[simp] theorem State.mapInstance_generations (s : State) (iid : Nat) (f : Instance → Instance) : (s.mapInstance iid f).generations = s.generations := rfl
@[simp] theorem State.mapInstance_cores (s : State) (iid : Nat) (f : Instance → Instance) : (s.mapInstance iid f).cores = s.cores := rfl
@[simp] theorem State.mapInstance_sectors (s : State) (iid : Nat) (f : Instance → Instance) : (s.mapInstance iid f).sectors = s.sectors := rfl
@[simp] theorem State.mapInstance_ops (s : State) (iid : Nat) (f : Instance → Instance) : (s.mapInstance iid f).ops = s.ops := rfl
@[simp] theorem State.mapInstance_queue (s : State) (iid : Nat) (f : Instance → Instance) : (s.mapInstance iid f).queue = s.queue := rfl
@[simp] theorem State.mapInstance_sent (s : State) (iid : Nat) (f : Instance → Instance) : (s.mapInstance iid f).sent = s.sent := rfl
@[simp] theorem State.mapInstance_remoteQueues (s : State) (iid : Nat) (f : Instance → Instance) : (s.mapInstance iid f).remoteQueues = s.remoteQueues := rfl
@[simp] theorem State.mapInstance_ranks (s : State) (iid : Nat) (f : Instance → Instance) : (s.mapInstance iid f).ranks = s.ranks := rfl
@[simp] theorem State.mapInstance_embers (s : State) (iid : Nat) (f : Instance → Instance) : (s.mapInstance iid f).embers = s.embers := rfl
@[simp] theorem State.mapInstance_keys (s : State) (iid : Nat) (f : Instance → Instance) : (s.mapInstance iid f).keys = s.keys := rfl
@[simp] theorem State.mapInstance_releases (s : State) (iid : Nat) (f : Instance → Instance) : (s.mapInstance iid f).releases = s.releases := rfl
@[simp] theorem State.mapInstance_records (s : State) (iid : Nat) (f : Instance → Instance) : (s.mapInstance iid f).records = s.records := rfl
@[simp] theorem State.mapInstance_moves (s : State) (iid : Nat) (f : Instance → Instance) : (s.mapInstance iid f).moves = s.moves := rfl
@[simp] theorem State.mapInstance_holds (s : State) (iid : Nat) (f : Instance → Instance) : (s.mapInstance iid f).holds = s.holds := rfl
@[simp] theorem State.mapInstance_preempts (s : State) (iid : Nat) (f : Instance → Instance) : (s.mapInstance iid f).preempts = s.preempts := rfl
@[simp] theorem State.mapInstance_samples (s : State) (iid : Nat) (f : Instance → Instance) : (s.mapInstance iid f).samples = s.samples := rfl
@[simp] theorem State.mapInstance_aways (s : State) (iid : Nat) (f : Instance → Instance) : (s.mapInstance iid f).aways = s.aways := rfl
@[simp] theorem State.mapInstance_ports (s : State) (iid : Nat) (f : Instance → Instance) : (s.mapInstance iid f).ports = s.ports := rfl
@[simp] theorem State.mapInstance_routes (s : State) (iid : Nat) (f : Instance → Instance) : (s.mapInstance iid f).routes = s.routes := rfl
@[simp] theorem State.mapInstance_ownRoutes (s : State) (iid : Nat) (f : Instance → Instance) : (s.mapInstance iid f).ownRoutes = s.ownRoutes := rfl
@[simp] theorem State.mapInstance_hub (s : State) (iid : Nat) (f : Instance → Instance) : (s.mapInstance iid f).hub = s.hub := rfl
@[simp] theorem State.mapInstance_test (s : State) (iid : Nat) (f : Instance → Instance) : (s.mapInstance iid f).test = s.test := rfl
@[simp] theorem State.mapInstance_host (s : State) (iid : Nat) (f : Instance → Instance) : (s.mapInstance iid f).host = s.host := rfl
@[simp] theorem State.mapInstance_plat (s : State) (iid : Nat) (f : Instance → Instance) : (s.mapInstance iid f).plat = s.plat := rfl

/-! ## mapCtx -/

@[simp] theorem State.mapCtx_agenda (s : State) (c : Nat) (f : Context → Context) : (s.mapCtx c f).agenda = s.agenda := rfl
@[simp] theorem State.mapCtx_turn (s : State) (c : Nat) (f : Context → Context) : (s.mapCtx c f).turn = s.turn := rfl
@[simp] theorem State.mapCtx_lastQuarter (s : State) (c : Nat) (f : Context → Context) : (s.mapCtx c f).lastQuarter = s.lastQuarter := rfl
@[simp] theorem State.mapCtx_tapIn (s : State) (c : Nat) (f : Context → Context) : (s.mapCtx c f).tapIn = s.tapIn := rfl
@[simp] theorem State.mapCtx_now (s : State) (c : Nat) (f : Context → Context) : (s.mapCtx c f).now = s.now := rfl
@[simp] theorem State.mapCtx_real (s : State) (c : Nat) (f : Context → Context) : (s.mapCtx c f).real = s.real := rfl
@[simp] theorem State.mapCtx_ids (s : State) (c : Nat) (f : Context → Context) : (s.mapCtx c f).ids = s.ids := rfl
@[simp] theorem State.mapCtx_issue (s : State) (c : Nat) (f : Context → Context) : (s.mapCtx c f).issue = s.issue := rfl
@[simp] theorem State.mapCtx_clk (s : State) (c : Nat) (f : Context → Context) : (s.mapCtx c f).clk = s.clk := rfl
@[simp] theorem State.mapCtx_mem (s : State) (c : Nat) (f : Context → Context) : (s.mapCtx c f).mem = s.mem := rfl
@[simp] theorem State.mapCtx_groups (s : State) (c : Nat) (f : Context → Context) : (s.mapCtx c f).groups = s.groups := rfl
@[simp] theorem State.mapCtx_teams (s : State) (c : Nat) (f : Context → Context) : (s.mapCtx c f).teams = s.teams := rfl
@[simp] theorem State.mapCtx_clusters (s : State) (c : Nat) (f : Context → Context) : (s.mapCtx c f).clusters = s.clusters := rfl
@[simp] theorem State.mapCtx_instances (s : State) (c : Nat) (f : Context → Context) : (s.mapCtx c f).instances = s.instances := rfl
@[simp] theorem State.mapCtx_generations (s : State) (c : Nat) (f : Context → Context) : (s.mapCtx c f).generations = s.generations := rfl
@[simp] theorem State.mapCtx_cores (s : State) (c : Nat) (f : Context → Context) : (s.mapCtx c f).cores = s.cores := rfl
@[simp] theorem State.mapCtx_sectors (s : State) (c : Nat) (f : Context → Context) : (s.mapCtx c f).sectors = s.sectors := rfl
@[simp] theorem State.mapCtx_ops (s : State) (c : Nat) (f : Context → Context) : (s.mapCtx c f).ops = s.ops := rfl
@[simp] theorem State.mapCtx_queue (s : State) (c : Nat) (f : Context → Context) : (s.mapCtx c f).queue = s.queue := rfl
@[simp] theorem State.mapCtx_sent (s : State) (c : Nat) (f : Context → Context) : (s.mapCtx c f).sent = s.sent := rfl
@[simp] theorem State.mapCtx_remoteQueues (s : State) (c : Nat) (f : Context → Context) : (s.mapCtx c f).remoteQueues = s.remoteQueues := rfl
@[simp] theorem State.mapCtx_ranks (s : State) (c : Nat) (f : Context → Context) : (s.mapCtx c f).ranks = s.ranks := rfl
@[simp] theorem State.mapCtx_embers (s : State) (c : Nat) (f : Context → Context) : (s.mapCtx c f).embers = s.embers := rfl
@[simp] theorem State.mapCtx_keys (s : State) (c : Nat) (f : Context → Context) : (s.mapCtx c f).keys = s.keys := rfl
@[simp] theorem State.mapCtx_releases (s : State) (c : Nat) (f : Context → Context) : (s.mapCtx c f).releases = s.releases := rfl
@[simp] theorem State.mapCtx_records (s : State) (c : Nat) (f : Context → Context) : (s.mapCtx c f).records = s.records := rfl
@[simp] theorem State.mapCtx_moves (s : State) (c : Nat) (f : Context → Context) : (s.mapCtx c f).moves = s.moves := rfl
@[simp] theorem State.mapCtx_holds (s : State) (c : Nat) (f : Context → Context) : (s.mapCtx c f).holds = s.holds := rfl
@[simp] theorem State.mapCtx_preempts (s : State) (c : Nat) (f : Context → Context) : (s.mapCtx c f).preempts = s.preempts := rfl
@[simp] theorem State.mapCtx_samples (s : State) (c : Nat) (f : Context → Context) : (s.mapCtx c f).samples = s.samples := rfl
@[simp] theorem State.mapCtx_aways (s : State) (c : Nat) (f : Context → Context) : (s.mapCtx c f).aways = s.aways := rfl
@[simp] theorem State.mapCtx_ports (s : State) (c : Nat) (f : Context → Context) : (s.mapCtx c f).ports = s.ports := rfl
@[simp] theorem State.mapCtx_routes (s : State) (c : Nat) (f : Context → Context) : (s.mapCtx c f).routes = s.routes := rfl
@[simp] theorem State.mapCtx_ownRoutes (s : State) (c : Nat) (f : Context → Context) : (s.mapCtx c f).ownRoutes = s.ownRoutes := rfl
@[simp] theorem State.mapCtx_hub (s : State) (c : Nat) (f : Context → Context) : (s.mapCtx c f).hub = s.hub := rfl
@[simp] theorem State.mapCtx_test (s : State) (c : Nat) (f : Context → Context) : (s.mapCtx c f).test = s.test := rfl
@[simp] theorem State.mapCtx_host (s : State) (c : Nat) (f : Context → Context) : (s.mapCtx c f).host = s.host := rfl
@[simp] theorem State.mapCtx_plat (s : State) (c : Nat) (f : Context → Context) : (s.mapCtx c f).plat = s.plat := rfl

/-! ## mapCore -/

@[simp] theorem State.mapCore_agenda (s : State) (c : Nat) (f : Core → Core) : (s.mapCore c f).agenda = s.agenda := rfl
@[simp] theorem State.mapCore_turn (s : State) (c : Nat) (f : Core → Core) : (s.mapCore c f).turn = s.turn := rfl
@[simp] theorem State.mapCore_lastQuarter (s : State) (c : Nat) (f : Core → Core) : (s.mapCore c f).lastQuarter = s.lastQuarter := rfl
@[simp] theorem State.mapCore_tapIn (s : State) (c : Nat) (f : Core → Core) : (s.mapCore c f).tapIn = s.tapIn := rfl
@[simp] theorem State.mapCore_now (s : State) (c : Nat) (f : Core → Core) : (s.mapCore c f).now = s.now := rfl
@[simp] theorem State.mapCore_real (s : State) (c : Nat) (f : Core → Core) : (s.mapCore c f).real = s.real := rfl
@[simp] theorem State.mapCore_ids (s : State) (c : Nat) (f : Core → Core) : (s.mapCore c f).ids = s.ids := rfl
@[simp] theorem State.mapCore_issue (s : State) (c : Nat) (f : Core → Core) : (s.mapCore c f).issue = s.issue := rfl
@[simp] theorem State.mapCore_clk (s : State) (c : Nat) (f : Core → Core) : (s.mapCore c f).clk = s.clk := rfl
@[simp] theorem State.mapCore_mem (s : State) (c : Nat) (f : Core → Core) : (s.mapCore c f).mem = s.mem := rfl
@[simp] theorem State.mapCore_groups (s : State) (c : Nat) (f : Core → Core) : (s.mapCore c f).groups = s.groups := rfl
@[simp] theorem State.mapCore_teams (s : State) (c : Nat) (f : Core → Core) : (s.mapCore c f).teams = s.teams := rfl
@[simp] theorem State.mapCore_clusters (s : State) (c : Nat) (f : Core → Core) : (s.mapCore c f).clusters = s.clusters := rfl
@[simp] theorem State.mapCore_instances (s : State) (c : Nat) (f : Core → Core) : (s.mapCore c f).instances = s.instances := rfl
@[simp] theorem State.mapCore_contexts (s : State) (c : Nat) (f : Core → Core) : (s.mapCore c f).contexts = s.contexts := rfl
@[simp] theorem State.mapCore_generations (s : State) (c : Nat) (f : Core → Core) : (s.mapCore c f).generations = s.generations := rfl
@[simp] theorem State.mapCore_sectors (s : State) (c : Nat) (f : Core → Core) : (s.mapCore c f).sectors = s.sectors := rfl
@[simp] theorem State.mapCore_ops (s : State) (c : Nat) (f : Core → Core) : (s.mapCore c f).ops = s.ops := rfl
@[simp] theorem State.mapCore_queue (s : State) (c : Nat) (f : Core → Core) : (s.mapCore c f).queue = s.queue := rfl
@[simp] theorem State.mapCore_sent (s : State) (c : Nat) (f : Core → Core) : (s.mapCore c f).sent = s.sent := rfl
@[simp] theorem State.mapCore_remoteQueues (s : State) (c : Nat) (f : Core → Core) : (s.mapCore c f).remoteQueues = s.remoteQueues := rfl
@[simp] theorem State.mapCore_ranks (s : State) (c : Nat) (f : Core → Core) : (s.mapCore c f).ranks = s.ranks := rfl
@[simp] theorem State.mapCore_embers (s : State) (c : Nat) (f : Core → Core) : (s.mapCore c f).embers = s.embers := rfl
@[simp] theorem State.mapCore_keys (s : State) (c : Nat) (f : Core → Core) : (s.mapCore c f).keys = s.keys := rfl
@[simp] theorem State.mapCore_releases (s : State) (c : Nat) (f : Core → Core) : (s.mapCore c f).releases = s.releases := rfl
@[simp] theorem State.mapCore_records (s : State) (c : Nat) (f : Core → Core) : (s.mapCore c f).records = s.records := rfl
@[simp] theorem State.mapCore_moves (s : State) (c : Nat) (f : Core → Core) : (s.mapCore c f).moves = s.moves := rfl
@[simp] theorem State.mapCore_holds (s : State) (c : Nat) (f : Core → Core) : (s.mapCore c f).holds = s.holds := rfl
@[simp] theorem State.mapCore_preempts (s : State) (c : Nat) (f : Core → Core) : (s.mapCore c f).preempts = s.preempts := rfl
@[simp] theorem State.mapCore_samples (s : State) (c : Nat) (f : Core → Core) : (s.mapCore c f).samples = s.samples := rfl
@[simp] theorem State.mapCore_aways (s : State) (c : Nat) (f : Core → Core) : (s.mapCore c f).aways = s.aways := rfl
@[simp] theorem State.mapCore_ports (s : State) (c : Nat) (f : Core → Core) : (s.mapCore c f).ports = s.ports := rfl
@[simp] theorem State.mapCore_routes (s : State) (c : Nat) (f : Core → Core) : (s.mapCore c f).routes = s.routes := rfl
@[simp] theorem State.mapCore_ownRoutes (s : State) (c : Nat) (f : Core → Core) : (s.mapCore c f).ownRoutes = s.ownRoutes := rfl
@[simp] theorem State.mapCore_hub (s : State) (c : Nat) (f : Core → Core) : (s.mapCore c f).hub = s.hub := rfl
@[simp] theorem State.mapCore_test (s : State) (c : Nat) (f : Core → Core) : (s.mapCore c f).test = s.test := rfl
@[simp] theorem State.mapCore_host (s : State) (c : Nat) (f : Core → Core) : (s.mapCore c f).host = s.host := rfl
@[simp] theorem State.mapCore_plat (s : State) (c : Nat) (f : Core → Core) : (s.mapCore c f).plat = s.plat := rfl

/-! ## mapSector -/

@[simp] theorem State.mapSector_agenda (s : State) (n : Nat) (f : Sector → Sector) : (s.mapSector n f).agenda = s.agenda := rfl
@[simp] theorem State.mapSector_turn (s : State) (n : Nat) (f : Sector → Sector) : (s.mapSector n f).turn = s.turn := rfl
@[simp] theorem State.mapSector_lastQuarter (s : State) (n : Nat) (f : Sector → Sector) : (s.mapSector n f).lastQuarter = s.lastQuarter := rfl
@[simp] theorem State.mapSector_tapIn (s : State) (n : Nat) (f : Sector → Sector) : (s.mapSector n f).tapIn = s.tapIn := rfl
@[simp] theorem State.mapSector_now (s : State) (n : Nat) (f : Sector → Sector) : (s.mapSector n f).now = s.now := rfl
@[simp] theorem State.mapSector_real (s : State) (n : Nat) (f : Sector → Sector) : (s.mapSector n f).real = s.real := rfl
@[simp] theorem State.mapSector_ids (s : State) (n : Nat) (f : Sector → Sector) : (s.mapSector n f).ids = s.ids := rfl
@[simp] theorem State.mapSector_issue (s : State) (n : Nat) (f : Sector → Sector) : (s.mapSector n f).issue = s.issue := rfl
@[simp] theorem State.mapSector_clk (s : State) (n : Nat) (f : Sector → Sector) : (s.mapSector n f).clk = s.clk := rfl
@[simp] theorem State.mapSector_mem (s : State) (n : Nat) (f : Sector → Sector) : (s.mapSector n f).mem = s.mem := rfl
@[simp] theorem State.mapSector_groups (s : State) (n : Nat) (f : Sector → Sector) : (s.mapSector n f).groups = s.groups := rfl
@[simp] theorem State.mapSector_teams (s : State) (n : Nat) (f : Sector → Sector) : (s.mapSector n f).teams = s.teams := rfl
@[simp] theorem State.mapSector_clusters (s : State) (n : Nat) (f : Sector → Sector) : (s.mapSector n f).clusters = s.clusters := rfl
@[simp] theorem State.mapSector_instances (s : State) (n : Nat) (f : Sector → Sector) : (s.mapSector n f).instances = s.instances := rfl
@[simp] theorem State.mapSector_contexts (s : State) (n : Nat) (f : Sector → Sector) : (s.mapSector n f).contexts = s.contexts := rfl
@[simp] theorem State.mapSector_generations (s : State) (n : Nat) (f : Sector → Sector) : (s.mapSector n f).generations = s.generations := rfl
@[simp] theorem State.mapSector_cores (s : State) (n : Nat) (f : Sector → Sector) : (s.mapSector n f).cores = s.cores := rfl
@[simp] theorem State.mapSector_ops (s : State) (n : Nat) (f : Sector → Sector) : (s.mapSector n f).ops = s.ops := rfl
@[simp] theorem State.mapSector_queue (s : State) (n : Nat) (f : Sector → Sector) : (s.mapSector n f).queue = s.queue := rfl
@[simp] theorem State.mapSector_sent (s : State) (n : Nat) (f : Sector → Sector) : (s.mapSector n f).sent = s.sent := rfl
@[simp] theorem State.mapSector_remoteQueues (s : State) (n : Nat) (f : Sector → Sector) : (s.mapSector n f).remoteQueues = s.remoteQueues := rfl
@[simp] theorem State.mapSector_ranks (s : State) (n : Nat) (f : Sector → Sector) : (s.mapSector n f).ranks = s.ranks := rfl
@[simp] theorem State.mapSector_embers (s : State) (n : Nat) (f : Sector → Sector) : (s.mapSector n f).embers = s.embers := rfl
@[simp] theorem State.mapSector_keys (s : State) (n : Nat) (f : Sector → Sector) : (s.mapSector n f).keys = s.keys := rfl
@[simp] theorem State.mapSector_releases (s : State) (n : Nat) (f : Sector → Sector) : (s.mapSector n f).releases = s.releases := rfl
@[simp] theorem State.mapSector_records (s : State) (n : Nat) (f : Sector → Sector) : (s.mapSector n f).records = s.records := rfl
@[simp] theorem State.mapSector_moves (s : State) (n : Nat) (f : Sector → Sector) : (s.mapSector n f).moves = s.moves := rfl
@[simp] theorem State.mapSector_holds (s : State) (n : Nat) (f : Sector → Sector) : (s.mapSector n f).holds = s.holds := rfl
@[simp] theorem State.mapSector_preempts (s : State) (n : Nat) (f : Sector → Sector) : (s.mapSector n f).preempts = s.preempts := rfl
@[simp] theorem State.mapSector_samples (s : State) (n : Nat) (f : Sector → Sector) : (s.mapSector n f).samples = s.samples := rfl
@[simp] theorem State.mapSector_aways (s : State) (n : Nat) (f : Sector → Sector) : (s.mapSector n f).aways = s.aways := rfl
@[simp] theorem State.mapSector_ports (s : State) (n : Nat) (f : Sector → Sector) : (s.mapSector n f).ports = s.ports := rfl
@[simp] theorem State.mapSector_routes (s : State) (n : Nat) (f : Sector → Sector) : (s.mapSector n f).routes = s.routes := rfl
@[simp] theorem State.mapSector_ownRoutes (s : State) (n : Nat) (f : Sector → Sector) : (s.mapSector n f).ownRoutes = s.ownRoutes := rfl
@[simp] theorem State.mapSector_hub (s : State) (n : Nat) (f : Sector → Sector) : (s.mapSector n f).hub = s.hub := rfl
@[simp] theorem State.mapSector_test (s : State) (n : Nat) (f : Sector → Sector) : (s.mapSector n f).test = s.test := rfl
@[simp] theorem State.mapSector_host (s : State) (n : Nat) (f : Sector → Sector) : (s.mapSector n f).host = s.host := rfl
@[simp] theorem State.mapSector_plat (s : State) (n : Nat) (f : Sector → Sector) : (s.mapSector n f).plat = s.plat := rfl

/-! ## writeBytes -/

@[simp] theorem State.writeBytes_agenda (s : State) (bs : List (Nat × Byte)) : (s.writeBytes bs).agenda = s.agenda := rfl
@[simp] theorem State.writeBytes_turn (s : State) (bs : List (Nat × Byte)) : (s.writeBytes bs).turn = s.turn := rfl
@[simp] theorem State.writeBytes_lastQuarter (s : State) (bs : List (Nat × Byte)) : (s.writeBytes bs).lastQuarter = s.lastQuarter := rfl
@[simp] theorem State.writeBytes_tapIn (s : State) (bs : List (Nat × Byte)) : (s.writeBytes bs).tapIn = s.tapIn := rfl
@[simp] theorem State.writeBytes_now (s : State) (bs : List (Nat × Byte)) : (s.writeBytes bs).now = s.now := rfl
@[simp] theorem State.writeBytes_real (s : State) (bs : List (Nat × Byte)) : (s.writeBytes bs).real = s.real := rfl
@[simp] theorem State.writeBytes_ids (s : State) (bs : List (Nat × Byte)) : (s.writeBytes bs).ids = s.ids := rfl
@[simp] theorem State.writeBytes_issue (s : State) (bs : List (Nat × Byte)) : (s.writeBytes bs).issue = s.issue := rfl
@[simp] theorem State.writeBytes_clk (s : State) (bs : List (Nat × Byte)) : (s.writeBytes bs).clk = s.clk := rfl
@[simp] theorem State.writeBytes_groups (s : State) (bs : List (Nat × Byte)) : (s.writeBytes bs).groups = s.groups := rfl
@[simp] theorem State.writeBytes_teams (s : State) (bs : List (Nat × Byte)) : (s.writeBytes bs).teams = s.teams := rfl
@[simp] theorem State.writeBytes_clusters (s : State) (bs : List (Nat × Byte)) : (s.writeBytes bs).clusters = s.clusters := rfl
@[simp] theorem State.writeBytes_instances (s : State) (bs : List (Nat × Byte)) : (s.writeBytes bs).instances = s.instances := rfl
@[simp] theorem State.writeBytes_contexts (s : State) (bs : List (Nat × Byte)) : (s.writeBytes bs).contexts = s.contexts := rfl
@[simp] theorem State.writeBytes_generations (s : State) (bs : List (Nat × Byte)) : (s.writeBytes bs).generations = s.generations := rfl
@[simp] theorem State.writeBytes_cores (s : State) (bs : List (Nat × Byte)) : (s.writeBytes bs).cores = s.cores := rfl
@[simp] theorem State.writeBytes_sectors (s : State) (bs : List (Nat × Byte)) : (s.writeBytes bs).sectors = s.sectors := rfl
@[simp] theorem State.writeBytes_ops (s : State) (bs : List (Nat × Byte)) : (s.writeBytes bs).ops = s.ops := rfl
@[simp] theorem State.writeBytes_queue (s : State) (bs : List (Nat × Byte)) : (s.writeBytes bs).queue = s.queue := rfl
@[simp] theorem State.writeBytes_sent (s : State) (bs : List (Nat × Byte)) : (s.writeBytes bs).sent = s.sent := rfl
@[simp] theorem State.writeBytes_remoteQueues (s : State) (bs : List (Nat × Byte)) : (s.writeBytes bs).remoteQueues = s.remoteQueues := rfl
@[simp] theorem State.writeBytes_ranks (s : State) (bs : List (Nat × Byte)) : (s.writeBytes bs).ranks = s.ranks := rfl
@[simp] theorem State.writeBytes_embers (s : State) (bs : List (Nat × Byte)) : (s.writeBytes bs).embers = s.embers := rfl
@[simp] theorem State.writeBytes_keys (s : State) (bs : List (Nat × Byte)) : (s.writeBytes bs).keys = s.keys := rfl
@[simp] theorem State.writeBytes_releases (s : State) (bs : List (Nat × Byte)) : (s.writeBytes bs).releases = s.releases := rfl
@[simp] theorem State.writeBytes_records (s : State) (bs : List (Nat × Byte)) : (s.writeBytes bs).records = s.records := rfl
@[simp] theorem State.writeBytes_moves (s : State) (bs : List (Nat × Byte)) : (s.writeBytes bs).moves = s.moves := rfl
@[simp] theorem State.writeBytes_holds (s : State) (bs : List (Nat × Byte)) : (s.writeBytes bs).holds = s.holds := rfl
@[simp] theorem State.writeBytes_preempts (s : State) (bs : List (Nat × Byte)) : (s.writeBytes bs).preempts = s.preempts := rfl
@[simp] theorem State.writeBytes_samples (s : State) (bs : List (Nat × Byte)) : (s.writeBytes bs).samples = s.samples := rfl
@[simp] theorem State.writeBytes_aways (s : State) (bs : List (Nat × Byte)) : (s.writeBytes bs).aways = s.aways := rfl
@[simp] theorem State.writeBytes_ports (s : State) (bs : List (Nat × Byte)) : (s.writeBytes bs).ports = s.ports := rfl
@[simp] theorem State.writeBytes_routes (s : State) (bs : List (Nat × Byte)) : (s.writeBytes bs).routes = s.routes := rfl
@[simp] theorem State.writeBytes_ownRoutes (s : State) (bs : List (Nat × Byte)) : (s.writeBytes bs).ownRoutes = s.ownRoutes := rfl
@[simp] theorem State.writeBytes_hub (s : State) (bs : List (Nat × Byte)) : (s.writeBytes bs).hub = s.hub := rfl
@[simp] theorem State.writeBytes_test (s : State) (bs : List (Nat × Byte)) : (s.writeBytes bs).test = s.test := rfl
@[simp] theorem State.writeBytes_host (s : State) (bs : List (Nat × Byte)) : (s.writeBytes bs).host = s.host := rfl
@[simp] theorem State.writeBytes_plat (s : State) (bs : List (Nat × Byte)) : (s.writeBytes bs).plat = s.plat := rfl

/-! ## writeNat -/

@[simp] theorem State.writeNat_agenda (s : State) (place n v : Nat) : (s.writeNat place n v).agenda = s.agenda := rfl
@[simp] theorem State.writeNat_turn (s : State) (place n v : Nat) : (s.writeNat place n v).turn = s.turn := rfl
@[simp] theorem State.writeNat_lastQuarter (s : State) (place n v : Nat) : (s.writeNat place n v).lastQuarter = s.lastQuarter := rfl
@[simp] theorem State.writeNat_tapIn (s : State) (place n v : Nat) : (s.writeNat place n v).tapIn = s.tapIn := rfl
@[simp] theorem State.writeNat_now (s : State) (place n v : Nat) : (s.writeNat place n v).now = s.now := rfl
@[simp] theorem State.writeNat_real (s : State) (place n v : Nat) : (s.writeNat place n v).real = s.real := rfl
@[simp] theorem State.writeNat_ids (s : State) (place n v : Nat) : (s.writeNat place n v).ids = s.ids := rfl
@[simp] theorem State.writeNat_issue (s : State) (place n v : Nat) : (s.writeNat place n v).issue = s.issue := rfl
@[simp] theorem State.writeNat_clk (s : State) (place n v : Nat) : (s.writeNat place n v).clk = s.clk := rfl
@[simp] theorem State.writeNat_groups (s : State) (place n v : Nat) : (s.writeNat place n v).groups = s.groups := rfl
@[simp] theorem State.writeNat_teams (s : State) (place n v : Nat) : (s.writeNat place n v).teams = s.teams := rfl
@[simp] theorem State.writeNat_clusters (s : State) (place n v : Nat) : (s.writeNat place n v).clusters = s.clusters := rfl
@[simp] theorem State.writeNat_instances (s : State) (place n v : Nat) : (s.writeNat place n v).instances = s.instances := rfl
@[simp] theorem State.writeNat_contexts (s : State) (place n v : Nat) : (s.writeNat place n v).contexts = s.contexts := rfl
@[simp] theorem State.writeNat_generations (s : State) (place n v : Nat) : (s.writeNat place n v).generations = s.generations := rfl
@[simp] theorem State.writeNat_cores (s : State) (place n v : Nat) : (s.writeNat place n v).cores = s.cores := rfl
@[simp] theorem State.writeNat_sectors (s : State) (place n v : Nat) : (s.writeNat place n v).sectors = s.sectors := rfl
@[simp] theorem State.writeNat_ops (s : State) (place n v : Nat) : (s.writeNat place n v).ops = s.ops := rfl
@[simp] theorem State.writeNat_queue (s : State) (place n v : Nat) : (s.writeNat place n v).queue = s.queue := rfl
@[simp] theorem State.writeNat_sent (s : State) (place n v : Nat) : (s.writeNat place n v).sent = s.sent := rfl
@[simp] theorem State.writeNat_remoteQueues (s : State) (place n v : Nat) : (s.writeNat place n v).remoteQueues = s.remoteQueues := rfl
@[simp] theorem State.writeNat_ranks (s : State) (place n v : Nat) : (s.writeNat place n v).ranks = s.ranks := rfl
@[simp] theorem State.writeNat_embers (s : State) (place n v : Nat) : (s.writeNat place n v).embers = s.embers := rfl
@[simp] theorem State.writeNat_keys (s : State) (place n v : Nat) : (s.writeNat place n v).keys = s.keys := rfl
@[simp] theorem State.writeNat_releases (s : State) (place n v : Nat) : (s.writeNat place n v).releases = s.releases := rfl
@[simp] theorem State.writeNat_records (s : State) (place n v : Nat) : (s.writeNat place n v).records = s.records := rfl
@[simp] theorem State.writeNat_moves (s : State) (place n v : Nat) : (s.writeNat place n v).moves = s.moves := rfl
@[simp] theorem State.writeNat_holds (s : State) (place n v : Nat) : (s.writeNat place n v).holds = s.holds := rfl
@[simp] theorem State.writeNat_preempts (s : State) (place n v : Nat) : (s.writeNat place n v).preempts = s.preempts := rfl
@[simp] theorem State.writeNat_samples (s : State) (place n v : Nat) : (s.writeNat place n v).samples = s.samples := rfl
@[simp] theorem State.writeNat_aways (s : State) (place n v : Nat) : (s.writeNat place n v).aways = s.aways := rfl
@[simp] theorem State.writeNat_ports (s : State) (place n v : Nat) : (s.writeNat place n v).ports = s.ports := rfl
@[simp] theorem State.writeNat_routes (s : State) (place n v : Nat) : (s.writeNat place n v).routes = s.routes := rfl
@[simp] theorem State.writeNat_ownRoutes (s : State) (place n v : Nat) : (s.writeNat place n v).ownRoutes = s.ownRoutes := rfl
@[simp] theorem State.writeNat_hub (s : State) (place n v : Nat) : (s.writeNat place n v).hub = s.hub := rfl
@[simp] theorem State.writeNat_test (s : State) (place n v : Nat) : (s.writeNat place n v).test = s.test := rfl
@[simp] theorem State.writeNat_host (s : State) (place n v : Nat) : (s.writeNat place n v).host = s.host := rfl
@[simp] theorem State.writeNat_plat (s : State) (place n v : Nat) : (s.writeNat place n v).plat = s.plat := rfl

/-! ## What they change -/

@[simp] theorem State.mapGroup_groups (s : State) (gid : Nat) (f : Group → Group) :
    (s.mapGroup gid f).groups = s.groups.map fun g => if g.id = gid then f g else g := rfl

@[simp] theorem State.mapTeam_teams (s : State) (tid : Nat) (f : Team → Team) :
    (s.mapTeam tid f).teams = s.teams.map fun t => if t.id = tid then f t else t := rfl

theorem find?_map_of_id {α : Type} (p : α → Bool) (h : α → α) (hp : ∀ x, p (h x) = p x) :
    ∀ xs : List α, (xs.map h).find? p = (xs.find? p).map h
  | [] => rfl
  | x :: r => by
    rw [List.map_cons, List.find?_cons, List.find?_cons, hp x]
    cases p x with
    | true => rfl
    | false => exact find?_map_of_id p h hp r

/-- The group with an identity after the update of one: the updated group, or the group as it was. -/
theorem State.group?_mapGroup (s : State) (gid x : Nat) (f : Group → Group) (hf : ∀ g, (f g).id = g.id) :
    (s.mapGroup gid f).group? x = (s.group? x).map fun g => if g.id = gid then f g else g := by
  unfold State.group? State.mapGroup
  apply find?_map_of_id
  intro g
  by_cases h : g.id = gid <;> simp [h, hf]

theorem State.group?_id {s : State} {gid : Nat} {g : Group} (h : s.group? gid = some g) : g.id = gid := by
  have := List.find?_some h
  simpa using this

theorem State.group?_mapGroup_same (s : State) (gid : Nat) (f : Group → Group) (hf : ∀ g, (f g).id = g.id) :
    (s.mapGroup gid f).group? gid = (s.group? gid).map f := by
  rw [State.group?_mapGroup s gid gid f hf]
  cases h : s.group? gid with
  | none => rfl
  | some g => simp [State.group?_id h]

theorem State.group?_mapGroup_other (s : State) {gid x : Nat} (f : Group → Group) (hf : ∀ g, (f g).id = g.id)
    (hx : x ≠ gid) : (s.mapGroup gid f).group? x = s.group? x := by
  rw [State.group?_mapGroup s gid x f hf]
  cases h : s.group? x with
  | none => rfl
  | some g => simp [State.group?_id h, hx]

@[simp] theorem State.group?_mapTeam (s : State) (tid x : Nat) (f : Team → Team) :
    (s.mapTeam tid f).group? x = s.group? x := rfl

@[simp] theorem State.team?_mapGroup (s : State) (gid x : Nat) (f : Group → Group) :
    (s.mapGroup gid f).team? x = s.team? x := rfl

@[simp] theorem State.group?_mapCtx (s : State) (c x : Nat) (f : Context → Context) :
    (s.mapCtx c f).group? x = s.group? x := rfl

@[simp] theorem State.group?_writeBytes (s : State) (bs : List (Nat × Byte)) (x : Nat) :
    (s.writeBytes bs).group? x = s.group? x := rfl

/-- The team with an identity after the update of one. -/
theorem State.team?_mapTeam (s : State) (tid x : Nat) (f : Team → Team) (hf : ∀ t, (f t).id = t.id) :
    (s.mapTeam tid f).team? x = (s.team? x).map fun t => if t.id = tid then f t else t := by
  unfold State.team? State.mapTeam
  apply find?_map_of_id
  intro t
  by_cases h : t.id = tid <;> simp [h, hf]

theorem State.team?_id {s : State} {tid : Nat} {t : Team} (h : s.team? tid = some t) : t.id = tid := by
  have := List.find?_some h
  simpa using this

/-- A context after the update of one. -/
theorem State.ctx_mapCtx (s : State) (c x : Nat) (f : Context → Context) :
    (s.mapCtx c f).ctx x = if x = c then f (s.ctx c) else s.ctx x := by
  simp [State.ctx, State.mapCtx, sget_sput]

/-- A core after the update of one. -/
theorem State.core_mapCore (s : State) (c x : Nat) (f : Core → Core) :
    (s.mapCore c f).core x = if x = c then f (s.core c) else s.core x := by
  simp [State.core, State.mapCore, sget_sput]

/-- A sector after the update of one. -/
theorem State.sector_mapSector (s : State) (n x : Nat) (f : Sector → Sector) :
    (s.mapSector n f).sector x = if x = n then f (s.sector n) else s.sector x := by
  simp [State.sector, State.mapSector, sget_sput]

/-! ## Lanes -/

@[simp] theorem Group.mapLanes_id (g : Group) (f : Nat → Lane → Lane) : (g.mapLanes f).id = g.id := rfl

@[simp] theorem Group.mapLane_id (g : Group) (j : Nat) (f : Lane → Lane) : (g.mapLane j f).id = g.id := rfl

/-- A lane of a group whose lanes have been updated. -/
theorem Group.lane_mapLanes (g : Group) (f : Nat → Lane → Lane) {j : Nat} (h : j < g.lanes.length) :
    (g.mapLanes f).lane j = f j (g.lane j) := by
  simp [Group.lane, Group.mapLanes, List.getD, h]

/-- The updated lane, and the others. -/
theorem Group.lane_mapLane (g : Group) (i j : Nat) (f : Lane → Lane) (h : j < g.lanes.length) :
    (g.mapLane i f).lane j = if j = i then f (g.lane j) else g.lane j := by
  unfold Group.mapLane
  rw [Group.lane_mapLanes g _ h]

/-! ## Memory -/

/-- A byte after writes that do not name it. -/
theorem State.byte_writeBytes_other (s : State) (bs : List (Nat × Byte)) (a : Nat) (h : ∀ e ∈ bs, e.1 ≠ a) :
    (s.writeBytes bs).byte a = s.byte a := sget_sputAll_other bs a s.mem h

/-- A byte just written. -/
theorem State.byte_writeBytes_one (s : State) (a : Nat) (b : Byte) : (s.writeBytes [(a, b)]).byte a = b := by
  simp [State.byte, State.writeBytes, sputAll]

/-- Writes keep memory in its canonical form. -/
theorem State.wf_writeBytes (s : State) (bs : List (Nat × Byte)) (h : Memory.wf s.mem) : Memory.wf (s.writeBytes bs).mem :=
  swf_sputAll bs s.mem h

theorem State.wf_writeNat (s : State) (place n v : Nat) (h : Memory.wf s.mem) : Memory.wf (s.writeNat place n v).mem :=
  s.wf_writeBytes _ h

theorem State.wf_reset : Memory.wf State.reset.mem := rfl

end Sys2Proof.Machine
end

