-- ==== Sys2Proof/Laws/Issue.lean ====
section
/-! SUPPORT. What an issue of one of the 170 instructions can do (runCore), said once. -/

namespace Sys2Proof.Machine

/-! ## Masks of lanes -/

theorem getLsbD_maskOf_from (ls : List Nat) (j : Nat) (hj : j < 32) :
    ∀ m : LaneMask, (ls.foldl (fun m i => m ||| BitVec.ofNat 32 (2 ^ i)) m).getLsbD j = (m.getLsbD j || decide (j ∈ ls)) := by
  induction ls with
  | nil => intro m; simp
  | cons x r ih =>
    intro m
    rw [List.foldl_cons, ih, BitVec.getLsbD_or]
    have hx : (BitVec.ofNat 32 (2 ^ x)).getLsbD j = decide (j = x) := by
      rw [BitVec.getLsbD_ofNat]
      simp [hj, Nat.testBit_two_pow, eq_comm]
    rw [hx]
    by_cases h : j = x <;> simp [h]

/-- A lane is in the mask of a list of lanes where the list holds it. -/
theorem getLsbD_maskOf (ls : List Nat) {j : Nat} (hj : j < 32) : (maskOf ls).getLsbD j = decide (j ∈ ls) := by
  unfold maskOf
  rw [getLsbD_maskOf_from ls j hj 0]
  simp

theorem mem_lanesOf (m : LaneMask) (j : Nat) : j ∈ lanesOf m ↔ j < 32 ∧ m.getLsbD j = true := by
  simp [lanesOf]

@[simp] theorem maskOf_lanesOf (m : LaneMask) : maskOf (lanesOf m) = m := by
  apply BitVec.eq_of_getLsbD_eq
  intro j hj
  rw [getLsbD_maskOf _ hj]
  by_cases h : m.getLsbD j <;> simp [mem_lanesOf, hj, h]

/-- The lanes of the mask of a filtered list of lanes. -/
theorem lanesOf_maskOf (p : Nat → Bool) (m : LaneMask) : lanesOf (maskOf ((lanesOf m).filter p)) = (lanesOf m).filter p := by
  unfold lanesOf
  rw [List.filter_filter]
  apply List.filter_congr
  intro j hj
  rw [getLsbD_maskOf _ (List.mem_range.1 hj)]
  have hj' := List.mem_range.1 hj
  by_cases h1 : p j <;> by_cases h2 : m.getLsbD j <;> simp [h1, h2, hj']

theorem lanes_env (i : Instr) (s : State) (iss : Issue) (g : Group) (t : Team) :
    lanesOf (issueEnv i s iss g t).cs = (lanesOf iss.lanes).filter fun j => !(drainLanes i g iss.lanes).contains j :=
  lanesOf_maskOf _ _

theorem actors_sub (i : Instr) (f : Fields) (e : Env) {j : Nat} (h : j ∈ actors i f e) : j ∈ lanesOf e.cs := by
  unfold actors at h
  split at h
  · exact h
  · exact (List.mem_filter.1 h).1

theorem foldl_id {α β : Type} (f : β → α → β) (b : β) : ∀ xs : List α, (∀ x ∈ xs, f b x = b) → xs.foldl f b = b
  | [], _ => rfl
  | x :: r, h => by
    rw [List.foldl_cons, h x (List.mem_cons_self ..)]
    exact foldl_id f b r fun y hy => h y (List.mem_cons_of_mem _ hy)

theorem filter_all {α : Type} (p : α → Bool) : ∀ xs : List α, (∀ x ∈ xs, p x = true) → xs.filter p = xs := by
  intro xs h
  rw [List.filter_eq_self]
  exact h

theorem filter_none {α : Type} (p : α → Bool) : ∀ xs : List α, (∀ x ∈ xs, p x = false) → xs.filter p = [] := by
  intro xs h
  rw [List.filter_eq_nil_iff]
  intro x hx
  simp [h x hx]

theorem mapIdx_congr {α : Type} (xs : List α) (f g : Nat → α → α) (h : ∀ j (hj : j < xs.length), f j xs[j] = g j xs[j]) :
    xs.mapIdx f = xs.mapIdx g := by
  apply List.ext_getElem
  · simp
  · intro j h1 h2
    simp only [List.getElem_mapIdx]
    exact h j (by simpa using h1)

theorem lane_getElem (g : Group) {j : Nat} (hj : j < g.lanes.length) : g.lanes[j] = g.lane j := by
  simp [Group.lane, List.getD, hj]

/-! ## Lanes -/

theorem without_none (q : Pending) : q.without ([] : List Place).contains = q := by
  cases q
  simp [Pending.without]

theorem supersede_none (l : Lane) : l.supersede [] = l := by
  unfold Lane.supersede
  split
  · rfl
  · simp only [funext without_none, List.map_id']

theorem takeOver_none (e : Env) (j : Nat) (l : Lane) : e.takeOver j [] l = l := supersede_none l

theorem movedOver_none (e : Env) (acting : List Nat) (go : Nat → Lane → Lane) : e.movedOver [] acting go = e.moved acting go := by
  funext g
  unfold Env.movedOver Env.moved
  simp only [takeOver_none]

/-! ## The group after an issue -/

/-- The completion of an issue as the instruction's acting lanes have it. -/
abbrev completionOf (i : Instr) (f : Fields) (e : Env) (acting : List Nat) (out : Nat → LaneOut) : Completion :=
  e.g.completion (kindOf i) e.s.now e.s.clk.toNat e.s.ids e.m f.la.toNat e.cs acting out

/-- A group after an issue in which no lane faults, lane by lane. -/
theorem gives_moved (i : Instr) (f : Fields) (e : Env) (acting : List Nat) (out : Nat → LaneOut) (go : Nat → Lane → Lane)
    (hfault : ∀ j ∈ acting, (out j).fault = none)
    (hgo : ∀ j ∈ acting, ∀ l : Lane, l.complete (completionOf i f e acting out) j (out j) = go j l) (g : Group) :
    e.gives i f acting out g =
      { e.movedOver (sharedPlaces acting out) acting go g with
        scalars := if kindOf i = .l then g.scalars else putScalars g.scalars (leadWrites acting out) } := by
  have hdone : (acting.filter fun j => (out j).fault.isNone) = acting := filter_all _ _ fun j hj => by simp [hfault j hj]
  have hfail : (acting.filter fun j => (out j).fault.isSome) = [] := filter_none _ _ fun j hj => by simp [hfault j hj]
  have hlanes : (g.mapLanes fun j l =>
      if ([] : List Nat).contains j then { e.takeOver j (sharedPlaces acting out) l with status := .stalled true }
      else if acting.contains j then (e.takeOver j (sharedPlaces acting out) l).complete (completionOf i f e acting out) j (out j)
      else if !e.cs.getLsbD j || ([] : List Nat).contains j then e.takeOver j (sharedPlaces acting out) l
      else ((e.takeOver j (sharedPlaces acting out) l).countDown.advance e.m).settle (e.s.clk.toNat + 1)) =
      e.movedOver (sharedPlaces acting out) acting go g := by
    unfold Env.movedOver Group.mapLanes
    congr 1
    apply mapIdx_congr
    intro j hj
    by_cases hA : j ∈ acting
    · simp [hA, hgo j hA]
    · by_cases hc : e.cs.getLsbD j = true <;> simp [hA, hc, Lane.past, Lane.onward]
  unfold Env.gives Group.issued
  simp only [hdone, hfail]
  rw [show (g.mapLanes fun j l =>
      let l := l.supersede ((completionOf i f e acting out).shared.filter ((completionOf i f e acting out).keeps j))
      if ([] : List Nat).contains j then { l with status := .stalled true }
      else if acting.contains j then l.complete (completionOf i f e acting out) j (out j)
      else if !e.cs.getLsbD j || ([] : List Nat).contains j then l
      else (l.countDown.advance (completionOf i f e acting out).len).settle ((completionOf i f e acting out).stamp + 1)) =
      e.movedOver (sharedPlaces acting out) acting go g from hlanes]
  by_cases hk : kindOf i = .l
  · rw [if_pos hk, if_pos (show (completionOf i f e acting out).kind = .l from hk)]
    rfl
  · rw [if_neg hk, if_neg (show ¬ (completionOf i f e acting out).kind = .l from hk)]
    rfl

/-- A lane that completes an instruction of kind S, N or D and goes on. -/
theorem complete_next {l : Lane} {c : Completion} {o : LaneOut} (hk : c.kind ≠ .l) (hf : o.flow = .next) (j : Nat) :
    l.complete c j o = (o.change (((l.supersede ((ownOf o.allPlaces).filter (c.keeps j))).countDown).putAll c.budget o.writes)).onward
      c.len c.stamp := by
  unfold Lane.complete
  rw [hf]
  simp only [Lane.finish, if_neg hk, Lane.follow, hf]
  rfl

/-- A lane that completes an instruction of kind S, N or D that goes to another address. -/
theorem complete_jump {l : Lane} {c : Completion} {o : LaneOut} {pc : DWord} {fe : Fetch} (hk : c.kind ≠ .l)
    (hf : o.flow = .jump pc fe) (j : Nat) :
    l.complete c j o =
      { o.change (((l.supersede ((ownOf o.allPlaces).filter (c.keeps j))).countDown).putAll c.budget o.writes) with
        pc := pc, fetch := fe }.settle (c.stamp + 1) := by
  unfold Lane.complete
  rw [hf]
  simp only [Lane.finish, if_neg hk, Lane.follow, hf]
  rfl

/-- A lane that waits without a result, its instruction done but for the wait or to be executed again. -/
theorem complete_wait {l : Lane} {c : Completion} {o : LaneOut} {w : Wait} {tm : Option Timer} (hk : c.kind ≠ .l)
    (hf : o.flow = .wait w tm) (hw : o.writes = []) (hp : o.places = []) (hc : ∀ l, o.change l = l) (j : Nat) :
    l.complete c j o = l.waits w tm := by
  unfold Lane.complete
  rw [hf]
  simp only [hc, Lane.waits]
  split
  · rfl
  · simp [Lane.finish, LaneOut.allPlaces, hw, hp, supersede_none, hk, Lane.putAll, hc, Lane.follow, hf]

/-- A lane that completes an instruction of kind L: its results are outstanding. -/
theorem complete_owes {l : Lane} {i : Instr} {f : Fields} {e : Env} {acting : List Nat} {out : Nat → LaneOut} {j : Nat}
    (hk : kindOf i = .l) (hf : (out j).flow = .next) (hc : ∀ l, (out j).change l = l) :
    l.complete (completionOf i f e acting out) j (out j) = e.owes f.la.toNat acting out j l := by
  have hk' : (completionOf i f e acting out).kind = .l := hk
  unfold Lane.complete
  rw [hf]
  simp only [Lane.finish, hk', if_true, Lane.follow, hf, hc]
  rfl

theorem putScalars_none (ws : List Write) : ∀ m : Sparse Word, (∀ w ∈ ws, w.place.isScalar = false) → putScalars m ws = m := by
  unfold putScalars
  induction ws with
  | nil => exact fun m _ => rfl
  | cons w r ih =>
    intro m hw
    rw [List.foldl_cons]
    have h1 := hw w (List.mem_cons_self ..)
    cases hp : w.place with
    | scalar n => simp [hp, Place.isScalar] at h1
    | ring x => simp only []; exact ih m fun w hw' => hw w (List.mem_cons_of_mem _ hw')
    | pred k => simp only []; exact ih m fun w hw' => hw w (List.mem_cons_of_mem _ hw')

/-! ## The issue -/

/-- A sound issue executes its instruction on the lanes that can name their registers, and raises IllegalInstruction on the
others. -/
theorem runCore_sound {i : Instr} {f : Fields} {s : State} {iss : Issue} {g : Group} {t : Team} (h : Sound i f s iss g t)
    (body : Body) :
    runCore i f body s = ({ s with issue := none } : State).runBody i f body iss (issueEnv i s iss g t) (drainLanes i g iss.lanes) := by
  have hg : ({ s with issue := none } : State).group? iss.gid = some g := h.group
  have ht : ({ s with issue := none } : State).team? g.team = some t := h.team
  have hchk := h.checks
  have hfree := h.free
  unfold issueEnv at hchk hfree
  unfold runCore
  simp only [h.issue, hg, ht, hchk, hfree, List.isEmpty_nil, Bool.not_true, Bool.false_eq_true, if_false]
  rfl

/-- An issue whose acting lanes can all name their registers: what the body did outside the lanes, then the group's lanes, then what
follows. -/
theorem runCore_issues {i : Instr} {f : Fields} {s : State} {iss : Issue} {g : Group} {t : Team} (h : Issues i f s iss g t)
    (body : Body) {r : State} {out : Nat → LaneOut}
    (hb : body (issueEnv i s iss g t) (actors i f (issueEnv i s iss g t)) s.taken = (r, out)) :
    ∃ t', runCore i f body s = t'.conclude iss.gid iss [] [] (actors i f (issueEnv i s iss g t)) out ∧
      Leaves r t' iss.gid fun x =>
        ((issueEnv i s iss g t).gives i f (actors i f (issueEnv i s iss g t)) out x).stalling (drainLanes i g iss.lanes) := by
  have hid : g.id = iss.gid := State.group?_id h.group
  rw [runCore_sound h.toSound]
  unfold State.runBody
  simp only [h.calm]
  have hsound : ((actors i f (issueEnv i s iss g t)).filter fun j => !([] : List Nat).contains j) = actors i f (issueEnv i s iss g t) :=
    filter_all _ _ fun _ _ => by simp
  have hgood : ((actors i f (issueEnv i s iss g t)).filter fun j => namesGood i f (issueEnv i s iss g t) j) =
      actors i f (issueEnv i s iss g t) := filter_all _ _ h.names
  have hbad : ((actors i f (issueEnv i s iss g t)).filter fun j => !namesGood i f (issueEnv i s iss g t) j) = [] :=
    filter_none _ _ fun j hj => by simp [h.names j hj]
  simp only [hsound, hgood, hbad, List.nil_append]
  have htk : ({ s with issue := none, ids := s.ids + 1 } : State) = s.taken := rfl
  simp only [htk, hb]
  have hgid : (issueEnv i s iss g t).g.id = iss.gid := hid
  simp only [hgid]
  refine ⟨_, rfl, ?_⟩
  generalize hA : actors i f (issueEnv i s iss g t) = A
  generalize hD : (A.filter fun j => (out j).fault.isNone) = D
  generalize hF : (A.filter fun j => (out j).fault.isSome) = F
  have hDsub : ∀ j ∈ D, j ∈ lanesOf (issueEnv i s iss g t).cs := by
    intro j hj
    rw [← hD] at hj
    exact actors_sub i f _ (hA ▸ (List.mem_filter.1 hj).1)
  have hstall : ∀ j ∈ drainLanes i g iss.lanes, j ∉ D ∧ (issueEnv i s iss g t).cs.getLsbD j = false := by
    intro j hj
    have hn : j ∉ lanesOf (issueEnv i s iss g t).cs := by
      rw [lanes_env]
      simp [hj]
    refine ⟨fun hd => hn (hDsub j hd), ?_⟩
    have h32 : j < 32 := ((mem_lanesOf _ _).1 (List.mem_filter.1 hj).1).1
    cases hc : (issueEnv i s iss g t).cs.getLsbD j with
    | false => rfl
    | true => exact absurd ((mem_lanesOf _ _).2 ⟨h32, hc⟩) hn
  have key : ∀ c x, Group.issued c (issueEnv i s iss g t).cs (drainLanes i g iss.lanes) D F out x =
      (Group.issued c (issueEnv i s iss g t).cs [] D F out x).stalling (drainLanes i g iss.lanes) := by
    intro c x
    unfold Group.issued Group.stalling Group.mapLanes
    split <;>
    · simp only [List.mapIdx_mapIdx, Group.mk.injEq, true_and]
      apply mapIdx_congr
      intro j hj
      simp only [Function.comp]
      by_cases hs : j ∈ drainLanes i g iss.lanes
      · simp [hs, (hstall j hs).1, (hstall j hs).2]
      · simp [hs]
  have hw : ∀ x : Group, (Group.issued
      ((issueEnv i s iss g t).g.completion (kindOf i) (issueEnv i s iss g t).s.now (issueEnv i s iss g t).s.clk.toNat
        ({ s with issue := none } : State).ids (issueEnv i s iss g t).m f.la.toNat (issueEnv i s iss g t).cs D out)
      (issueEnv i s iss g t).cs (drainLanes i g iss.lanes) D F out x).id = x.id := by
    intro x
    unfold Group.issued
    split <;> rfl
  refine ⟨?_, ?_, rfl⟩
  · rw [State.group?_mapGroup_same _ _ _ hw]
    congr 1
    funext x
    rw [key]
    unfold Env.gives
    simp only [hD, hF]
    rfl
  · intro x hx
    exact State.group?_mapGroup_other _ _ hw hx

/-- Where no acting lane faults, enters a handler or is parked as fatal, nothing follows an issue. -/
theorem conclude_none (s : State) (gid : Nat) (iss : Issue) (acting : List Nat) (out : Nat → LaneOut)
    (hfault : ∀ j ∈ acting, (out j).fault = none) (htrap : ∀ j ∈ acting, ∀ x, (out j).flow ≠ .trap x)
    (hfatal : ∀ j ∈ acting, ∀ x, (out j).flow ≠ .fatal x) : s.conclude gid iss [] [] acting out = s := by
  unfold State.conclude
  have hdone : (acting.filter fun j => (out j).fault.isNone) = acting := filter_all _ _ fun j hj => by simp [hfault j hj]
  have hfail : (acting.filter fun j => (out j).fault.isSome) = [] := filter_none _ _ fun j hj => by simp [hfault j hj]
  have hraise : ∀ s0 : State, s0.raiseFaults gid iss.len [] [] [] out = s0 := by
    intro s0
    unfold State.raiseFaults State.raiseFault
    simp
    split <;> rfl
  have htr : ∀ s0 : State, s0.takeTraps gid iss acting out = s0 := by
    intro s0
    apply foldl_id
    intro j hj
    split
    · rename_i x hx
      exact absurd hx (htrap j hj x)
    · rfl
  have hdead : fatalLanes acting out = [] := by
    unfold fatalLanes
    rw [List.filterMap_eq_nil_iff]
    intro j hj
    split
    · rename_i x hx
      exact absurd hx (hfatal j hj x)
    · rfl
  simp only [hdone, hfail, hraise, htr, hdead]

/-- What an issue leaves whose acting lanes all go on, from what it does to each of them. -/
theorem issue_moved {i : Instr} {f : Fields} {s : State} {iss : Issue} {g : Group} {t : Team} (h : Issues i f s iss g t)
    (body : Body) {r : State} {out : Nat → LaneOut}
    (hb : body (issueEnv i s iss g t) (actors i f (issueEnv i s iss g t)) s.taken = (r, out)) (go : Nat → Lane → Lane)
    (hfault : ∀ j ∈ actors i f (issueEnv i s iss g t), (out j).fault = none)
    (htrap : ∀ j ∈ actors i f (issueEnv i s iss g t), ∀ x, (out j).flow ≠ .trap x)
    (hfatal : ∀ j ∈ actors i f (issueEnv i s iss g t), ∀ x, (out j).flow ≠ .fatal x)
    (hgo : ∀ j ∈ actors i f (issueEnv i s iss g t), ∀ l : Lane,
      l.complete (completionOf i f (issueEnv i s iss g t) (actors i f (issueEnv i s iss g t)) out) j (out j) = go j l) :
    Leaves r (runCore i f body s) iss.gid fun x =>
      ({ (issueEnv i s iss g t).movedOver (sharedPlaces (actors i f (issueEnv i s iss g t)) out) (actors i f (issueEnv i s iss g t))
          go x with
        scalars := if kindOf i = .l then x.scalars
                   else putScalars x.scalars (leadWrites (actors i f (issueEnv i s iss g t)) out) } : Group).stalling
        (drainLanes i g iss.lanes) := by
  obtain ⟨t', ht, hl⟩ := runCore_issues h body hb
  rw [conclude_none _ _ _ _ _ hfault htrap hfatal] at ht
  rw [ht]
  refine ⟨hl.group.trans (congrArg (fun c => (r.group? iss.gid).map c) (funext fun x => ?_)), hl.others, hl.rest⟩
  rw [gives_moved i f _ _ out go hfault hgo]

/-- An instruction of kind S, N or D whose acting lanes take the writes ws. -/
theorem issue_wrote {i : Instr} {f : Fields} {s : State} {iss : Issue} {g : Group} {t : Team} (h : Issues i f s iss g t)
    (hk : kindOf i ≠ .l) (body : Body) {r : State} {out : Nat → LaneOut} (ws : Nat → List Write)
    (hb : body (issueEnv i s iss g t) (actors i f (issueEnv i s iss g t)) s.taken = (r, out))
    (hout : ∀ j ∈ actors i f (issueEnv i s iss g t), out j = { writes := ws j })
    (huni : ∀ j ∈ actors i f (issueEnv i s iss g t), ∀ k ∈ actors i f (issueEnv i s iss g t),
      (ws j).any (fun w => w.place.isScalar) = (ws k).any fun w => w.place.isScalar) :
    Leaves r (runCore i f body s) iss.gid fun x =>
      ((issueEnv i s iss g t).wrote (actors i f (issueEnv i s iss g t)) ws x).stalling (drainLanes i g iss.lanes) := by
  have hl := issue_moved h body hb (fun j l =>
      (((issueEnv i s iss g t).takeOver j (ownOf (placesOf (ws j))) l).countDown.putAll (issueEnv i s iss g t).g.budget (ws j)).onward
        (issueEnv i s iss g t).m (issueEnv i s iss g t).s.clk.toNat)
    (fun j hj => by rw [hout j hj]) (fun j hj x => by rw [hout j hj]; simp) (fun j hj x => by rw [hout j hj]; simp)
    (fun j hj l => by
      rw [complete_next (show (completionOf i f (issueEnv i s iss g t) (actors i f (issueEnv i s iss g t)) out).kind ≠ .l from hk)
        (by rw [hout j hj]), hout j hj]
      simp only [LaneOut.allPlaces, List.append_nil, id_eq]
      rfl)
  simp only [hk, if_false] at hl
  have hlead : leadWrites (actors i f (issueEnv i s iss g t)) out = leadOfWrites (actors i f (issueEnv i s iss g t)) ws ∧
      sharedPlaces (actors i f (issueEnv i s iss g t)) out = sharedOf (placesOf (leadOfWrites (actors i f (issueEnv i s iss g t)) ws)) ∨
      (∀ w ∈ leadOfWrites (actors i f (issueEnv i s iss g t)) ws, w.place.isScalar = false) ∧
        leadWrites (actors i f (issueEnv i s iss g t)) out = [] ∧ sharedPlaces (actors i f (issueEnv i s iss g t)) out = [] := by
    unfold leadWrites sharedPlaces leadOf leadOfWrites
    cases hA : actors i f (issueEnv i s iss g t) with
    | nil => left; exact ⟨rfl, rfl⟩
    | cons x r' =>
      rw [hA] at hout huni
      have hx : out x = { writes := ws x } := hout x (List.mem_cons_self ..)
      have hany : ∀ j ∈ x :: r', (out j).allPlaces.any Place.isScalar = (ws x).any fun w => w.place.isScalar := by
        intro j hj
        rw [hout j hj, ← huni j hj x (List.mem_cons_self ..)]
        simp [LaneOut.allPlaces, List.any_map, Function.comp_def]
      by_cases hsx : ((ws x).any fun w => w.place.isScalar) = true
      · left
        rw [List.find?_cons_of_pos (by rw [hany x (List.mem_cons_self ..)]; exact hsx)]
        simp [hx, LaneOut.allPlaces, sharedOf, placesOf]
      · right
        have hnone : (x :: r').find? (fun j => (out j).allPlaces.any Place.isScalar) = none := by
          rw [List.find?_eq_none]
          intro j hj
          rw [hany j hj]
          exact hsx
        rw [hnone]
        refine ⟨?_, rfl, rfl⟩
        intro w hw
        have := List.any_eq_false.1 (by simpa using hsx) w (by simpa using hw)
        simpa using this
  refine ⟨hl.group.trans (congrArg (fun c => (r.group? iss.gid).map c) (funext fun x => ?_)), hl.others, hl.rest⟩
  refine congrArg (Group.stalling (drainLanes i g iss.lanes)) ?_
  unfold Env.wrote
  rcases hlead with ⟨h1, h2⟩ | ⟨h0, h1, h2⟩
  · rw [h1, h2]
  · rw [h1, h2, putScalars_none _ _ h0]
    have hs : sharedOf (placesOf (leadOfWrites (actors i f (issueEnv i s iss g t)) ws)) = [] := by
      unfold sharedOf placesOf
      rw [List.filter_eq_nil_iff]
      intro p hp
      obtain ⟨w, hw, rfl⟩ := List.mem_map.1 hp
      simp [h0 w hw]
    rw [hs]
    rfl

/-- An instruction of kind L: the acting lanes await its results. -/
theorem issue_awaiting {i : Instr} {f : Fields} {s : State} {iss : Issue} {g : Group} {t : Team} (h : Issues i f s iss g t)
    (hk : kindOf i = .l) (body : Body) {r : State} {out : Nat → LaneOut}
    (hb : body (issueEnv i s iss g t) (actors i f (issueEnv i s iss g t)) s.taken = (r, out))
    (hout : ∀ j ∈ actors i f (issueEnv i s iss g t), (out j).fault = none ∧ (out j).flow = .next ∧ ∀ l, (out j).change l = l) :
    Leaves r (runCore i f body s) iss.gid fun x =>
      ((issueEnv i s iss g t).awaiting f.la.toNat (actors i f (issueEnv i s iss g t)) out x).stalling
        (drainLanes i g iss.lanes) := by
  have hl := issue_moved h body hb ((issueEnv i s iss g t).owes f.la.toNat (actors i f (issueEnv i s iss g t)) out)
    (fun j hj => (hout j hj).1) (fun j hj x => by rw [(hout j hj).2.1]; simp)
    (fun j hj x => by rw [(hout j hj).2.1]; simp)
    (fun j hj l => complete_owes hk (hout j hj).2.1 (hout j hj).2.2)
  refine ⟨hl.group.trans (congrArg (fun c => (r.group? iss.gid).map c) (funext fun x => ?_)), hl.others, hl.rest⟩
  refine congrArg (Group.stalling (drainLanes i g iss.lanes)) ?_
  rw [if_pos hk]
  rfl

theorem isScalar_setReg (e : Env) (j : Nat) (n : BitVec 7) (v : Word) :
    (e.setReg j n v).any (fun w => w.place.isScalar) = decide (0x60 ≤ n.toNat ∧ n.toNat < 0x70) := by
  unfold Env.setReg placeOf
  simp only []
  by_cases h1 : n.toNat < 0x10
  · simp [h1, Place.isScalar]; omega
  · by_cases h2 : n.toNat < 0x50
    · simp [h1, h2, Place.isScalar]; omega
    · by_cases h3 : n.toNat < 0x60
      · simp [h1, h2, h3, Place.isScalar]; try omega
      · by_cases h4 : n.toNat < 0x70
        · simp [h1, h2, h3, h4, Place.isScalar]; omega
        · simp [h1, h2, h3, h4]

theorem isScalar_setPred (k : Nat) (b : Bool) : (setPred k b).any (fun w => w.place.isScalar) = false := rfl

theorem isScalar_setPair (e : Env) (j : Nat) (n : BitVec 7) (v : DWord) :
    (e.setPair j n v).any (fun w => w.place.isScalar) =
      (decide (0x60 ≤ n.toNat ∧ n.toNat < 0x70) || decide (0x60 ≤ (n + 1).toNat ∧ (n + 1).toNat < 0x70)) := by
  unfold Env.setPair
  rw [List.any_append, isScalar_setReg, isScalar_setReg]

/-! ## Completion -/

/-- An instruction whose body writes registers and predicates and does nothing else. -/
theorem completes_wrote {i : Instr} {f : Fields} (hk : kindOf i ≠ .l) (holds : Env → List Nat → Prop)
    (ws : Env → List Nat → Nat → List Write) (body : Body) (hx : ∀ s, exec i s = .next (runCore i f body s))
    (hb : ∀ e ls s, holds e ls → (body e ls s).1 = s ∧ ∀ j ∈ ls, (body e ls s).2 j = { writes := ws e ls j })
    (hu : ∀ e ls j k, (ws e ls j).any (fun w => w.place.isScalar) = (ws e ls k).any fun w => w.place.isScalar) :
    Completes i f holds (fun _ _ s => s) fun e ls => e.wrote ls (ws e ls) := by
  intro s iss g t h hh
  obtain ⟨h1, h2⟩ := hb (issueEnv i s iss g t) (actors i f (issueEnv i s iss g t)) s.taken hh
  refine ⟨_, hx s, ?_⟩
  exact issue_wrote h hk body (ws (issueEnv i s iss g t) (actors i f (issueEnv i s iss g t)))
    (Prod.ext h1 rfl) h2 (fun j _ k _ => hu _ _ j k)

/-- A body that acts on each lane by itself and only writes. -/
theorem writes_perLane {i : Instr} {f : Fields} (hk : kindOf i ≠ .l) (ws : Env → Nat → List Write)
    (hx : ∀ s, exec i s = .next (runCore i f (perLane fun e j => { writes := ws e j }) s))
    (hu : ∀ e j k, (ws e j).any (fun w => w.place.isScalar) = (ws e k).any fun w => w.place.isScalar) : Writes i f ws :=
  completes_wrote hk _ (fun e _ => ws e) _ hx (fun _ _ _ _ => ⟨rfl, fun _ _ => rfl⟩) fun e _ => hu e

/-- An instruction in the terms of what its body does outside the lanes and to each of them. -/
theorem acts_of_body {i : Instr} {f : Fields} (holds : Env → List Nat → Prop) (effect : Env → List Nat → State → State)
    (out : Env → List Nat → Nat → LaneOut) (body : Body) (hx : ∀ s, exec i s = .next (runCore i f body s))
    (hb : ∀ e ls s, holds e ls → body e ls s = (effect e ls s, out e ls)) : Acts i f holds effect out := by
  intro s iss g t h hh
  obtain ⟨t', h1, h2⟩ := runCore_issues h body (hb _ _ s.taken hh)
  exact ⟨t', by rw [hx, h1], h2⟩

end Sys2Proof.Machine
end

