-- ==== Sys2Proof/Laws/Integer.lean ====
section
/-! SUPPORT. The integer operations of Flags and Integer as operations on numbers (R119 to R137). -/

namespace Sys2Proof.Machine

theorem bits32_add (a b : Word) : bits32 (a.toInt + b.toInt) = BitVec.ofNat 32 (a.toNat + b.toNat) := by
  unfold bits32
  rw [BitVec.ofInt_add]
  simp [BitVec.ofNat_add]

theorem clamp_eq (lo hi v : Int) (h : lo ≤ hi) : clamp lo hi v = max lo (min v hi) := by
  unfold clamp
  split
  · omega
  · split <;> omega

theorem mul_eq_ofNat (a b : Word) : a * b = BitVec.ofNat 32 (a.toNat * b.toNat) := by
  apply BitVec.eq_of_toNat_eq
  simp [BitVec.toNat_mul]

theorem shiftLeft_eq (c : Bool) (a b : Word) : shiftLeft c a b = BitVec.ofNat 32 (a.toNat * 2 ^ shiftBy c b) := by
  unfold shiftLeft
  split
  · apply BitVec.eq_of_toNat_eq
    simp [BitVec.toNat_shiftLeft, Nat.shiftLeft_eq]
  · rename_i h
    apply BitVec.eq_of_toNat_eq
    have : 2 ^ shiftBy c b = 2 ^ 32 * 2 ^ (shiftBy c b - 32) := by rw [← Nat.pow_add]; congr 1; omega
    have h0 : a.toNat * (2 ^ 32 * 2 ^ (shiftBy c b - 32)) = 2 ^ 32 * (a.toNat * 2 ^ (shiftBy c b - 32)) := by
      simp only [Nat.mul_left_comm]
    rw [BitVec.toNat_ofNat, this, h0, Nat.mul_mod_right]
    rfl

theorem shiftRight_eq (c : Bool) (a b : Word) : shiftRight c a b = BitVec.ofNat 32 (a.toNat / 2 ^ shiftBy c b) := by
  unfold shiftRight
  have ha := a.isLt
  split
  · apply BitVec.eq_of_toNat_eq
    have : a.toNat / 2 ^ shiftBy c b < 2 ^ 32 := Nat.lt_of_le_of_lt (Nat.div_le_self _ _) ha
    rw [BitVec.toNat_ofNat, Nat.mod_eq_of_lt this, BitVec.toNat_ushiftRight, Nat.shiftRight_eq_div_pow]
  · rename_i h
    have : a.toNat / 2 ^ shiftBy c b = 0 :=
      Nat.div_eq_of_lt (Nat.lt_of_lt_of_le ha (Nat.pow_le_pow_right (by omega) (by omega)))
    rw [this]
    rfl

theorem int_div_pow_large (z : Int) (n : Nat) (h : -(2 : Int) ^ 31 ≤ z ∧ z < 2 ^ 31) (hn : 31 ≤ n) :
    z / 2 ^ n = z / 2 ^ 31 := by
  have hp : (2 : Int) ^ 31 ≤ 2 ^ n := by exact_mod_cast Nat.pow_le_pow_right (by omega : 0 < 2) hn
  have key : ∀ m : Int, (2 : Int) ^ 31 ≤ m → z / m = if 0 ≤ z then 0 else -1 := by
    intro m hm
    have hm0 : 0 < m := by omega
    split
    · exact Int.ediv_eq_zero_of_lt (by assumption) (by omega)
    · have h1 : z / m < 0 := Int.ediv_neg_of_neg_of_pos (by omega) hm0
      have h2 : -1 ≤ z / m := (Int.le_ediv_iff_mul_le hm0).2 (by omega)
      omega
  rw [key _ hp, key _ (Int.le_refl _)]

theorem shiftArith_eq (c : Bool) (a b : Word) : shiftArith c a b = BitVec.ofInt 32 (a.toInt / 2 ^ shiftBy c b) := by
  unfold shiftArith
  have h1 : -(2 : Int) ^ 31 ≤ a.toInt ∧ a.toInt < 2 ^ 31 := ⟨by have := a.le_toInt; simpa using this, by have := a.toInt_lt; simpa using this⟩
  rw [BitVec.sshiftRight, Int.shiftRight_eq_div_pow]
  congr 1
  by_cases h : shiftBy c b ≤ 31
  · rw [Nat.min_eq_left h]
    norm_cast
  · rw [Nat.min_eq_right (by omega), int_div_pow_large _ _ h1 (by omega)]
    norm_cast

theorem minOf_signed (a b : Word) : minOf false a b = BitVec.ofInt 32 (min a.toInt b.toInt) := by
  unfold minOf lessThan
  simp only [Bool.false_eq_true, if_false, BitVec.slt]
  by_cases h : b.toInt < a.toInt
  · rw [if_pos (by simpa using h), Int.min_eq_right (by omega), BitVec.ofInt_toInt]
  · rw [if_neg (by simpa using h), Int.min_eq_left (by omega), BitVec.ofInt_toInt]

theorem maxOf_signed (a b : Word) : maxOf false a b = BitVec.ofInt 32 (max a.toInt b.toInt) := by
  unfold maxOf lessThan
  simp only [Bool.false_eq_true, if_false, BitVec.slt]
  by_cases h : a.toInt < b.toInt
  · rw [if_pos (by simpa using h), Int.max_eq_right (by omega), BitVec.ofInt_toInt]
  · rw [if_neg (by simpa using h), Int.max_eq_left (by omega), BitVec.ofInt_toInt]

theorem minOf_unsigned (a b : Word) : minOf true a b = BitVec.ofNat 32 (min a.toNat b.toNat) := by
  unfold minOf lessThan
  simp only [if_true, BitVec.ult]
  by_cases h : b.toNat < a.toNat
  · rw [if_pos (by simpa using h), Nat.min_eq_right (by omega), BitVec.ofNat_toNat]; simp
  · rw [if_neg (by simpa using h), Nat.min_eq_left (by omega), BitVec.ofNat_toNat]; simp

theorem maxOf_unsigned (a b : Word) : maxOf true a b = BitVec.ofNat 32 (max a.toNat b.toNat) := by
  unfold maxOf lessThan
  simp only [if_true, BitVec.ult]
  by_cases h : a.toNat < b.toNat
  · rw [if_pos (by simpa using h), Nat.max_eq_right (by omega), BitVec.ofNat_toNat]; simp
  · rw [if_neg (by simpa using h), Nat.max_eq_left (by omega), BitVec.ofNat_toNat]; simp

theorem popCount_eq (a : Word) :
    popCount a = BitVec.ofNat 32 ((List.range 32).filter fun i => a.getLsbD i).length := by
  unfold popCount
  rw [List.countP_eq_length_filter]

/-- Bit i of a sum of distinct powers of two over a range. -/
theorem getLsbD_foldl_pow (p : Nat → Bool) (n : Nat) :
    ((List.range n).foldl (fun v i => if p i then v + 2 ^ i else v) 0 < 2 ^ n) ∧
    ∀ k, k < n → ((List.range n).foldl (fun v i => if p i then v + 2 ^ i else v) 0).testBit k = p k := by
  induction n with
  | zero => simp
  | succ n ih =>
    rw [List.range_succ, List.foldl_append, List.foldl_cons, List.foldl_nil]
    generalize hv : (List.range n).foldl (fun v i => if p i then v + 2 ^ i else v) 0 = v at *
    obtain ⟨h1, h2⟩ := ih
    split
    · rename_i hp
      refine ⟨by rw [Nat.pow_succ]; omega, ?_⟩
      intro k hk
      rw [Nat.add_comm]
      by_cases hkn : k = n
      · subst hkn
        rw [Nat.testBit_two_pow_add_eq, Nat.testBit_lt_two_pow h1, hp]
        rfl
      · rw [Nat.testBit_two_pow_add_gt (by omega)]
        exact h2 k (by omega)
    · rename_i hp
      refine ⟨by rw [Nat.pow_succ]; omega, ?_⟩
      intro k hk
      by_cases hkn : k = n
      · subst hkn
        rw [Nat.testBit_lt_two_pow h1]
        simpa using hp
      · exact h2 k (by omega)

theorem getLsbD_gather (p : Nat → Bool) {k : Nat} (hk : k < 32) :
    (BitVec.ofNat 32 ((List.range 32).foldl (fun v i => if p i then v + 2 ^ i else v) 0)).getLsbD k = p k := by
  rw [BitVec.getLsbD_ofNat, (getLsbD_foldl_pow p 32).2 k hk]
  simp [hk]

theorem reverseBits_eq (a : Word) : reverseBits a = a.reverse := by
  apply BitVec.eq_of_getLsbD_eq
  intro i hi
  unfold reverseBits
  rw [getLsbD_gather _ hi, BitVec.getLsbD_reverse, BitVec.getMsbD_eq_getLsbD]
  simp [hi]

theorem negate_eq (c : Bool) (a : Word) :
    negate c a = if c then BitVec.ofInt 32 (max (-2147483648) (min (-a.toInt) 2147483647)) else BitVec.ofInt 32 (-a.toInt) := by
  unfold negate bits32
  have hl : -(2 : Int) ^ 31 ≤ a.toInt := by have := a.le_toInt; simpa using this
  have hu : a.toInt < (2 : Int) ^ 31 := by have := a.toInt_lt; simpa using this
  cases c
  · simp
  · simp only [true_and, if_true]
    by_cases h : a = 0x80000000#32
    · subst h; rfl
    · rw [if_neg h]
      have : a.toInt ≠ -2147483648 := fun hc => h (BitVec.eq_of_toInt_eq (by rw [hc]; rfl))
      congr 1
      omega

theorem absolute_eq (c : Bool) (a : Word) :
    absolute c a = if c then BitVec.ofInt 32 (max (-2147483648) (min (max a.toInt (-a.toInt)) 2147483647))
      else BitVec.ofInt 32 (max a.toInt (-a.toInt)) := by
  unfold absolute bits32
  have hl : -(2 : Int) ^ 31 ≤ a.toInt := by have := a.le_toInt; simpa using this
  have hu : a.toInt < (2 : Int) ^ 31 := by have := a.toInt_lt; simpa using this
  have hn : ((a.toInt.natAbs : Nat) : Int) = max a.toInt (-a.toInt) := by omega
  rw [hn]
  cases c
  · simp
  · simp only [true_and, if_true]
    by_cases h : a = 0x80000000#32
    · subst h; rfl
    · rw [if_neg h]
      have : a.toInt ≠ -2147483648 := fun hc => h (BitVec.eq_of_toInt_eq (by rw [hc]; rfl))
      congr 1
      omega

theorem leadingZeros_eq (a : Word) : leadingZeros a = if a = 0 then 32 else BitVec.ofNat 32 (31 - a.toNat.log2) := by
  unfold leadingZeros
  by_cases h : a = 0
  · subst h
    rfl
  · rw [if_neg h]
    have hne : a.toNat ≠ 0 := fun hc => h (BitVec.eq_of_toNat_eq (by simpa using hc))
    have hlog : a.toNat.log2 < 32 := (Nat.log2_lt hne).2 a.isLt
    have hf : (List.range 32).find? (fun i => a.getLsbD (31 - i)) = some (31 - a.toNat.log2) := by
      rw [List.find?_range_eq_some]
      refine ⟨?_, by simp; omega, ?_⟩
      · rw [BitVec.getLsbD, show 31 - (31 - a.toNat.log2) = a.toNat.log2 by omega]
        exact Nat.testBit_log2 hne
      · intro j hj
        simp only [Bool.not_eq_true']
        rw [BitVec.getLsbD]
        apply Nat.testBit_lt_two_pow
        exact Nat.lt_of_lt_of_le (Nat.lt_log2_self) (Nat.pow_le_pow_right (by omega) (by omega))
    rw [hf]
    rfl

theorem rotateLeft_eq (a : Word) {k : Nat} (hk : k < 32) : a.rotateLeft k = (a <<< k) ||| (a >>> (32 - k)) := by
  rw [BitVec.rotateLeft, BitVec.rotateLeftAux, Nat.mod_eq_of_lt hk]

theorem rotateRight_eq (a : Word) {k : Nat} (hk : k < 32) : a.rotateRight k = (a >>> k) ||| (a <<< (32 - k)) := by
  rw [BitVec.rotateRight, BitVec.rotateRightAux, Nat.mod_eq_of_lt hk]

theorem extractField_eq (c : Bool) (a f : Word) :
    extractField c a f =
      if c ∧ 1 ≤ fieldLen f ∧ 2 ^ (fieldLen f - 1) ≤ a.toNat / 2 ^ fieldPos f % 2 ^ fieldLen f then
        BitVec.ofInt 32 (((a.toNat / 2 ^ fieldPos f % 2 ^ fieldLen f : Nat) : Int) - 2 ^ fieldLen f)
      else BitVec.ofNat 32 (a.toNat / 2 ^ fieldPos f % 2 ^ fieldLen f) := by
  unfold extractField bits32
  simp only []
  generalize fieldLen f = w
  generalize hx : a.toNat / 2 ^ fieldPos f % 2 ^ w = x
  have hlt : x < 2 ^ w := by rw [← hx]; exact Nat.mod_lt _ (Nat.two_pow_pos w)
  have hiff : 1 ≤ w → (x / 2 ^ (w - 1) % 2 = 1 ↔ 2 ^ (w - 1) ≤ x) := by
    intro hw
    obtain ⟨k, rfl⟩ : ∃ k, w = k + 1 := ⟨w - 1, by omega⟩
    simp only [Nat.add_sub_cancel]
    have hp := Nat.two_pow_pos k
    have h2 : x / 2 ^ k < 2 := (Nat.div_lt_iff_lt_mul hp).2 (by rw [Nat.pow_succ] at hlt; omega)
    have h1 : 1 ≤ x / 2 ^ k ↔ 2 ^ k ≤ x := by rw [Nat.le_div_iff_mul_le hp, Nat.one_mul]
    rw [← h1]
    generalize x / 2 ^ k = y at *
    omega
  by_cases hw : 1 ≤ w
  · simp only [hw, true_and, hiff hw]
  · simp only [hw, false_and, and_false, if_false]

theorem getLsbD_lowMask (w i : Nat) (hi : i < 32) : (BitVec.ofNat 32 (2 ^ w - 1)).getLsbD i = decide (i < w) := by
  rw [BitVec.getLsbD_ofNat, Nat.testBit_two_pow_sub_one]
  simp [hi]

theorem insertField_eq (a f r : Word) :
    insertField a f r =
      (r &&& ~~~(BitVec.ofNat 32 (2 ^ fieldLen f - 1) <<< fieldPos f)) |||
        ((a &&& BitVec.ofNat 32 (2 ^ fieldLen f - 1)) <<< fieldPos f) := by
  apply BitVec.eq_of_getLsbD_eq
  intro i hi
  unfold insertField
  simp only []
  rw [getLsbD_gather _ hi]
  simp only [BitVec.getLsbD_or, BitVec.getLsbD_and, BitVec.getLsbD_not, BitVec.getLsbD_shiftLeft, hi, decide_true, Bool.true_and]
  generalize fieldPos f = p
  generalize fieldLen f = w
  by_cases hp : i < p
  · simp [hp, show ¬ p ≤ i by omega]
  · have hpi : p ≤ i := by omega
    have h32 : i - p < 32 := by omega
    simp only [getLsbD_lowMask w _ h32]
    by_cases hw : i < p + w
    · have : i - p < w := by omega
      simp [hp, hpi, hw, this]
    · have : ¬ i - p < w := by omega
      simp [hp, hpi, hw, this]

/-- The relation of two words, on the numbers they stand for (R130). -/
theorem relation_eq (u : Bool) (a b : Word) (m : BitVec 8) :
    m.getLsbD (relation u a b) =
      (if u then (m.getLsbD 0 && decide ((a.toNat : Int) < b.toNat)) || (m.getLsbD 1 && decide ((a.toNat : Int) = b.toNat)) ||
          (m.getLsbD 2 && decide ((b.toNat : Int) < a.toNat))
       else (m.getLsbD 0 && decide (a.toInt < b.toInt)) || (m.getLsbD 1 && decide (a.toInt = b.toInt)) ||
          (m.getLsbD 2 && decide (b.toInt < a.toInt))) := by
  have hn : a = b ↔ a.toNat = b.toNat := ⟨fun h => by rw [h], fun h => BitVec.eq_of_toNat_eq h⟩
  have hz : a = b ↔ a.toInt = b.toInt := ⟨fun h => by rw [h], fun h => BitVec.eq_of_toInt_eq h⟩
  unfold relation lessThan
  cases u
  · simp only [Bool.false_eq_true, if_false, BitVec.slt, decide_eq_true_eq]
    by_cases h1 : a.toInt < b.toInt
    · have h2 : ¬ a.toInt = b.toInt := by omega
      have h3 : ¬ b.toInt < a.toInt := by omega
      simp [h1, h2, h3]
    · by_cases h2 : a.toInt = b.toInt
      · have h3 : ¬ b.toInt < a.toInt := by omega
        simp [hz.2 h2]
      · have h3 : b.toInt < a.toInt := by omega
        have h4 : ¬ a = b := fun h => h2 (hz.1 h)
        simp [h1, h2, h3, h4]
  · simp only [if_true, BitVec.ult, decide_eq_true_eq]
    by_cases h1 : a.toNat < b.toNat
    · have h2 : ¬ a.toNat = b.toNat := by omega
      have h3 : ¬ b.toNat < a.toNat := by omega
      have h4 : ((a.toNat : Int) < b.toNat) := by omega
      have h5 : ¬ ((a.toNat : Int) = b.toNat) := by omega
      have h6 : ¬ ((b.toNat : Int) < a.toNat) := by omega
      simp [h1, h3, h5]
    · by_cases h2 : a.toNat = b.toNat
      · simp [hn.2 h2]
      · have h3 : b.toNat < a.toNat := by omega
        have h4 : ¬ a = b := fun h => h2 (hn.1 h)
        have h5 : ¬ ((a.toNat : Int) = b.toNat) := by omega
        simp [h1, h3, h4, h5]

/-- MOD[5:4] as a number and by its bits (R130). -/
theorem combine_eq (m : BitVec 8) (t p : Bool) :
    combine (m.toNat / 2 ^ 4 % 2 ^ 2) t p =
      if m.getLsbD 5 then (if m.getLsbD 4 then t ^^ p else t || p) else if m.getLsbD 4 then t && p else t := by
  have h4 : m.getLsbD 4 = decide (m.toNat / 2 ^ 4 % 2 ^ 2 % 2 = 1) := by
    rw [BitVec.getLsbD, Nat.testBit_eq_decide_div_mod_eq]; congr 1; apply propext; omega
  have h5 : m.getLsbD 5 = decide (m.toNat / 2 ^ 4 % 2 ^ 2 / 2 % 2 = 1) := by
    rw [BitVec.getLsbD, Nat.testBit_eq_decide_div_mod_eq]; congr 1; apply propext; omega
  have hb : m.toNat / 2 ^ 4 % 2 ^ 2 < 4 := Nat.mod_lt _ (by omega)
  rw [h4, h5]
  generalize m.toNat / 2 ^ 4 % 2 ^ 2 = c at *
  match c, hb with
  | 0, _ => rfl
  | 1, _ => rfl
  | 2, _ => rfl
  | 3, _ => cases t <;> cases p <;> rfl

/-- A sum of powers over a list of bits, as a fold. -/
theorem sum_map_pow (p : Nat → Bool) (n : Nat) :
    ((List.range n).map fun k => if p k then 2 ^ k else 0).sum = (List.range n).foldl (fun v i => if p i then v + 2 ^ i else v) 0 := by
  induction n with
  | zero => rfl
  | succ n ih =>
    rw [List.range_succ, List.foldl_append, List.foldl_cons, List.foldl_nil, List.map_append, List.sum_append, ih]
    simp only [List.map_cons, List.map_nil, List.sum_cons, List.sum_nil, Nat.add_zero]
    split <;> rfl

theorem predWord_eq (e : Env) (j : Nat) :
    predWord e j = BitVec.ofNat 32 ((List.range 16).map fun k => if e.pred j k then 2 ^ k else 0).sum := by
  unfold predWord
  rw [sum_map_pow fun k => e.pred j k]

theorem predWrites_eq (a m : Word) :
    predWrites a m = (List.range 16).flatMap fun k => if m.getLsbD k then setPred k (a.getLsbD k) else [] := by
  unfold predWrites
  generalize List.range 16 = xs
  induction xs with
  | nil => rfl
  | cons x r ih =>
    rw [List.flatMap_cons, ← ih]
    by_cases h : m.getLsbD x <;> simp [h]

theorem getLsbD_sumMask (p : Nat → Bool) {k : Nat} (hk : k < 32) :
    (BitVec.ofNat 32 ((List.range 32).map fun j => if p j then 2 ^ j else 0).sum).getLsbD k = p k := by
  rw [sum_map_pow p, getLsbD_gather p hk]

theorem ballot_eq (e : Env) (ls : List Nat) (p : Nat) :
    ballot e ls p = BitVec.ofNat 32 ((List.range 32).map fun j => if j ∈ ls ∧ e.pred j p then 2 ^ j else 0).sum := by
  apply BitVec.eq_of_getLsbD_eq
  intro k hk
  have := getLsbD_sumMask (fun j => decide (j ∈ ls ∧ e.pred j p = true)) hk
  simp only [decide_eq_true_eq] at this
  rw [this]
  unfold ballot
  rw [getLsbD_maskOf _ hk]
  simp only [List.mem_filter]

end Sys2Proof.Machine
end

