-- ==== Sys2Proof/Laws/Memory.lean ====
section
/-! SUPPORT. The operations that write M keep its canonical form, and a write leaves every place alone that it does not name. -/

namespace Sys2Proof.Machine

theorem reset_mem_wf : Memory.wf State.reset.mem := rfl

/-- Bytes written keep the canonical form. -/
theorem writeBytes_wf (s : State) (bs : List (Nat × Byte)) (h : Memory.wf s.mem) : Memory.wf (s.writeBytes bs).mem :=
  swf_sputAll bs s.mem h

/-- A value written keeps the canonical form. -/
theorem writeNat_wf (s : State) (place n v : Nat) (h : Memory.wf s.mem) : Memory.wf (s.writeNat place n v).mem :=
  writeBytes_wf s _ h

/-- A page moved from one frame to another keeps the canonical form. -/
theorem movedBytes_wf (m : Memory) (source target n : Nat) (h : Memory.wf m) : Memory.wf (movedBytes m source target n) :=
  swf_sputAll _ _ (swf_filter _ m h)

/-- A place that a write does not name reads as before. -/
theorem writeBytes_byte (s : State) (bs : List (Nat × Byte)) (a : Nat) (h : ∀ e ∈ bs, e.1 ≠ a) :
    (s.writeBytes bs).byte a = s.byte a :=
  sget_sputAll_other bs a s.mem h

/-- The place of a single byte written reads as that byte. -/
theorem writeBytes_one (s : State) (a : Nat) (b : Byte) : (s.writeBytes [(a, b)]).byte a = b :=
  sget_sput_same s.mem a b

end Sys2Proof.Machine
end

