-- ==== Sys2Proof/Tests/Slice0.lean ====
section
/-! SUPPORT. Tests of the model and witnesses of the statements' hypotheses. Expected results are taken from the rules named,
by hand. -/

namespace Sys2Proof.Tests.Slice0

open Sys2Proof Sys2Proof.Machine

/-- Fields of zeros. -/
def z : Fields := { ge := false, gp := 0, gs := false, d := 0, a := 0, b := 0, c := 0, la := 0, sc := 0, mod := 0, imm := 0 }

/-! ## Decoding: words written out from R47 to R49 and the tables of R62 to R64, bit by bit

The base word is major, GE, GP, GS, D, A, B; the extension word minor, C, LA, SC, MOD. The decoder does not judge the values of
the fields. -/

def sf : Fields := { z with ge := true, gp := 5, d := 3, a := 5, b := 0x13 }

def lf : Fields := { ge := true, gp := 10, gs := true, d := 3, a := 5, b := 0x13, c := 11, la := 6, sc := 2, mod := 0xA5, imm := 0 }

def tf : Fields := { lf with imm := 0xCAFEF00D#32 }

def wordsShort : List (Word × Word × Word × Instr) :=
  [(0b00000_1_0101_0_0000011_0000101_0010011#32, 0, 0, .iadd sf),
   (0b00001_1_0101_0_0000011_0000101_0010011#32, 0, 0, .isub sf),
   (0b00010_1_0101_0_0000011_0000101_0010011#32, 0, 0, .imul sf),
   (0b00011_1_0101_0_0000011_0000101_0010011#32, 0, 0, .imulh sf),
   (0b00100_1_0101_0_0000011_0000101_0010011#32, 0, 0, .and sf),
   (0b00101_1_0101_0_0000011_0000101_0010011#32, 0, 0, .or sf),
   (0b00110_1_0101_0_0000011_0000101_0010011#32, 0, 0, .xor sf),
   (0b00111_1_0101_0_0000011_0000101_0010011#32, 0, 0, .andn sf),
   (0b01000_1_0101_0_0000011_0000101_0010011#32, 0, 0, .shl sf),
   (0b01001_1_0101_0_0000011_0000101_0010011#32, 0, 0, .shr sf),
   (0b01010_1_0101_0_0000011_0000101_0010011#32, 0, 0, .shra sf),
   (0b01011_1_0101_0_0000011_0000101_0010011#32, 0, 0, .imin sf),
   (0b01100_1_0101_0_0000011_0000101_0010011#32, 0, 0, .imax sf),
   (0b01101_1_0101_0_0000011_0000101_0000000#32, 0, 0, .mov { sf with b := 0 }),
   (0b01110_1_0101_0_0000011_0000101_0010011#32, 0, 0, .sel sf),
   (0b01111_1_0101_0_0000011_0000101_0000000#32, 0, 0, .popc { sf with b := 0 }),
   (0b10000_1_0101_0_0000011_0000101_0010011#32, 0, 0, .fadd sf),
   (0b10001_1_0101_0_0000011_0000101_0010011#32, 0, 0, .fsub sf),
   (0b10010_1_0101_0_0000011_0000101_0010011#32, 0, 0, .fmul sf),
   (0b10011_1_0101_0_0000011_0000101_0010011#32, 0, 0, .fmin sf),
   (0b10100_1_0101_0_0000011_0000101_0010011#32, 0, 0, .fmax sf),
   (0b10101_1_0101_0_0000011_0000101_0010011#32, 0, 0, .hadd2 sf),
   (0b10110_1_0101_0_0000011_0000101_0010011#32, 0, 0, .hmul2 sf)]

theorem test_wordsShort : ∀ r ∈ wordsShort, decodeWords r.1 r.2.1 r.2.2.1 = r.2.2.2 := by decide

def words18 : List (Word × Word × Word × Instr) :=
  [(0b11000_1_1010_1_0000011_0000101_0010011#32, 0b0000000000_0001011_0110_010_10100101#32, 0, .iaddLong lf),
   (0b11000_1_1010_1_0000011_0000101_0010011#32, 0b0000000001_0001011_0110_010_10100101#32, 0, .isubLong lf),
   (0b11000_1_1010_1_0000011_0000101_0010011#32, 0b0000000010_0001011_0110_010_10100101#32, 0, .imulLong lf),
   (0b11000_1_1010_1_0000011_0000101_0010011#32, 0b0000000011_0001011_0110_010_10100101#32, 0, .imulhLong lf),
   (0b11000_1_1010_1_0000011_0000101_0010011#32, 0b0000000100_0001011_0110_010_10100101#32, 0, .andLong lf),
   (0b11000_1_1010_1_0000011_0000101_0010011#32, 0b0000000101_0001011_0110_010_10100101#32, 0, .orLong lf),
   (0b11000_1_1010_1_0000011_0000101_0010011#32, 0b0000000110_0001011_0110_010_10100101#32, 0, .xorLong lf),
   (0b11000_1_1010_1_0000011_0000101_0010011#32, 0b0000000111_0001011_0110_010_10100101#32, 0, .andnLong lf),
   (0b11000_1_1010_1_0000011_0000101_0010011#32, 0b0000001000_0001011_0110_010_10100101#32, 0, .shlLong lf),
   (0b11000_1_1010_1_0000011_0000101_0010011#32, 0b0000001001_0001011_0110_010_10100101#32, 0, .shrLong lf),
   (0b11000_1_1010_1_0000011_0000101_0010011#32, 0b0000001010_0001011_0110_010_10100101#32, 0, .shraLong lf),
   (0b11000_1_1010_1_0000011_0000101_0010011#32, 0b0000001011_0001011_0110_010_10100101#32, 0, .iminLong lf),
   (0b11000_1_1010_1_0000011_0000101_0010011#32, 0b0000001100_0001011_0110_010_10100101#32, 0, .imaxLong lf),
   (0b11000_1_1010_1_0000011_0000101_0010011#32, 0b0000001101_0001011_0110_010_10100101#32, 0, .movLong lf),
   (0b11000_1_1010_1_0000011_0000101_0010011#32, 0b0000001110_0001011_0110_010_10100101#32, 0, .selLong lf),
   (0b11000_1_1010_1_0000011_0000101_0010011#32, 0b0000001111_0001011_0110_010_10100101#32, 0, .popcLong lf),
   (0b11000_1_1010_1_0000011_0000101_0010011#32, 0b0000010000_0001011_0110_010_10100101#32, 0xCAFEF00D#32, .iaddi tf),
   (0b11000_1_1010_1_0000011_0000101_0010011#32, 0b0000010001_0001011_0110_010_10100101#32, 0xCAFEF00D#32, .movi tf),
   (0b11000_1_1010_1_0000011_0000101_0010011#32, 0b0000010010_0001011_0110_010_10100101#32, 0, .imad lf),
   (0b11000_1_1010_1_0000011_0000101_0010011#32, 0b0000010011_0001011_0110_010_10100101#32, 0, .imadw lf),
   (0b11000_1_1010_1_0000011_0000101_0010011#32, 0b0000010100_0001011_0110_010_10100101#32, 0, .iaddc lf),
   (0b11000_1_1010_1_0000011_0000101_0010011#32, 0b0000010101_0001011_0110_010_10100101#32, 0, .isubb lf),
   (0b11000_1_1010_1_0000011_0000101_0010011#32, 0b0000010110_0001011_0110_010_10100101#32, 0, .ineg lf),
   (0b11000_1_1010_1_0000011_0000101_0010011#32, 0b0000010111_0001011_0110_010_10100101#32, 0, .iabs lf),
   (0b11000_1_1010_1_0000011_0000101_0010011#32, 0b0000011000_0001011_0110_010_10100101#32, 0, .rot lf),
   (0b11000_1_1010_1_0000011_0000101_0010011#32, 0b0000011001_0001011_0110_010_10100101#32, 0, .clz lf),
   (0b11000_1_1010_1_0000011_0000101_0010011#32, 0b0000011010_0001011_0110_010_10100101#32, 0, .brev lf),
   (0b11000_1_1010_1_0000011_0000101_0010011#32, 0b0000011011_0001011_0110_010_10100101#32, 0, .bfe lf),
   (0b11000_1_1010_1_0000011_0000101_0010011#32, 0b0000011100_0001011_0110_010_10100101#32, 0, .bfi lf),
   (0b11000_1_1010_1_0000011_0000101_0010011#32, 0b0000011101_0001011_0110_010_10100101#32, 0, .lea lf),
   (0b11000_1_1010_1_0000011_0000101_0010011#32, 0b0000011110_0001011_0110_010_10100101#32, 0, .icmp lf),
   (0b11000_1_1010_1_0000011_0000101_0010011#32, 0b0000011111_0001011_0110_010_10100101#32, 0xCAFEF00D#32, .icmpi tf),
   (0b11000_1_1010_1_0000011_0000101_0010011#32, 0b0000100000_0001011_0110_010_10100101#32, 0, .pfun lf),
   (0b11000_1_1010_1_0000011_0000101_0010011#32, 0b0000100001_0001011_0110_010_10100101#32, 0, .pmov lf),
   (0b11000_1_1010_1_0000011_0000101_0010011#32, 0b0000100010_0001011_0110_010_10100101#32, 0, .vote lf),
   (0b11000_1_1010_1_0000011_0000101_0010011#32, 0b0000100011_0001011_0110_010_10100101#32, 0, .lxch lf),
   (0b11000_1_1010_1_0000011_0000101_0010011#32, 0b0000100100_0001011_0110_010_10100101#32, 0, .bcast lf),
   (0b11000_1_1010_1_0000011_0000101_0010011#32, 0b0000100101_0001011_0110_010_10100101#32, 0, .redg lf)]

theorem test_words18 : ∀ r ∈ words18, decodeWords r.1 r.2.1 r.2.2.1 = r.2.2.2 := by decide

def words19 : List (Word × Word × Word × Instr) :=
  [(0b11001_1_1010_1_0000011_0000101_0010011#32, 0b0000000000_0001011_0110_010_10100101#32, 0, .faddLong lf),
   (0b11001_1_1010_1_0000011_0000101_0010011#32, 0b0000000001_0001011_0110_010_10100101#32, 0, .fsubLong lf),
   (0b11001_1_1010_1_0000011_0000101_0010011#32, 0b0000000010_0001011_0110_010_10100101#32, 0, .fmulLong lf),
   (0b11001_1_1010_1_0000011_0000101_0010011#32, 0b0000000011_0001011_0110_010_10100101#32, 0, .fminLong lf),
   (0b11001_1_1010_1_0000011_0000101_0010011#32, 0b0000000100_0001011_0110_010_10100101#32, 0, .fmaxLong lf),
   (0b11001_1_1010_1_0000011_0000101_0010011#32, 0b0000000101_0001011_0110_010_10100101#32, 0, .hadd2Long lf),
   (0b11001_1_1010_1_0000011_0000101_0010011#32, 0b0000000110_0001011_0110_010_10100101#32, 0, .hmul2Long lf),
   (0b11001_1_1010_1_0000011_0000101_0010011#32, 0b0000010000_0001011_0110_010_10100101#32, 0, .ffma lf),
   (0b11001_1_1010_1_0000011_0000101_0010011#32, 0b0000010001_0001011_0110_010_10100101#32, 0, .fcmp lf),
   (0b11001_1_1010_1_0000011_0000101_0010011#32, 0b0000010010_0001011_0110_010_10100101#32, 0, .frcp lf),
   (0b11001_1_1010_1_0000011_0000101_0010011#32, 0b0000010011_0001011_0110_010_10100101#32, 0, .fsqrt lf),
   (0b11001_1_1010_1_0000011_0000101_0010011#32, 0b0000010100_0001011_0110_010_10100101#32, 0, .frsq lf),
   (0b11001_1_1010_1_0000011_0000101_0010011#32, 0b0000010101_0001011_0110_010_10100101#32, 0, .fex2 lf),
   (0b11001_1_1010_1_0000011_0000101_0010011#32, 0b0000010110_0001011_0110_010_10100101#32, 0, .flg2 lf),
   (0b11001_1_1010_1_0000011_0000101_0010011#32, 0b0000010111_0001011_0110_010_10100101#32, 0, .fsinp lf),
   (0b11001_1_1010_1_0000011_0000101_0010011#32, 0b0000011000_0001011_0110_010_10100101#32, 0, .fcosp lf),
   (0b11001_1_1010_1_0000011_0000101_0010011#32, 0b0000011001_0001011_0110_010_10100101#32, 0, .hfma2 lf),
   (0b11001_1_1010_1_0000011_0000101_0010011#32, 0b0000011010_0001011_0110_010_10100101#32, 0, .bfma2 lf),
   (0b11001_1_1010_1_0000011_0000101_0010011#32, 0b0000011011_0001011_0110_010_10100101#32, 0, .dadd lf),
   (0b11001_1_1010_1_0000011_0000101_0010011#32, 0b0000011100_0001011_0110_010_10100101#32, 0, .dmul lf),
   (0b11001_1_1010_1_0000011_0000101_0010011#32, 0b0000011101_0001011_0110_010_10100101#32, 0, .dfma lf),
   (0b11001_1_1010_1_0000011_0000101_0010011#32, 0b0000011110_0001011_0110_010_10100101#32, 0, .dcmp lf),
   (0b11001_1_1010_1_0000011_0000101_0010011#32, 0b0000011111_0001011_0110_010_10100101#32, 0, .cvti lf),
   (0b11001_1_1010_1_0000011_0000101_0010011#32, 0b0000100000_0001011_0110_010_10100101#32, 0, .cvtf lf),
   (0b11001_1_1010_1_0000011_0000101_0010011#32, 0b0000100001_0001011_0110_010_10100101#32, 0, .cvtw lf),
   (0b11001_1_1010_1_0000011_0000101_0010011#32, 0b0000100010_0001011_0110_010_10100101#32, 0, .qcvt lf),
   (0b11001_1_1010_1_0000011_0000101_0010011#32, 0b0000100011_0001011_0110_010_10100101#32, 0, .dqcvt lf),
   (0b11001_1_1010_1_0000011_0000101_0010011#32, 0b0000100100_0001011_0110_010_10100101#32, 0, .fredg lf),
   (0b11001_1_1010_1_0000011_0000101_0010011#32, 0b0000100101_0001011_0110_010_10100101#32, 0, .fmode lf),
   (0b11001_1_1010_1_0000011_0000101_0010011#32, 0b0000100110_0001011_0110_010_10100101#32, 0, .fclass lf)]

theorem test_words19 : ∀ r ∈ words19, decodeWords r.1 r.2.1 r.2.2.1 = r.2.2.2 := by decide

def words1A : List (Word × Word × Word × Instr) :=
  [(0b11010_1_1010_1_0000011_0000101_0010011#32, 0b0000000000_0001011_0110_010_10100101#32, 0xCAFEF00D#32, .ld tf),
   (0b11010_1_1010_1_0000011_0000101_0010011#32, 0b0000000001_0001011_0110_010_10100101#32, 0xCAFEF00D#32, .st tf),
   (0b11010_1_1010_1_0000011_0000101_0010011#32, 0b0000000010_0001011_0110_010_10100101#32, 0, .phase lf),
   (0b11010_1_1010_1_0000011_0000101_0010011#32, 0b0000000011_0001011_0110_010_10100101#32, 0, .fence lf),
   (0b11010_1_1010_1_0000011_0000101_0010011#32, 0b0000000100_0001011_0110_010_10100101#32, 0, .invv lf),
   (0b11010_1_1010_1_0000011_0000101_0010011#32, 0b0000000101_0001011_0110_010_10100101#32, 0xCAFEF00D#32, .pref tf),
   (0b11010_1_1010_1_0000011_0000101_0010011#32, 0b0000000110_0001011_0110_010_10100101#32, 0, .cvta lf)]

theorem test_words1A : ∀ r ∈ words1A, decodeWords r.1 r.2.1 r.2.2.1 = r.2.2.2 := by decide

def words1B : List (Word × Word × Word × Instr) :=
  [(0b11011_1_1010_1_0000011_0000101_0010011#32, 0b0000000000_0001011_0110_010_10100101#32, 0xCAFEF00D#32, .lds tf),
   (0b11011_1_1010_1_0000011_0000101_0010011#32, 0b0000000001_0001011_0110_010_10100101#32, 0xCAFEF00D#32, .sts tf),
   (0b11011_1_1010_1_0000011_0000101_0010011#32, 0b0000000010_0001011_0110_010_10100101#32, 0xCAFEF00D#32, .ldsr tf),
   (0b11011_1_1010_1_0000011_0000101_0010011#32, 0b0000000011_0001011_0110_010_10100101#32, 0xCAFEF00D#32, .stsr tf),
   (0b11011_1_1010_1_0000011_0000101_0010011#32, 0b0000000100_0001011_0110_010_10100101#32, 0, .bdecl lf),
   (0b11011_1_1010_1_0000011_0000101_0010011#32, 0b0000000101_0001011_0110_010_10100101#32, 0, .bset lf),
   (0b11011_1_1010_1_0000011_0000101_0010011#32, 0b0000000110_0001011_0110_010_10100101#32, 0, .bqry lf),
   (0b11011_1_1010_1_0000011_0000101_0010011#32, 0b0000000111_0001011_0110_010_10100101#32, 0, .tlook lf),
   (0b11011_1_1010_1_0000011_0000101_0010011#32, 0b0000001000_0001011_0110_010_10100101#32, 0, .tinst lf),
   (0b11011_1_1010_1_0000011_0000101_0010011#32, 0b0000001001_0001011_0110_010_10100101#32, 0, .tdrop lf),
   (0b11011_1_1010_1_0000011_0000101_0010011#32, 0b0000001010_0001011_0110_010_10100101#32, 0xCAFEF00D#32, .atom tf),
   (0b11011_1_1010_1_0000011_0000101_0010011#32, 0b0000001011_0001011_0110_010_10100101#32, 0xCAFEF00D#32, .atcas tf),
   (0b11011_1_1010_1_0000011_0000101_0010011#32, 0b0000001100_0001011_0110_010_10100101#32, 0xCAFEF00D#32, .red tf)]

theorem test_words1B : ∀ r ∈ words1B, decodeWords r.1 r.2.1 r.2.2.1 = r.2.2.2 := by decide

def words1C : List (Word × Word × Word × Instr) :=
  [(0b11100_1_1010_1_0000011_0000101_0010011#32, 0b0000000000_0001011_0110_010_10100101#32, 0xCAFEF00D#32, .bra tf),
   (0b11100_1_1010_1_0000011_0000101_0010011#32, 0b0000000001_0001011_0110_010_10100101#32, 0, .brx lf),
   (0b11100_1_1010_1_0000011_0000101_0010011#32, 0b0000000010_0001011_0110_010_10100101#32, 0xCAFEF00D#32, .call tf),
   (0b11100_1_1010_1_0000011_0000101_0010011#32, 0b0000000011_0001011_0110_010_10100101#32, 0, .callx lf),
   (0b11100_1_1010_1_0000011_0000101_0010011#32, 0b0000000100_0001011_0110_010_10100101#32, 0, .ret lf),
   (0b11100_1_1010_1_0000011_0000101_0010011#32, 0b0000000101_0001011_0110_010_10100101#32, 0, .enter lf),
   (0b11100_1_1010_1_0000011_0000101_0010011#32, 0b0000000110_0001011_0110_010_10100101#32, 0, .win lf),
   (0b11100_1_1010_1_0000011_0000101_0010011#32, 0b0000000111_0001011_0110_010_10100101#32, 0, .exit lf),
   (0b11100_1_1010_1_0000011_0000101_0010011#32, 0b0000001000_0001011_0110_010_10100101#32, 0, .join lf),
   (0b11100_1_1010_1_0000011_0000101_0010011#32, 0b0000001001_0001011_0110_010_10100101#32, 0, .leave lf),
   (0b11100_1_1010_1_0000011_0000101_0010011#32, 0b0000001010_0001011_0110_010_10100101#32, 0, .wait lf),
   (0b11100_1_1010_1_0000011_0000101_0010011#32, 0b0000001011_0001011_0110_010_10100101#32, 0, .nopLong lf),
   (0b11100_1_1010_1_0000011_0000101_0010011#32, 0b0000001100_0001011_0110_010_10100101#32, 0, .fdepth lf),
   (0b11100_1_1010_1_0000011_0000101_0010011#32, 0b0000001101_0001011_0110_010_10100101#32, 0, .fspill lf),
   (0b11100_1_1010_1_0000011_0000101_0010011#32, 0b0000001110_0001011_0110_010_10100101#32, 0, .ffill lf)]

theorem test_words1C : ∀ r ∈ words1C, decodeWords r.1 r.2.1 r.2.2.1 = r.2.2.2 := by decide

def words1D : List (Word × Word × Word × Instr) :=
  [(0b11101_1_1010_1_0000011_0000101_0010011#32, 0b0000000000_0001011_0110_010_10100101#32, 0xCAFEF00D#32, .binit tf),
   (0b11101_1_1010_1_0000011_0000101_0010011#32, 0b0000000001_0001011_0110_010_10100101#32, 0xCAFEF00D#32, .barv tf),
   (0b11101_1_1010_1_0000011_0000101_0010011#32, 0b0000000010_0001011_0110_010_10100101#32, 0xCAFEF00D#32, .bwait tf),
   (0b11101_1_1010_1_0000011_0000101_0010011#32, 0b0000000011_0001011_0110_010_10100101#32, 0xCAFEF00D#32, .btest tf),
   (0b11101_1_1010_1_0000011_0000101_0010011#32, 0b0000000100_0001011_0110_010_10100101#32, 0, .cbarv lf),
   (0b11101_1_1010_1_0000011_0000101_0010011#32, 0b0000000101_0001011_0110_010_10100101#32, 0, .cbwait lf),
   (0b11101_1_1010_1_0000011_0000101_0010011#32, 0b0000000110_0001011_0110_010_10100101#32, 0, .enq lf),
   (0b11101_1_1010_1_0000011_0000101_0010011#32, 0b0000000111_0001011_0110_010_10100101#32, 0xCAFEF00D#32, .putq tf),
   (0b11101_1_1010_1_0000011_0000101_0010011#32, 0b0000001000_0001011_0110_010_10100101#32, 0, .signal lf),
   (0b11101_1_1010_1_0000011_0000101_0010011#32, 0b0000001001_0001011_0110_010_10100101#32, 0, .role lf),
   (0b11101_1_1010_1_0000011_0000101_0010011#32, 0b0000001010_0001011_0110_010_10100101#32, 0, .yield lf),
   (0b11101_1_1010_1_0000011_0000101_0010011#32, 0b0000001011_0001011_0110_010_10100101#32, 0, .claim lf),
   (0b11101_1_1010_1_0000011_0000101_0010011#32, 0b0000001100_0001011_0110_010_10100101#32, 0xCAFEF00D#32, .jdec tf)]

theorem test_words1D : ∀ r ∈ words1D, decodeWords r.1 r.2.1 r.2.2.1 = r.2.2.2 := by decide

def words1E : List (Word × Word × Word × Instr) :=
  [(0b11110_1_1010_1_0000011_0000101_0010011#32, 0b0000000000_0001011_0110_010_10100101#32, 0xCAFEF00D#32, .xcopy tf),
   (0b11110_1_1010_1_0000011_0000101_0010011#32, 0b0000000001_0001011_0110_010_10100101#32, 0xCAFEF00D#32, .xgath tf),
   (0b11110_1_1010_1_0000011_0000101_0010011#32, 0b0000000010_0001011_0110_010_10100101#32, 0xCAFEF00D#32, .xchain tf),
   (0b11110_1_1010_1_0000011_0000101_0010011#32, 0b0000000011_0001011_0110_010_10100101#32, 0, .xseq lf),
   (0b11110_1_1010_1_0000011_0000101_0010011#32, 0b0000000100_0001011_0110_010_10100101#32, 0, .xwait lf),
   (0b11110_1_1010_1_0000011_0000101_0010011#32, 0b0000000101_0001011_0110_010_10100101#32, 0, .xpub lf),
   (0b11110_1_1010_1_0000011_0000101_0010011#32, 0b0000000110_0001011_0110_010_10100101#32, 0xCAFEF00D#32, .xcoll tf),
   (0b11110_1_1010_1_0000011_0000101_0010011#32, 0b0000000111_0001011_0110_010_10100101#32, 0, .xstop lf),
   (0b11110_1_1010_1_0000011_0000101_0010011#32, 0b0000001000_0001011_0110_010_10100101#32, 0, .xcrc lf),
   (0b11110_1_1010_1_0000011_0000101_0010011#32, 0b0100000000_0001011_0110_010_10100101#32, 0xCAFEF00D#32, .mma tf),
   (0b11110_1_1010_1_0000011_0000101_0010011#32, 0b0100000001_0001011_0110_010_10100101#32, 0, .mzero lf),
   (0b11110_1_1010_1_0000011_0000101_0010011#32, 0b0100000010_0001011_0110_010_10100101#32, 0xCAFEF00D#32, .mloada tf),
   (0b11110_1_1010_1_0000011_0000101_0010011#32, 0b0100000011_0001011_0110_010_10100101#32, 0xCAFEF00D#32, .mdrain tf),
   (0b11110_1_1010_1_0000011_0000101_0010011#32, 0b0100000100_0001011_0110_010_10100101#32, 0, .mwait lf),
   (0b11110_1_1010_1_0000011_0000101_0010011#32, 0b0100000101_0001011_0110_010_10100101#32, 0, .mseq lf),
   (0b11110_1_1010_1_0000011_0000101_0010011#32, 0b0100000110_0001011_0110_010_10100101#32, 0xCAFEF00D#32, .apref tf),
   (0b11110_1_1010_1_0000011_0000101_0010011#32, 0b0100000111_0001011_0110_010_10100101#32, 0, .ainv lf),
   (0b11110_1_1010_1_0000011_0000101_0010011#32, 0b0100001000_0001011_0110_010_10100101#32, 0, .aqry lf)]

theorem test_words1E : ∀ r ∈ words1E, decodeWords r.1 r.2.1 r.2.2.1 = r.2.2.2 := by decide

def words1F : List (Word × Word × Word × Instr) :=
  [(0b11111_1_1010_1_0000011_0000101_0010011#32, 0b0000000000_0001011_0110_010_10100101#32, 0, .trap lf),
   (0b11111_1_1010_1_0000011_0000101_0010011#32, 0b0000000001_0001011_0110_010_10100101#32, 0, .svc lf),
   (0b11111_1_1010_1_0000011_0000101_0010011#32, 0b0000000010_0001011_0110_010_10100101#32, 0, .rett lf),
   (0b11111_1_1010_1_0000011_0000101_0010011#32, 0b0000000011_0001011_0110_010_10100101#32, 0xCAFEF00D#32, .mfc tf),
   (0b11111_1_1010_1_0000011_0000101_0010011#32, 0b0000000100_0001011_0110_010_10100101#32, 0xCAFEF00D#32, .mtc tf),
   (0b11111_1_1010_1_0000011_0000101_0010011#32, 0b0000000101_0001011_0110_010_10100101#32, 0, .eraise lf),
   (0b11111_1_1010_1_0000011_0000101_0010011#32, 0b0000000110_0001011_0110_010_10100101#32, 0, .brk lf),
   (0b11111_1_1010_1_0000011_0000101_0010011#32, 0b0000000111_0001011_0110_010_10100101#32, 0, .audit lf),
   (0b11111_1_1010_1_0000011_0000101_0010011#32, 0b0000001000_0001011_0110_010_10100101#32, 0, .stest lf),
   (0b11111_1_1010_1_0000011_0000101_0010011#32, 0b0000001001_0001011_0110_010_10100101#32, 0, .tlbgen lf),
   (0b11111_1_1010_1_0000011_0000101_0010011#32, 0b0000001010_0001011_0110_010_10100101#32, 0xCAFEF00D#32, .lsweep tf),
   (0b11111_1_1010_1_0000011_0000101_0010011#32, 0b0000001011_0001011_0110_010_10100101#32, 0, .waitsig lf)]

theorem test_words1F : ∀ r ∈ words1F, decodeWords r.1 r.2.1 r.2.2.1 = r.2.2.2 := by decide

/-- R63, the short NOP; R32, the bytes of the test port. -/
theorem test_nop_and_tap_words :
    decodeWords 0x681C3800#32 0 0 = .nop ∧ decodeTap 0x01#8 = .tapIdcode ∧ decodeTap 0x10#8 = .tapFreeze ∧
    decodeTap 0x11#8 = .tapRelease ∧ decodeTap 0x12#8 = .tapStatus ∧ decodeTap 0x20#8 = .scansel ∧ decodeTap 0x21#8 = .scanrd ∧
    decodeTap 0xFF#8 = .bypass 0xFF#8 ∧ decodeTap 0x02#8 = .bypass 0x02#8 := by decide

/-- R62 and R64: a code that no table gives is no instruction. -/
theorem test_unassigned_words :
    decodeWords 0xB8000000#32 0 0 = .unassignedCode z 0x17 0 ∧
    decodeWords 0xC8000000#32 0x01C00000#32 0 = .unassignedCode z 0x19 7 ∧
    decodeWords 0xF0000000#32 0x02400000#32 0 = .unassignedCode z 0x1E 9 := by decide

/-- R3: words are little-endian; bytes that end early are no instruction. -/
theorem test_bytes :
    decodeBytes [0x13, 0xC2, 0x40, 0x05, 7] = .ok (.iadd { sf with a := 4, b := 0x13 }, [7]) ∧
    decodeBytes [0, 0, 0, 0xD0, 0, 0, 0, 0, 0, 0] = .error .truncated := ⟨rfl, rfl⟩


/-- Words printed in the examples of the manual. -/
theorem test_printed_words :
    decodeWords 0xC0010200#32 0x04000000#32 1 = .iaddi { z with d := 4, a := 4, imm := 1 } ∧
    decodeWords 0xE4E00000#32 0x01C00000#32 0 = .exit { z with ge := true, gp := 3, gs := true } ∧
    decodeWords 0xC0048000#32 0x04400000#32 0x3F000000#32 = .movi { z with d := 0x12, imm := 0x3F000000 } ∧
    decodeWords 0xC8050812#32 0x04088000#32 0 = .ffma { z with d := 0x14, a := 0x10, b := 0x12, c := 0x11 } ∧
    decodeWords 0xC8040814#32 0x00000002#32 0 = .faddLong { z with d := 0x10, a := 0x10, b := 0x14, mod := 2 } ∧
    decodeWords 0xC8054800#32 0x04801000#32 0 = .frcp { z with d := 0x15, a := 0x10, la := 2 } ∧
    decodeWords 0xD0040000#32 0x00001802#32 0 = .ld { z with d := 0x10, la := 3, mod := 2 } ∧
    decodeWords 0xD4400015#32 0x00400002#32 0x180 = .st { z with ge := true, gp := 1, b := 0x15, mod := 2, imm := 0x180 } ∧
    decodeWords 0xD0000000#32 0x00800500#32 0 = .phase { z with sc := 5 } ∧
    decodeWords 0xD8040111#32 0x02800D00#32 8 = .atom { z with d := 0x10, a := 2, b := 0x11, la := 1, sc := 5, imm := 8 } := by
  decide
/-! ## A small machine

One group (1) of one team (2) on core 0, with two lanes at address 8 of a page that the core's TLB maps to itself. -/

def page0 : PageEntry := { asid := 0, generation := 0, page := 0, size := 3, entry := 0x1F#64 }

/-- A lane with a 16-register frame and these registers, a0 first at ring row 0. -/
def laneWith (regs : Sparse Word) : Lane := { status := .ready, pc := 8, n := 16, hi := 48, ring := regs }

def teamOf (inst : Nat) : Team :=
  { id := 2, ctx := 0, inst := inst, index := 0, teamx := 0, teamy := 0, teamz := 0, rank := 0, cluster := none, core := 0,
    sector := 0, teamSlot := 0, entry := 0, arg := 0, join := 0, keys := [], pri := 0, rst := false, aud := false, priv := false,
    pipe := false, sliceSize := 4096, allotment := 4096, tiles := 4 }

def groupOf (lanes : List Lane) : Group :=
  { id := 1, team := 2, grp := 0, role := 0, budget := 64, kmax := 1024, core := 0, quarter := 0, slot := 0, arena := 0x100000,
    lanes := lanes }

def lenOf (i : Instr) : Nat := ((codeOf i).map fun c => c.len).getD 1

/-- A state in which every function is ready, with a team and a group, issuing an instruction on these lanes. -/
def issuing (i : Instr) (lanes : LaneMask) (t : Team) (g : Group) : State :=
  { State.reset with
    ids := 9, groups := [g], teams := [t], cores := [(0, { tlb := [page0] })],
    hub := { readyA := BitVec.allOnes 64, readyB := BitVec.allOnes 64 }, plat := { power := true },
    issue := some { gid := 1, lanes := lanes, pc := 8, len := lenOf i } }

/-- Registers of the first lane, and of the second: a4 = -16, a5 = 1, a6 = 5, a8 = -2^31, a9 = 3, a10 = 0x304. -/
def regs0 : Sparse Word := [(4, 0xFFFFFFF0#32), (5, 1), (6, 5), (8, 0x80000000#32), (9, 3), (10, 0x304)]

def regs1 : Sparse Word := [(4, 7), (6, 0xFFFFFFFF#32), (8, 2)]

/-- Both lanes issue; predicate 1 is set on the first. -/
def small (i : Instr) : State :=
  issuing i 3 (teamOf 0) (groupOf [{ laneWith regs0 with preds := 2 }, laneWith regs1])

/-- The first lane issues alone, on registers a2 to a10 given. -/
def single (regs : Sparse Word) (i : Instr) : State := issuing i 1 (teamOf 0) (groupOf [laneWith regs])

def nextOf (o : Host.Outcome State Fault Refusal) : Option State :=
  match o with
  | .next t => some t
  | _ => none

/-- A lane after the instruction of a state. -/
def laneAfter (s : State) (i : Instr) (j : Nat) : Option Lane := ((nextOf (exec i s)).bind fun t => t.group? 1).map fun g => g.lane j

/-- The value of row r of a lane's registers after the instruction, or that the lane owes it. -/
def regAfter (s : State) (i : Instr) (j r : Nat) : Option Word :=
  (laneAfter s i j).map fun l =>
    match (l.pend.flatMap fun q => q.results).find? fun w => decide (w.place = .ring r) with
    | some w => w.value
    | none => sget 0 l.ring r

/-- Predicate k of a lane after the instruction, or the value it owes. -/
def predAfter (s : State) (i : Instr) (j k : Nat) : Option Bool :=
  (laneAfter s i j).map fun l =>
    match (l.pend.flatMap fun q => q.results).find? fun w => decide (w.place = .pred k) with
    | some w => w.value.getLsbD 0
    | none => l.preds.getLsbD k

/-! ## Issues: a state, an issue, a group and a team that meet the premises of the statements about one instruction -/

/-- The premises of Sound. -/
def soundB (i : Instr) (f : Fields) (s : State) (iss : Issue) (g : Group) (t : Team) : Bool :=
  decide (s.issue = some iss) && decide (s.group? iss.gid = some g) && decide (s.team? g.team = some t) &&
    decide (staticFault i (issueEnv i s iss g t) f = []) && decide (heldBack i f (issueEnv i s iss g t) = none) &&
    decide (breachLanes i f (issueEnv i s iss g t) = [])

/-- Some issue of an instruction meets Issues and a further condition, with acting lanes. -/
def Meets (i : Instr) (f : Fields) (holds : Env → List Nat → Prop) : Prop :=
  ∃ s iss g t, Issues i f s iss g t ∧ actors i f (issueEnv i s iss g t) ≠ [] ∧
    holds (issueEnv i s iss g t) (actors i f (issueEnv i s iss g t))

theorem sound_of {i : Instr} {f : Fields} {s : State} {iss : Issue} {g : Group} {t : Team}
    (h : soundB i f s iss g t = true) : Sound i f s iss g t := by
  unfold soundB at h
  simp only [Bool.and_eq_true, decide_eq_true_eq] at h
  obtain ⟨⟨⟨⟨⟨h1, h2⟩, h3⟩, h4⟩, h5⟩, h6⟩ := h
  exact { issue := h1, group := h2, team := h3, checks := h4, free := h5, calm := h6 }

def noGroup : Group := groupOf []

/-- The issue of a state with its group and its team. -/
def issueOf (s : State) : Issue := s.issue.getD { gid := 0, lanes := 0, pc := 0, len := 0 }

def groupIn (s : State) : Group := (s.group? (issueOf s).gid).getD noGroup

def teamIn (s : State) : Team := (s.team? (groupIn s).team).getD (teamOf 0)

def envOf (i : Instr) (s : State) : Env := issueEnv i s (issueOf s) (groupIn s) (teamIn s)

/-- The issue of a state meets Sound. -/
def sound (i : Instr) (f : Fields) (s : State) : Bool := soundB i f s (issueOf s) (groupIn s) (teamIn s)

/-- The issue of a state meets Issues, and some lane acts. -/
def ready (i : Instr) (f : Fields) (s : State) : Bool :=
  sound i f s && (actors i f (envOf i s)).all (fun j => namesGood i f (envOf i s) j) && !(actors i f (envOf i s)).isEmpty

theorem meets_of {i : Instr} {f : Fields} (s : State) {p : Env → List Nat → Prop} (h : ready i f s = true)
    (hp : p (envOf i s) (actors i f (envOf i s))) : Meets i f p := by
  unfold ready at h
  simp only [Bool.and_eq_true, Bool.not_eq_true', List.isEmpty_eq_false_iff, List.all_eq_true] at h
  exact ⟨s, _, _, _, { toSound := sound_of h.1.1, names := h.1.2 }, h.2, hp⟩

/-- Every instruction of a list issues on the small machine, with acting lanes. -/
def allIssue (is : List Instr) : Bool := is.all fun i => (fieldsOf i).any fun f => ready i f (small i)

/-! ## Every instruction issues: one form of each that the static checks pass

These are the premises of the statements whose instructions complete on any operands (Writes, Owes). -/

def legal1 : List Instr :=
  [.iadd { z with d := 2, a := 4, b := 6 }, .iaddLong { z with d := 2, a := 4, b := 6 },
   .isub { z with d := 2, a := 4, b := 6 }, .isubLong { z with d := 2, a := 4, b := 6 },
   .imul { z with d := 2, a := 4, b := 6 }, .imulLong { z with d := 2, a := 4, b := 6 },
   .imulh { z with d := 2, a := 4, b := 6 }, .imulhLong { z with d := 2, a := 4, b := 6 },
   .and { z with d := 2, a := 4, b := 6 }, .andLong { z with d := 2, a := 4, b := 6 },
   .or { z with d := 2, a := 4, b := 6 }, .orLong { z with d := 2, a := 4, b := 6 }, .xor { z with d := 2, a := 4, b := 6 },
   .xorLong { z with d := 2, a := 4, b := 6 }, .andn { z with d := 2, a := 4, b := 6 },
   .andnLong { z with d := 2, a := 4, b := 6 }, .shl { z with d := 2, a := 4, b := 6 },
   .shlLong { z with d := 2, a := 4, b := 6 }, .shr { z with d := 2, a := 4, b := 6 },
   .shrLong { z with d := 2, a := 4, b := 6 }, .shra { z with d := 2, a := 4, b := 6 },
   .shraLong { z with d := 2, a := 4, b := 6 }, .imin { z with d := 2, a := 4, b := 6 },
   .iminLong { z with d := 2, a := 4, b := 6 }, .imax { z with d := 2, a := 4, b := 6 },
   .imaxLong { z with d := 2, a := 4, b := 6 }, .mov { z with d := 2, a := 4 }, .movLong { z with d := 2, a := 4 },
   .sel { z with ge := true, d := 2, a := 4, b := 6 }]

theorem test_legal1_issue : allIssue legal1 = true := by decide

def legal2 : List Instr :=
  [.selLong { z with ge := true, d := 2, a := 4, b := 6 }, .popc { z with d := 2, a := 4 },
   .popcLong { z with d := 2, a := 4 }, .fadd { z with d := 2, a := 4, b := 6 },
   .faddLong { z with d := 2, a := 4, b := 6 }, .fsub { z with d := 2, a := 4, b := 6 },
   .fsubLong { z with d := 2, a := 4, b := 6 }, .fmul { z with d := 2, a := 4, b := 6 },
   .fmulLong { z with d := 2, a := 4, b := 6 }, .fmin { z with d := 2, a := 4, b := 6 },
   .fminLong { z with d := 2, a := 4, b := 6 }, .fmax { z with d := 2, a := 4, b := 6 },
   .fmaxLong { z with d := 2, a := 4, b := 6 }, .hadd2 { z with d := 2, a := 4, b := 6 },
   .hadd2Long { z with d := 2, a := 4, b := 6 }, .hmul2 { z with d := 2, a := 4, b := 6 },
   .hmul2Long { z with d := 2, a := 4, b := 6 }, .nopLong { z with  }, .iaddi { z with d := 2, a := 4 },
   .movi { z with d := 2 }, .imad { z with d := 2, a := 4, b := 6, c := 8 },
   .imadw { z with d := 2, a := 4, b := 6, c := 8 }, .iaddc { z with d := 2, a := 4, b := 6, c := 4 },
   .isubb { z with d := 2, a := 4, b := 6, c := 4 }, .ineg { z with d := 2, a := 4 }, .iabs { z with d := 2, a := 4 },
   .rot { z with d := 2, a := 4, b := 6 }, .clz { z with d := 2, a := 4 }, .brev { z with d := 2, a := 4 }]

theorem test_legal2_issue : allIssue legal2 = true := by decide

def legal3 : List Instr :=
  [.bfe { z with d := 2, a := 4, b := 6 }, .bfi { z with d := 2, a := 4, b := 6, c := 8 },
   .lea { z with d := 2, a := 4, b := 6 }, .icmp { z with d := 1, a := 4, b := 6 }, .icmpi { z with d := 1, a := 4 },
   .pfun { z with d := 1, a := 2, b := 3, c := 4 }, .pmov { z with d := 2 }, .vote { z with d := 2, a := 2 },
   .lxch { z with d := 2, a := 4, b := 6 }, .bcast { z with d := 2, a := 4, b := 6 }, .redg { z with d := 2, a := 4 },
   .ffma { z with d := 2, a := 4, b := 6, c := 8 }, .fcmp { z with d := 1, a := 4, b := 6 },
   .frcp { z with d := 2, a := 4 }, .fsqrt { z with d := 2, a := 4 }, .frsq { z with d := 2, a := 4 },
   .fex2 { z with d := 2, a := 4 }, .flg2 { z with d := 2, a := 4 }, .fsinp { z with d := 2, a := 4 },
   .fcosp { z with d := 2, a := 4 }, .hfma2 { z with d := 2, a := 4, b := 6, c := 8 },
   .bfma2 { z with d := 2, a := 4, b := 6, c := 8 }, .dadd { z with d := 2, a := 4, b := 6 },
   .dmul { z with d := 2, a := 4, b := 6 }, .dfma { z with d := 2, a := 4, b := 6, c := 8 },
   .dcmp { z with d := 1, a := 4, b := 6 }, .cvti { z with d := 2, a := 4 }, .cvtf { z with d := 2, a := 4 },
   .cvtw { z with d := 2, a := 4, b := 6 }]

theorem test_legal3_issue : allIssue legal3 = true := by decide

def legal4 : List Instr :=
  [.qcvt { z with d := 2, a := 4, b := 6 }, .dqcvt { z with d := 2, a := 4, b := 6 }, .fredg { z with d := 2, a := 4 },
   .fmode { z with d := 2 }, .fclass { z with d := 2, a := 4 }, .ld { z with d := 2, a := 4 },
   .st { z with a := 4, b := 6 }, .phase { z with sc := 2 }, .fence { z with sc := 2 }, .invv { z with sc := 2 },
   .pref { z with a := 4 }, .cvta { z with d := 2, a := 4 }, .lds { z with d := 2, b := 6 }, .sts { z with a := 4, b := 6 },
   .ldsr { z with d := 2, b := 6 }, .stsr { z with a := 4, b := 6 }, .bdecl { z with a := 4 }, .bset { z with b := 6 },
   .bqry { z with d := 2 }, .tlook { z with d := 2, a := 4 }, .tinst { z with a := 4, b := 6 }, .tdrop { z with a := 4 },
   .atom { z with d := 2, a := 4, b := 6, sc := 2 }, .atcas { z with d := 2, a := 4, b := 6, c := 8, sc := 2 },
   .red { z with a := 4, b := 6, sc := 2 }, .bra { z with  }, .brx { z with a := 4 }, .call { z with  },
   .callx { z with a := 4 }]

theorem test_legal4_issue : allIssue legal4 = true := by decide

def legal5 : List Instr :=
  [.ret { z with  }, .enter { z with b := 1 }, .win { z with  }, .exit { z with  }, .join { z with  }, .leave { z with  },
   .wait { z with  }, .fdepth { z with d := 2 }, .fspill { z with  }, .ffill { z with  }, .binit { z with a := 4, b := 6 },
   .barv { z with b := 6 }, .bwait { z with a := 4, b := 6 }, .btest { z with d := 1, a := 4, b := 6 },
   .cbarv { z with sc := 3 }, .cbwait { z with sc := 3 }, .enq { z with d := 1 }, .putq { z with d := 1, a := 4, b := 6 },
   .signal { z with a := 4, b := 6, sc := 4 }, .role { z with d := 2 }, .yield { z with  },
   .claim { z with d := 2, a := 4 }, .jdec { z with d := 2, a := 4, b := 6, sc := 4 }, .xcopy { z with d := 2, b := 6 },
   .xgath { z with d := 2, b := 6 }, .xchain { z with d := 2, a := 4 }, .xseq { z with d := 2 }, .xwait { z with b := 6 },
   .xpub { z with sc := 5 }]

theorem test_legal5_issue : allIssue legal5 = true := by decide

def legal6 : List Instr :=
  [.xcoll { z with d := 2, b := 6 }, .xstop { z with  }, .xcrc { z with d := 2 }, .mma { z with d := 2, b := 6 },
   .mzero { z with  }, .mloada { z with d := 2, a := 4 }, .mdrain { z with d := 2, b := 6 }, .mwait { z with b := 6 },
   .mseq { z with d := 2 }, .apref { z with a := 4, b := 6 }, .ainv { z with  }, .aqry { z with d := 2 }, .trap { z with  },
   .brk { z with  }, .svc { z with a := 4 }, .rett { z with  }, .mfc { z with d := 2 }, .mtc { z with a := 4 },
   .eraise { z with a := 4, b := 6 }, .audit { z with  }, .stest { z with d := 2, a := 4 },
   .tlbgen { z with d := 2, a := 4 }, .lsweep { z with a := 4 }, .waitsig { z with a := 4, b := 6 }]

theorem test_legal6_issue : allIssue legal6 = true := by decide

theorem test_nop_issues : ready .nop z (small .nop) = true := by decide

/-! ## Results of the integer instructions (R123 to R137), worked out by hand from the rules -/

theorem test_integer1 : ∀ r ∈ ([
    (.iadd { z with d := 2, a := 4, b := 6 }, 0, 2, 0xFFFFFFF5#32),
    (.iaddLong { z with d := 2, a := 8, b := 4, mod := 1 }, 0, 2, 0x80000000#32),
    (.iaddLong { z with d := 2, a := 4, b := 8, mod := 2 }, 0, 2, 0xFFFFFFFF#32),
    (.isub { z with d := 2, a := 6, b := 4 }, 0, 2, 0x15#32),
    (.isubLong { z with d := 2, a := 6, b := 4, mod := 2 }, 0, 2, 0),
    (.imul { z with d := 2, a := 4, b := 6 }, 0, 2, 0xFFFFFFB0#32),
    (.imulLong { z with d := 2, a := 4, b := 4 }, 0, 2, 0x100#32),
    (.imulh { z with d := 2, a := 8, b := 8 }, 0, 2, 0x40000000#32),
    (.imulhLong { z with d := 2, a := 4, b := 4, mod := 1 }, 0, 2, 0xFFFFFFE0#32),
    (.and { z with d := 2, a := 4, b := 9 }, 0, 2, 0),
    (.andLong { z with d := 2, a := 4, b := 9, mod := 1 }, 0, 2, 0xFFFFFFFF#32),
    (.or { z with d := 2, a := 4, b := 6 }, 0, 2, 0xFFFFFFF5#32),
    (.orLong { z with d := 2, a := 4, b := 6, mod := 1 }, 0, 2, 0xA#32),
    (.xor { z with d := 2, a := 4, b := 8 }, 0, 2, 0x7FFFFFF0#32),
    (.xorLong { z with d := 2, a := 4, b := 8, mod := 1 }, 0, 2, 0x8000000F#32),
    (.andn { z with d := 2, a := 4, b := 8 }, 0, 2, 0x7FFFFFF0#32),
    (.andnLong { z with d := 2, a := 9, b := 6, mod := 1 }, 0, 2, 0xFFFFFFFD#32),
    (.shl { z with d := 2, a := 6, b := 9 }, 0, 2, 0x28#32),
    (.shl { z with d := 2, a := 6, b := 4 }, 0, 2, 0),
    (.shlLong { z with d := 2, a := 6, b := 4, mod := 1 }, 0, 2, 0x50000#32),
    (.shr { z with d := 2, a := 4, b := 9 }, 0, 2, 0x1FFFFFFE#32),
    (.shr { z with d := 2, a := 4, b := 10 }, 0, 2, 0),
    (.shrLong { z with d := 2, a := 4, b := 4, mod := 1 }, 0, 2, 0xFFFF#32),
    (.shra { z with d := 2, a := 8, b := 10 }, 0, 2, 0xFFFFFFFF#32)] : List (Instr × Nat × Nat × Word)),
    regAfter (small r.1) r.1 r.2.1 r.2.2.1 = some r.2.2.2 := by decide

theorem test_integer2 : ∀ r ∈ ([
    (.shraLong { z with d := 2, a := 8, b := 4, mod := 1 }, 0, 2, 0xFFFF8000#32),
    (.imin { z with d := 2, a := 4, b := 6 }, 0, 2, 0xFFFFFFF0#32),
    (.iminLong { z with d := 2, a := 4, b := 6, mod := 1 }, 0, 2, 5),
    (.imax { z with d := 2, a := 4, b := 6 }, 0, 2, 5),
    (.imaxLong { z with d := 2, a := 4, b := 6, mod := 1 }, 0, 2, 0xFFFFFFF0#32),
    (.mov { z with d := 2, a := 4, b := 0 }, 0, 2, 0xFFFFFFF0#32),
    (.movLong { z with d := 2, a := 6, b := 0 }, 0, 2, 5),
    (.sel { z with ge := true, gp := 1, d := 2, a := 4, b := 6 }, 0, 2, 0xFFFFFFF0#32),
    (.sel { z with ge := true, gp := 1, d := 2, a := 4, b := 6 }, 1, 2, 0xFFFFFFFF#32),
    (.selLong { z with ge := true, gp := 1, gs := true, d := 2, a := 4, b := 6 }, 0, 2, 5),
    (.popc { z with d := 2, a := 4, b := 0 }, 0, 2, 0x1C#32),
    (.popcLong { z with d := 2, a := 10, b := 0 }, 0, 2, 3),
    (.nop, 0, 2, 0),
    (.nopLong z, 0, 2, 0),
    (.iaddi { z with d := 2, a := 4, imm := 0x20 }, 0, 2, 0x10#32),
    (.movi { z with d := 2, imm := 0x3F000000 }, 0, 2, 0x3F000000#32),
    (.imad { z with d := 2, a := 4, b := 6, c := 9 }, 0, 2, 0xFFFFFFB3#32),
    (.imadw { z with d := 2, a := 4, b := 6, c := 8 }, 0, 3, 3),
    (.imadw { z with d := 2, a := 4, b := 6, c := 8, mod := 1 }, 0, 3, 8),
    (.lea { z with d := 2, a := 4, b := 4, mod := 2 }, 0, 3, 1),
    (.lea { z with d := 2, a := 4, b := 4, mod := 10 }, 0, 3, 5),
    (.iaddc { z with d := 2, a := 4, b := 4, c := 1 }, 0, 2, 0xFFFFFFE1#32),
    (.isubb { z with d := 2, a := 6, b := 4, c := 1 }, 0, 2, 0x14#32),
    (.ineg { z with d := 2, a := 4, b := 0 }, 0, 2, 0x10#32)] : List (Instr × Nat × Nat × Word)),
    regAfter (small r.1) r.1 r.2.1 r.2.2.1 = some r.2.2.2 := by decide

theorem test_integer3 : ∀ r ∈ ([
    (.ineg { z with d := 2, a := 8, b := 0, mod := 1 }, 0, 2, 0x7FFFFFFF#32),
    (.iabs { z with d := 2, a := 4, b := 0 }, 0, 2, 0x10#32),
    (.iabs { z with d := 2, a := 8, b := 0, mod := 1 }, 0, 2, 0x7FFFFFFF#32),
    (.rot { z with d := 2, a := 4, b := 9 }, 0, 2, 0xFFFFFF87#32),
    (.rot { z with d := 2, a := 4, b := 9, mod := 1 }, 0, 2, 0x1FFFFFFE#32),
    (.clz { z with d := 2, a := 6, b := 0 }, 0, 2, 0x1D#32),
    (.clz { z with d := 2, a := 7, b := 0 }, 0, 2, 0x20#32),
    (.brev { z with d := 2, a := 6, b := 0 }, 0, 2, 0xA0000000#32),
    (.bfe { z with d := 2, a := 4, b := 10 }, 0, 2, 7),
    (.bfe { z with d := 2, a := 4, b := 10, mod := 1 }, 0, 2, 0xFFFFFFFF#32),
    (.bfi { z with d := 2, a := 6, b := 10, c := 4 }, 0, 2, 0xFFFFFFD0#32),
    (.pmov { z with d := 2 }, 0, 2, 2),
    (.vote { z with d := 2, a := 1 }, 0, 2, 1),
    (.vote { z with d := 2, a := 0, mod := 5 }, 1, 2, 0),
    (.lxch { z with d := 2, a := 4, b := 5 }, 0, 2, 7),
    (.lxch { z with d := 2, a := 4, b := 5, mod := 3 }, 0, 2, 7),
    (.bcast { z with d := 2, a := 4, b := 5 }, 0, 2, 7),
    (.bcast { z with d := 2, a := 4, mod := 1 }, 1, 2, 0xFFFFFFF0#32),
    (.redg { z with d := 2, a := 4 }, 0, 2, 0xFFFFFFF7#32),
    (.redg { z with d := 2, a := 4, mod := 0x10 }, 1, 2, 0xFFFFFFF0#32)] : List (Instr × Nat × Nat × Word)),
    regAfter (small r.1) r.1 r.2.1 r.2.2.1 = some r.2.2.2 := by decide

theorem test_predicates : ∀ r ∈ ([
    (.icmp { z with d := 2, a := 4, b := 6, mod := 1 }, 2, true),
    (.icmp { z with d := 2, a := 4, b := 6, mod := 9 }, 2, false),
    (.icmpi { z with d := 2, a := 6, mod := 0x12, c := 0, imm := 5 }, 2, false),
    (.icmpi { z with d := 2, a := 6, mod := 2, imm := 5 }, 2, true),
    (.pfun { z with d := 2, a := 1, b := 0, c := 0, mod := 4 }, 2, true),
    (.pmov { z with a := 6, b := 9, mod := 1 }, 1, false),
    (.iaddc { z with d := 2, a := 4, b := 4, c := 1 }, 1, true),
    (.isubb { z with d := 2, a := 6, b := 4, c := 0 }, 0, true),
    (.vote { z with d := 2, a := 1, mod := 1 }, 2, false),
    (.vote { z with d := 2, a := 1, mod := 2 }, 2, true)] : List (Instr × Nat × Bool)),
    predAfter (small r.1) r.1 0 r.2.1 = some r.2.2 := by decide

/-- R123, MOD[1:0] = 3; R122, a predicate above 15; R53, an odd pair: illegal instruction on the guarded lanes, one record. -/
theorem test_illegal_forms : ∀ i ∈ [Instr.iaddLong { z with d := 2, mod := 3 }, .icmp { z with d := 16, mod := 1 },
      .imadw { z with d := 3, a := 4, b := 6, c := 8 }, .sel { z with d := 2 }],
    ((nextOf (exec i (small i))).map fun t => (t.records.map fun r => r.kind.toNat % 256).take 1) = some [1] := by decide

/-! ## Results of the float instructions (R138 to R162), worked out by hand from the rules -/

theorem test_float1 : ∀ r ∈ ([
    ([(4, 0x3FC00000#32), (6, 0x40100000#32), (8, 0x3F800000#32)], .fadd { z with d := 2, a := 4, b := 6 }, 2, 0x40700000#32),
    ([(4, 0x3FC00000#32), (6, 0x40100000#32), (8, 0x3F800000#32)], .faddLong { z with d := 2, a := 4, b := 6, mod := 8 }, 2, 0x3F400000#32),
    ([(4, 0x3FC00000#32), (6, 0x40100000#32), (8, 0x3F800000#32)], .fsub { z with d := 2, a := 4, b := 6 }, 2, 0xBF400000#32),
    ([(4, 0x3FC00000#32), (6, 0x40100000#32), (8, 0x3F800000#32)], .fsubLong { z with d := 2, a := 4, b := 6, mod := 0x10 }, 2, 0x40700000#32),
    ([(4, 0x3FC00000#32), (6, 0x40100000#32), (8, 0x3F800000#32)], .fmul { z with d := 2, a := 4, b := 6 }, 2, 0x40580000#32),
    ([(4, 0x3FC00000#32), (6, 0x40100000#32), (8, 0x3F800000#32)], .fmulLong { z with d := 2, a := 4, b := 6, mod := 8 }, 2, 0xC0580000#32),
    ([(4, 0x3FC00000#32), (6, 0x40100000#32), (8, 0x3F800000#32)], .fmin { z with d := 2, a := 4, b := 6 }, 2, 0x3FC00000#32),
    ([(4, 0x7FA00000#32), (6, 0x40100000#32)], .fminLong { z with d := 2, a := 4, b := 6, mod := 1 }, 2, 0x7FE00000#32),
    ([(4, 0x3FC00000#32), (6, 0x40100000#32), (8, 0x3F800000#32)], .fmax { z with d := 2, a := 4, b := 6 }, 2, 0x40100000#32),
    ([(4, 0x7FA00000#32), (6, 0x40100000#32)], .fmaxLong { z with d := 2, a := 4, b := 6 }, 2, 0x40100000#32),
    ([(4, 0x3C004000#32), (6, 0x3C003C00#32)], .hadd2 { z with d := 2, a := 4, b := 6 }, 2, 0x40004200#32),
    ([(4, 0x3C004000#32), (6, 0x3C003C00#32)], .hadd2Long { z with d := 2, a := 4, b := 6, mod := 8 }, 2, 0xBC00#32),
    ([(4, 0x3C004000#32), (6, 0x3C003C00#32)], .hmul2 { z with d := 2, a := 4, b := 6 }, 2, 0x3C004000#32)] : List (Sparse Word × Instr × Nat × Word)),
    regAfter (single r.1 r.2.1) r.2.1 0 r.2.2.1 = some r.2.2.2 := by decide

theorem test_float2 : ∀ r ∈ ([
    ([(4, 0x3C004000#32), (6, 0x3C003C00#32)], .hmul2Long { z with d := 2, a := 4, b := 6, mod := 0x10 }, 2, 0xBC00C000#32),
    ([(5, 0x3FF00000#32), (7, 0x40000000#32)], .dadd { z with d := 2, a := 4, b := 6 }, 3, 0x40080000#32),
    ([(5, 0x3FF00000#32), (7, 0x40000000#32)], .dmul { z with d := 2, a := 4, b := 6 }, 3, 0x40000000#32),
    ([(4, 0x3FC00000#32), (6, 0x40100000#32), (8, 0x3F800000#32)], .ffma { z with d := 2, a := 4, b := 6, c := 8 }, 2, 0x408C0000#32),
    ([(4, 0x3FC00000#32), (6, 0x40100000#32), (8, 0x3F800000#32)], .ffma { z with d := 2, a := 4, b := 6, c := 8, mod := 8 }, 2, 0xC0180000#32),
    ([(5, 0x3FF00000#32), (7, 0x40000000#32)], .dfma { z with d := 2, a := 4, b := 6, c := 6 }, 3, 0x40100000#32),
    ([(4, 0x3C004000#32), (6, 0x3C003C00#32)], .hfma2 { z with d := 2, a := 4, b := 6, c := 6 }, 2, 0x40004200#32),
    ([(4, 0x3F804000#32), (6, 0x3F803F80#32)], .bfma2 { z with d := 2, a := 4, b := 6, c := 6 }, 2, 0x40004040#32),
    ([(4, 0x3FC00000#32), (6, 0x40100000#32), (8, 0x3F800000#32)], .fclass { z with d := 2, a := 4 }, 2, 0x40#32),
    ([(4, 0xFF800001#32)], .fclass { z with d := 2, a := 4 }, 2, 0x100#32),
    ([(4, 0x3FC00000#32), (6, 0x40100000#32), (8, 0x3F800000#32)], .cvti { z with d := 2, a := 6 }, 2, 2),
    ([(4, 0xBFC00000#32)], .cvti { z with d := 2, a := 4, mod := 0x20 }, 2, 0),
    ([(4, 5)], .cvtf { z with d := 2, a := 4, mod := 0x20 }, 2, 0x40A00000#32)] : List (Sparse Word × Instr × Nat × Word)),
    regAfter (single r.1 r.2.1) r.2.1 0 r.2.2.1 = some r.2.2.2 := by decide

theorem test_float3 : ∀ r ∈ ([
    ([(4, 0x01000001#32)], .cvtf { z with d := 2, a := 4, mod := 0x23 }, 2, 0x4B800001#32),
    ([(4, 0x3FC00000#32), (6, 0x40100000#32), (8, 0x3F800000#32)], .cvtw { z with d := 2, a := 4, b := 6 }, 2, 0x40803E00#32),
    ([(4, 0x40803E00#32)], .cvtw { z with d := 2, a := 4, mod := 2 }, 2, 0x40100000#32),
    ([(4, 0x3FC00000#32), (6, 0x40100000#32), (8, 0x3F800000#32)], .fredg { z with d := 2, a := 4 }, 2, 0x3FC00000#32),
    ([(4, 0x3FC00000#32), (6, 0x40100000#32), (8, 0x3F800000#32)], .fmode { z with d := 2 }, 2, 0)] : List (Sparse Word × Instr × Nat × Word)),
    regAfter (single r.1 r.2.1) r.2.1 0 r.2.2.1 = some r.2.2.2 := by decide

set_option maxRecDepth 20000 in
theorem test_float4 : ∀ r ∈ ([
    ([(4, 0x40000000#32)], .frcp { z with d := 2, a := 4 }, 2, 0x3F000000#32),
    ([(4, 0x40800000#32)], .fsqrt { z with d := 2, a := 4 }, 2, 0x40000000#32),
    ([(4, 0x40800000#32)], .frsq { z with d := 2, a := 4 }, 2, 0x3F000000#32),
    ([(4, 0x40400000#32)], .fex2 { z with d := 2, a := 4 }, 2, 0x41000000#32),
    ([(4, 0x41000000#32)], .flg2 { z with d := 2, a := 4 }, 2, 0x40400000#32),
    ([(4, 0x3F000000#32)], .fsinp { z with d := 2, a := 4 }, 2, 0x3F800000#32),
    ([(4, 0x3F800000#32)], .fcosp { z with d := 2, a := 4 }, 2, 0xBF800000#32),
    ([(4, 0xC0800000#32)], .fsqrt { z with d := 2, a := 4 }, 2, 0x7FC00000#32)] : List (Sparse Word × Instr × Nat × Word)),
    regAfter (single r.1 r.2.1) r.2.1 0 r.2.2.1 = some r.2.2.2 := by decide

/-- R147: 1.5 < 2.25; 1.0 < 2.0; a NaN is unordered. -/
theorem test_float_compare : ∀ r ∈ ([
    ([(4, 0x3FC00000#32), (6, 0x40100000#32)], .fcmp { z with d := 2, a := 4, b := 6, mod := 1 }, true),
    ([(4, 0x7FC00000#32)], .fcmp { z with d := 2, a := 4, b := 6, mod := 7 }, false),
    ([(5, 0x3FF00000#32), (7, 0x40000000#32)], .dcmp { z with d := 2, a := 4, b := 6, mod := 4 }, false)]
      : List (Sparse Word × Instr × Bool)), predAfter (single r.1 r.2.1) r.2.1 0 2 = some r.2.2 := by decide

/-- R154: .set takes CNAN, FOZ, FIZ and RM from bits 4 to 0. -/
theorem test_fmode_set :
    ((laneAfter (single [(4, 0x1D#32)] (.fmode { z with a := 4, mod := 1 })) (.fmode { z with a := 4, mod := 1 }) 0).map fun l =>
      (l.cnan, l.foz, l.fiz, l.rm.toNat)) = some (true, true, true, 1) := by decide

/-- A team of an instance whose slot 0 is E4M3 without scales, and armed (R158). -/
def slotted (regs : Sparse Word) (i : Instr) : State :=
  { single regs i with instances := [{ id := 0, ctx := 0, record := { slots := [0x44#64] }, grid := false, ember := [],
                                       partition := 0, total := 1 }] }

/-- R155, R161, R162: 460 gives 448 without SAT, 470 gives 448 with SAT, which the armed slot also keeps in SATA; back again. -/
theorem test_quantise :
    regAfter (slotted [(4, 0x43E60000#32)] (.qcvt { z with d := 2, a := 4, b := 6 })) (.qcvt { z with d := 2, a := 4, b := 6 }) 0 2
      = some 0x7E#32 ∧
    (laneAfter (slotted [(4, 0x43EB0000#32)] (.qcvt { z with d := 2, a := 4, b := 6 })) (.qcvt { z with d := 2, a := 4, b := 6 }) 0).map
      (fun l => l.pend.map fun q => q.sat) = some [some true] ∧
    regAfter (slotted [(4, 0x3C#32)] (.dqcvt { z with d := 2, a := 4, b := 6 })) (.dqcvt { z with d := 2, a := 4, b := 6 }) 0 2
      = some 0x3FC00000#32 := by decide


set_option exponentiation.threshold 3000 in
set_option maxRecDepth 20000 in
/-- R140: the premises of the rounding statements hold for a third in every format. -/
theorem test_rounding_premise : ∀ ft ∈ [f32, f64, f16, bf16], 1 * 2 ^ 1100 ≤ scaled ft ft.maxCode * 3 := by decide

/-- R140: a third lies between 0x3EAAAAAA and 0x3EAAAAAB. -/
theorem test_rounding :
    f32.round .rne false 1 3 = 0x3EAAAAAB ∧ f32.round .rtz false 1 3 = 0x3EAAAAAA ∧ f32.round .rup true 1 3 = 0xBEAAAAAA ∧
    f32.round .rdn true 1 3 = 0xBEAAAAAB := by decide

/-- Each register form issues with some fields: SEL with a guard, MOVI without a register to read. -/
theorem test_frame_premise :
    (List.range 63).all (fun n => [z, { z with d := 2, a := 4 }, { z with d := 2, a := 4, ge := true, gp := 1 }].any fun f =>
      allIssue (((registerForms f)[n]?.map fun i => i.1).toList)) = true ∧ (registerForms z).length = 63 := by decide
/-! ## Witnesses: memory, scratchpad and atomics

Each Meets says that the condition of one clause of a statement holds in some issue of its instruction. -/

def fl : Fields := { z with d := 2, a := 4, imm := 0x100 }

/-- The small machine with a0..: a4:a5 = 0x1000, a6:a7 = 9. -/
def near (i : Instr) : State := single [(4, 0x1000), (6, 9)] i

def fl2 : Fields := { fl with mod := 2 }

/-- A place where accesses of the small machine lead: memory with its page, or the own scratchpad. -/
def atMemory (_ : Nat) : Reached := .memory 0x1100 page0

def atScratch (_ : Nat) : Reached := .scratch { team := 2, offset := 0x100 }

/-- A unit of another team that has waited a cycle at the port of the load's line (R21, R24). -/
def busy (i : Instr) : State :=
  { near i with clk := 1, queue := [{ unit := 3, team := 5, bytes := [(0x1100, 7)], device := 0 }] }

/-- The small machine with a5 = 0x01000000: a4:a5 is in the own scratchpad. -/
def own (i : Instr) : State := single [(5, 0x01000000#32), (6, 9)] i

theorem test_load_clauses :
    Meets (.ld { fl with mod := 2 }) { fl with mod := 2 } (fun e ls =>
      e.quiet ∧ ∀ j ∈ ls, reachGeneric e j (e.address { fl with mod := 2 } j) 4 4 0 false = atMemory j ∧
        loadHeld { fl with mod := 2 } e (atMemory j) = none) ∧
    Meets (.ld { fl with mod := 2 }) { fl with mod := 2 } (fun e ls =>
      e.quiet ∧ ∀ j ∈ ls, reachGeneric e j (e.address { fl with mod := 2 } j) 4 4 0 false = atMemory j ∧
        loadHeld { fl with mod := 2 } e (atMemory j) = some 0x1100) ∧
    Meets (.ld { fl with mod := 11 }) { fl with mod := 11 } (fun e ls =>
      e.quiet ∧ ∀ j ∈ ls, reachGeneric e j (e.address { fl with mod := 11 } j) 8 8 0 false = atMemory j ∧
        loadHeld { fl with mod := 11 } e (atMemory j) = none) ∧
    Meets (.ld { fl with mod := 3 }) { fl with mod := 3 } (fun e ls =>
      e.quiet ∧ ∀ j ∈ ls, reachGeneric e j (e.address { fl with mod := 3 } j) 8 8 0 false = atScratch j ∧
        loadHeld { fl with mod := 3 } e (atScratch j) = none) :=
  ⟨meets_of (near (.ld { fl with mod := 2 })) (by decide) (by unfold Env.quiet; decide),
   meets_of (busy (.ld { fl with mod := 2 })) (by decide) (by unfold Env.quiet; decide),
   meets_of (near (.ld { fl with mod := 11 })) (by decide) (by unfold Env.quiet; decide),
   meets_of (own (.ld { fl with mod := 3 })) (by decide) (by unfold Env.quiet; decide)⟩

/-- R173, R184: a signed byte load returns the byte of M; a .live load waits for its home; 8 bytes of scratchpad are two requests. -/
theorem test_load_results :
    regAfter { near (.ld { fl with mod := 4 }) with mem := [(0x1100, 0x80)] } (.ld { fl with mod := 4 }) 0 2 = some 0xFFFFFF80#32 ∧
    (laneAfter (busy (.ld fl2)) (.ld fl2) 0).map (fun l => l.status) = some (.waiting (.turn 0x1100)) ∧
    ((nextOf (exec (.ld { fl with mod := 11 }) (near (.ld { fl with mod := 11 })))).map fun t => t.ops.length) = some 1 ∧
    ((nextOf (exec (.ld { fl with mod := 3 }) (own (.ld { fl with mod := 3 })))).map fun t => t.ops.map Op.span) =
      some [some (2, 0x100, 4), some (2, 0x104, 4)] := by decide

def fst' : Fields := { z with a := 4, b := 6, mod := 2, imm := 0x100 }

theorem test_store_clause :
    Meets (.st fst') fst' (fun e ls => ∀ j ∈ ls, reachGeneric e j (e.address fst' j) 4 4 1 false = atMemory j) ∧
    Meets (.st fst') fst' (fun e ls => ∀ j ∈ ls, reachGeneric e j (e.address fst' j) 4 4 1 false = atScratch j) :=
  ⟨meets_of (near (.st fst')) (by decide) (by decide), meets_of (own (.st fst')) (by decide) (by decide)⟩

/-- R174: a store issues as one access to enter; memory keeps its bytes. -/
theorem test_store_result :
    ((nextOf (exec (.st fst') (near (.st fst')))).map fun t => (t.ops.map fun o => o.access, t.mem)) =
      some ([.enter [(0x1100, 9), (0x1101, 0), (0x1102, 0), (0x1103, 0)]], []) := by decide

/-- A state with a team whose core has room in its view cache (R13). -/
theorem test_fill_premise :
    (single [] .nop).team? (teamOf 0).id = some (teamOf 0) ∧ ((single [] .nop).coreLines (teamOf 0).core).length < viewCapacity := by
  decide

/-- An access of the issuing thread that is still to enter. -/
def entering : Op := { id := 3, gid := 1, lane := 0, team := 2, pend := none, va := 0, pc := 0, issued := 0, access := .enter [(64, 1)] }

/-- A store of the thread waits for a shadow line. -/
def stuck (i : Instr) : State := { near i with ops := [{ entering with waiting := some 0 }] }

/-- R174: the last clause of PhaseAndFence, for each of its instructions. -/
theorem test_waits_for_a_shadow_line : ∀ r ∈ [(Instr.phase { z with sc := 2 }, { z with sc := 2 }),
      (.fence { z with sc := 2 }, { z with sc := 2 }), (.ld fl, fl)],
    ready r.1 r.2 (stuck r.1) = true ∧ (envOf r.1 (stuck r.1)).g.sata = false ∧
      ∀ j ∈ actors r.1 r.2 (envOf r.1 (stuck r.1)), (envOf r.1 (stuck r.1)).s.classOf (envOf r.1 (stuck r.1)).t
          ((envOf r.1 (stuck r.1)).address r.2 j) = .global ∧
        (({ (envOf r.1 (stuck r.1)).s with ids := 10 } : State).enterLanes 1
          (actors r.1 r.2 (envOf r.1 (stuck r.1)))).threadStores 1 j ≠ [] := by decide

theorem test_phase_and_fence_clauses :
    Meets (.phase { z with sc := 2 }) { z with sc := 2 } (fun e _ => e.quiet ∧ e.g.sata = false) ∧
    Meets (.phase { z with sc := 2 }) { z with sc := 2 } (fun e ls => ls ≠ [] ∧ e.g.sata = true) ∧
    Meets (.fence { z with sc := 2, mod := 1 }) { z with sc := 2, mod := 1 } (fun e _ => e.quiet) :=
  ⟨meets_of (near (.phase { z with sc := 2 })) (by decide) (by unfold Env.quiet; decide),
   meets_of { near (.phase { z with sc := 2 }) with groups := [{ groupIn (near .nop) with sata := true }] } (by decide) (by decide),
   meets_of (near (.fence { z with sc := 2, mod := 1 })) (by decide) (by unfold Env.quiet; decide)⟩

theorem test_view_clauses :
    Meets (.pref { z with a := 4, imm := 0x100 }) { z with a := 4, imm := 0x100 } (fun e ls => ∀ j ∈ ls,
      e.s.classOf e.t (e.address { z with a := 4, imm := 0x100 } j) = .global ∧
      e.s.translate e.t.ctx e.g.core (e.g.lane j).lastPage (e.address { z with a := 4, imm := 0x100 } j) 0 = .ok 0x1100 page0) ∧
    ready (.pref { z with a := 4, mod := 1 }) { z with a := 4, mod := 1 } (near (.pref { z with a := 4, mod := 1 })) = true ∧
    ready (.invv { z with a := 4, b := 6, sc := 2, mod := 1 }) { z with a := 4, b := 6, sc := 2, mod := 1 }
      (near (.invv { z with a := 4, b := 6, sc := 2, mod := 1 })) = true :=
  ⟨meets_of (near (.pref { z with a := 4, imm := 0x100 })) (by decide) (by decide), by decide, by decide⟩

/-- R189: the class code of a global address, of one of the own scratchpad, of none, and a .probe of a mapped page. -/
theorem test_cvta_results :
    regAfter (near (.cvta { z with d := 2, a := 4 })) (.cvta { z with d := 2, a := 4 }) 0 2 = some 0 ∧
    regAfter (single [(5, 0x01000000#32)] (.cvta { z with d := 2, a := 4 })) (.cvta { z with d := 2, a := 4 }) 0 2 = some 1 ∧
    regAfter (single [(5, 0x02000000#32)] (.cvta { z with d := 2, a := 4 })) (.cvta { z with d := 2, a := 4 }) 0 2 = some 3 := by
  decide

/-- R163, R164, R168: where generic addresses lead: unused, misaligned, denied, absent, ready, waiting, failed. -/
theorem test_generic_access_clauses :
    let e := envOf (.ld fl) (near (.ld fl))
    let away : Env := { e with s := { e.s with cores := [], contexts := [(0, { root := 0 })] } }
    e.s.classOf e.t 0x0200000000000000#64 = .unused ∧
    (e.s.classOf e.t 0x1001#64 ≠ .unused ∧ (0x1001#64).toNat % 4 ≠ 0) ∧
    (e.s.classOf e.t 0x1004#64 = .global ∧ e.s.translate e.t.ctx 0 none 0x1004 0 = .ok 0x1004 page0 ∧ e.s.home 0x1004 = .ready) ∧
    (away.s.classOf e.t 0x1004#64 = .global ∧ away.s.translate e.t.ctx 0 none 0x1004 0 = .denied) ∧
    ({ e.s with hub := {} } : State).home 0x1004 = .waiting ∧
    ({ e.s with hub := { e.s.hub with failA := BitVec.allOnes 64 } } : State).home 0x1004 = .failed := by decide

/-- R163: the first address of each class and the last of the own slice. -/
theorem test_address_classes :
    let e := envOf (.ld fl) (near (.ld fl))
    e.s.classOf e.t 0x00FFFFFFFFFFFFFF#64 = .global ∧ e.s.classOf e.t 0x0100000000000FFF#64 = .scratchpad 0xFFF ∧
    e.s.classOf e.t 0x0100000000001000#64 = .unused ∧ e.s.classOf e.t 0x0101000000000FFF#64 = .window 0 0xFFF ∧
    e.s.classOf e.t 0x0101000000100000#64 = .unused := by decide

/-- Tables of five levels for virtual address 0, whose leaf entry has these low bits and frame 0x6000. -/
def mapped (leaf : Byte) : State :=
  { near (.ld fl) with
    cores := [], contexts := [(0, { root := 0x1000 })],
    mem := [(0x1000, 0x01), (0x1001, 0x20), (0x2000, 0x01), (0x2001, 0x30), (0x3000, 0x01), (0x3001, 0x40), (0x4000, 0x01),
            (0x4001, 0x50), (0x5000, leaf), (0x5001, 0x60)] }

/-- R209 on 32 bits: addition wraps; signed minimum; exclusive or; increment and decrement with bounds; swap on equality. -/
theorem test_atomic_operations :
    atomicResult 0 0 32 0xFFFFFFFF 2 0 = 1 ∧ atomicResult 1 0 32 0xFFFFFFFF 2 0 = 0xFFFFFFFF ∧
    atomicResult 7 0 32 0xF0 0xFF 0 = 0x0F ∧ atomicResult 9 0 32 5 5 0 = 0 ∧ atomicResult 9 0 32 4 5 0 = 5 ∧
    atomicResult 10 0 32 0 7 0 = 7 ∧ atomicResult 10 0 32 3 7 0 = 2 ∧ atomicResult 16 0 32 3 3 9 = 9 := by decide

/-- The page table that `mapped` builds gives virtual address 0x123 to 0x6123 where the entry allows it (R168, R399). -/
theorem test_translation_clauses :
    let s := mapped 0x07
    (s.walk 0 0x40000000 = none) ∧
    (s.walk 0 0x123).map (fun l => (l.size, entryAllows l.entry 0, entryAllows l.entry 1, entryP l.entry, entryRem l.entry,
      entryFrame l.entry)) = some (0, true, false, true, false, 0x6000) ∧
    ((mapped 0x05).walk 0 0x123).map (fun l => (entryAllows l.entry 0, entryP l.entry)) = some (true, false) ∧
    (∀ p ∈ (s.core 0).tlb, s.pageHit (s.ctx 0).asid 0x123 p = false) ∧
    s.translate 0 0 none 0x123 1 = .denied ∧ (mapped 0x05).translate 0 0 none 0x123 0 = .absent ∧
    ({ s with hub := {} } : State).translate 0 0 none 0x123 0 = .waits 0x1000 ∧
    (∃ p, s.translate 0 0 none 0x123 0 = .ok 0x6123 p) := by
  refine ⟨?_, ?_, ?_, ?_, ?_, ?_, ?_, ⟨_, rfl⟩⟩ <;> decide

/-- R190: a page that the TLB holds (1 GiB, in HBM, R, W and X), one that the table alone maps (4 KiB, R and W), and no mapping. -/
theorem test_probe_clauses :
    probeWord (envOf (.ld fl) (near (.ld fl))) 0 0x1000 = 0x30F#32 ∧ probeWord (envOf (.ld fl) (mapped 0x07)) 0 0x123 = 3 ∧
    probeWord (envOf (.ld fl) (mapped 0x07)) 0 0x40000000 = 0 ∧ (near (.ld fl)).linesOfRange 0 0x1000 0 = [] ∧
    (mapped 0x07).linesOfRange 0 0xFF0 32 = [0x6F80 / 128] := by decide

/-- R163, R206: the premises of a scratchpad and of a cluster window access; the own team is the one member. -/
theorem test_window_premises :
    let e := envOf (.ld fl) (near (.ld fl))
    e.s.classOf e.t 0x0100000000000100#64 = .scratchpad 0x100 ∧ e.s.classOf e.t 0x0101000000000100#64 = .window 0 0x100 ∧
    (match e.memberTeam 0 with | .ok m => decide (e.s.team? m.id = some m) | _ => false) = true ∧
    e.s.team? e.t.id = some e.t ∧ ∀ n ∈ List.range 32, descV (e.t.buffer n) = false := by decide

/-- Descriptors (R196): b0 plain, 1024 bytes at 0; b1 a stream, filling up to 64, 128 bytes at 1024; b2 tagged and full, 2 KiB
at 2048 in 128-byte slots of 1 way; b3 an empty stream of 128 bytes at 1152; b4 a full stream at 1280. -/
def buffers0 : Sparse DWord :=
  [(0, 0x08007000#64), (1, 0x0000004058000008#64), (2, 0x00000000A800F010#64), (3, 0x18000009#64), (4, 0x000000809800000A#64)]

/-- The small machine with these buffers: a4:a5 = 0x08000018, a6 = 8, a8 = 3. -/
def buffered (i : Instr) : State :=
  issuing i 1 { teamOf 0 with buffers := buffers0 } (groupOf [laneWith [(4, 0x08000018), (6, 8), (8, 3)]])

def okOf (r : Except FaultInfo Nat) : Option Nat :=
  match r with
  | .ok n => some n
  | .error _ => none

theorem test_buffer_check_clauses :
    let t : Team := { teamOf 0 with buffers := buffers0 }
    descV (t.buffer 5) = false ∧
    (descV (t.buffer 0) = true ∧ descSize (t.buffer 0) = 1024 ∧ descKind (t.buffer 0) = 0 ∧
      okOf (checkBuffer t 0 1020 4 .write) = some 1020 ∧ okOf (checkBuffer t 0 1024 4 .write) = none ∧
      okOf (checkBuffer t 0 2 4 .read) = none) ∧
    (descKind (t.buffer 1) = 1 ∧ descState (t.buffer 1) = 1 ∧ descWp (t.buffer 1) = 64 ∧ 
      okOf (checkBuffer t 1 60 4 .read) = some 1084 ∧ okOf (checkBuffer t 1 64 4 .read) = none) ∧
    (descV (t.buffer 3) = true ∧ descKind (t.buffer 3) = 1 ∧ descState (t.buffer 3) = 0) ∧
    (descV (t.buffer 4) = true ∧ descKind (t.buffer 4) = 1 ∧ descState (t.buffer 4) = 2) := by decide

def flds : Fields := { z with d := 2, b := 6, mod := 2, imm := 0x10 }

def fsts : Fields := { z with a := 4, b := 6, mod := 2, imm := 0x10 }

theorem test_scratch_clauses :
    Meets (.lds flds) flds (fun e ls => ∀ j ∈ ls,
      reachBuffer e 0 ((e.reg j 6).toNat + flds.imm.toInt) (accessBytes flds) .read = .scratch { team := 2, offset := 24 }) ∧
    Meets (.ldsr flds) flds (fun e ls => ∀ j ∈ ls,
      reachRemote e 0 ((e.reg j 6).toNat + flds.imm.toInt) (accessBytes flds) .read = .scratch { team := 2, offset := 24, remote := true }) ∧
    Meets (.sts fsts) fsts (fun e ls => ∀ j ∈ ls,
      reachBuffer e 0 ((e.reg j 6).toNat + fsts.imm.toInt) (accessBytes fsts) .write = .scratch { team := 2, offset := 24 }) ∧
    Meets (.stsr fsts) fsts (fun e ls => ∀ j ∈ ls,
      reachRemote e 0 ((e.reg j 6).toNat + fsts.imm.toInt) (accessBytes fsts) .write = .scratch { team := 2, offset := 24, remote := true }) :=
  ⟨meets_of (buffered (.lds flds)) (by decide) (by decide), meets_of (buffered (.ldsr flds)) (by decide) (by decide),
   meets_of (buffered (.sts fsts)) (by decide) (by decide), meets_of (buffered (.stsr fsts)) (by decide) (by decide)⟩

def fbd : Fields := { z with a := 4, c := 7 }

theorem test_buffer_table_clauses :
    Meets (.bdecl fbd) fbd (fun e ls =>
      ls ≠ [] ∧ (descV (e.t.buffer 7) = true → descEng (e.t.buffer 7) = false ∧
          (descKind (e.t.buffer 7) = 0 ∨ descState (e.t.buffer 7) = 0)) ∧
        e.s.declarable e.t 7 (e.pair (ls.headD 0) 4) = true) ∧
    Meets (.bdecl { z with c := 3, mod := 1 }) { z with c := 3, mod := 1 } (fun e ls =>
      ls ≠ [] ∧ (descV (e.t.buffer 3) = true → descEng (e.t.buffer 3) = false ∧
          (descKind (e.t.buffer 3) = 0 ∨ descState (e.t.buffer 3) = 0))) ∧
    Meets (.bset { z with b := 6, c := 3, mod := 1 }) { z with b := 6, c := 3, mod := 1 } (fun e ls =>
      ls ≠ [] ∧ descV (e.t.buffer 3) = true ∧ descEng (e.t.buffer 3) = false ∧
        bsetWp (e.t.buffer 3) 1 (e.reg (ls.headD 0) 6).toNat = some 8) ∧
    Meets (.tlook { z with d := 2, a := 4, c := 2 }) { z with d := 2, a := 4, c := 2 } (fun e _ => tagCheck e.t 2 = none) ∧
    Meets (.tinst { z with a := 8, b := 8, c := 2 }) { z with a := 8, b := 8, c := 2 } (fun e ls =>
      tagCheck e.t 2 = none ∧ ∀ j ∈ ls, (e.reg j 8).toNat < descSlots (e.t.buffer 2) ∧
        (e.reg j 8).toNat ∈ slotsOfTag (e.t.buffer 2) (e.reg j 8)) ∧
    Meets (.tdrop { z with a := 8, c := 2 }) { z with a := 8, c := 2 } (fun e ls =>
      tagCheck e.t 2 = none ∧ (false = false → ∀ j ∈ ls, (e.reg j 8).toNat < descSlots (e.t.buffer 2))) :=
  ⟨meets_of { buffered (.bdecl fbd) with
       groups := [groupOf [laneWith [(4, 0x0000#32), (5, 0)]]], teams := [{ teamOf 0 with buffers := [] }] }
     (by decide) (by decide),
   meets_of (buffered (.bdecl { z with c := 3, mod := 1 })) (by decide) (by decide),
   meets_of (buffered (.bset { z with b := 6, c := 3, mod := 1 })) (by decide) (by decide),
   meets_of (buffered (.tlook { z with d := 2, a := 4, c := 2 })) (by decide) (by decide),
   meets_of (buffered (.tinst { z with a := 8, b := 8, c := 2 })) (by decide) (by decide),
   meets_of (buffered (.tdrop { z with a := 8, c := 2 })) (by decide) (by decide)⟩

/-- A full plain stream that an engine holds, in b4 (R196). -/
def held4 (i : Instr) : State :=
  { buffered i with teams := [{ teamOf 0 with buffers := [(4, 0x000000809C00000A#64)] }] }

theorem test_buffer_fault_clauses :
    Meets (.bdecl { z with c := 1, a := 4 }) { z with c := 1, a := 4 } (fun e ls => ls ≠ [] ∧ ¬redeclares (e.t.buffer 1)) ∧
    Meets (.bdecl { z with c := 7, a := 6 }) { z with c := 7, a := 6 } (fun e ls =>
      ls ≠ [] ∧ redeclares (e.t.buffer 7) ∧ e.s.declarable e.t 7 (e.pair (ls.headD 0) 6) = false) ∧
    Meets (.bset { z with b := 6, c := 5 }) { z with b := 6, c := 5 } (fun e ls => ls ≠ [] ∧ descV (e.t.buffer 5) = false) ∧
    Meets (.bset { z with b := 6, c := 4 }) { z with b := 6, c := 4 } (fun e ls => ls ≠ [] ∧ descEng (e.t.buffer 4) = true) ∧
    Meets (.bset { z with b := 6, c := 1, mod := 1 }) { z with b := 6, c := 1, mod := 1 } (fun e ls =>
      ls ≠ [] ∧ descV (e.t.buffer 1) = true ∧ descEng (e.t.buffer 1) = false ∧
        bsetWp (e.t.buffer 1) 1 (e.reg (ls.headD 0) 6).toNat = none) ∧
    (∀ i, i = .tlook { z with d := 2, a := 4, c := 1 } ∨ i = .tinst { z with a := 4, b := 8, c := 1 } ∨
      i = .tdrop { z with a := 4, c := 1 } → ∃ f, Meets i f (fun e _ => descKind (e.t.buffer f.c.toNat) ≠ 2)) :=
  ⟨meets_of (buffered (.bdecl { z with c := 1, a := 4 })) (by decide) (by unfold redeclares; decide),
   meets_of { buffered (.bdecl { z with c := 7, a := 6 }) with groups := [groupOf [laneWith [(6, 0xFFFFFFFF#32)]]] }
     (by decide) (by unfold redeclares; decide),
   meets_of (buffered (.bset { z with b := 6, c := 5 })) (by decide) (by decide),
   meets_of (held4 (.bset { z with b := 6, c := 4 })) (by decide) (by decide),
   meets_of (buffered (.bset { z with b := 6, c := 1, mod := 1 })) (by decide) (by decide),
   by
     rintro i (rfl | rfl | rfl)
     · exact ⟨{ z with d := 2, a := 4, c := 1 },
         meets_of (buffered (.tlook { z with d := 2, a := 4, c := 1 })) (by decide) (by decide)⟩
     · exact ⟨{ z with a := 4, b := 8, c := 1 },
         meets_of (buffered (.tinst { z with a := 4, b := 8, c := 1 })) (by decide) (by decide)⟩
     · exact ⟨{ z with a := 4, c := 1 },
         meets_of (buffered (.tdrop { z with a := 4, c := 1 })) (by decide) (by decide)⟩⟩

/-- R217: BQRY of the stream b1: its write pointer, and its descriptor as a pair. -/
theorem test_bqry_results :
    regAfter (buffered (.bqry { z with d := 2, c := 1 })) (.bqry { z with d := 2, c := 1 }) 0 2 = some 64 ∧
    regAfter (buffered (.bqry { z with d := 2, c := 1, mod := 2 })) (.bqry { z with d := 2, c := 1, mod := 2 }) 0 2 =
      some 0x58000008#32 := by decide

/-- R218: a tag that stands in slot 3; one whose slot is free; one whose only slot holds another tag. -/
theorem test_lookup_clauses :
    let t : Team := { teamOf 0 with buffers := buffers0, tags := [(4096 * 2 + 3, some 3)] }
    descSlots (t.buffer 2) = 16 ∧ lookup 0 t 2 3 = 3 ∧ lookup 0 t 2 5 = 0x80000005#32 ∧ lookup 0 t 2 19 = 0xC0000003#32 := by decide

def fat : Fields := { z with d := 2, a := 4, b := 6, sc := 5, imm := 0x100 }

theorem test_atomic_clauses :
    (∀ i, i = .atom fat ∨ i = .atcas fat → Meets i fat (fun e ls => ∀ j ∈ ls,
      reachAtomic e fat j (e.address fat j) 4 4 false = .memory 0x1100 page0)) ∧
    Meets (.red { fat with d := 0, sc := 4 }) { fat with d := 0, sc := 4 } (fun e ls => ∀ j ∈ ls,
      reachRed e { fat with d := 0, sc := 4 } j (e.address { fat with d := 0, sc := 4 } j) 4 = .memory 0x1100 page0) ∧
    Meets (.atom { fat with sc := 3 }) { fat with sc := 3 } (fun e ls => ∀ j ∈ ls,
      reachGeneric e j (e.address fat j) 4 4 3 false = .memory 0x1100 page0 ∧
      reachAtomic e { fat with sc := 3 } j (e.address fat j) 4 4 false =
        .failed { kind := atomicScope, addr := e.address fat j } page0) ∧
    Meets (.atom { fat with sc := 2 }) { fat with sc := 2 } (fun e ls => ∀ j ∈ ls,
      reachAtomic e { fat with sc := 2 } j (e.address fat j) 4 4 false = .scratch { team := 2, offset := 0x100 }) ∧
    Meets (.red { fat with d := 0 }) { fat with d := 0 } (fun e ls => ∀ j ∈ ls,
      reachRed e { fat with d := 0 } j (e.address { fat with d := 0 } j) 4 = .memory 0x1100 page0) ∧
    Meets (.red { fat with d := 1, c := 8 }) { fat with d := 1, c := 8 } (fun e ls => ∀ j ∈ ls,
      reachRed e { fat with d := 1, c := 8 } j (e.address { fat with d := 1, c := 8 } j) 4 = .memory 0x1100 page0 ∧
        reachAddress e j (e.address { fat with d := 1, c := 8 } j) 4 4 3 true = .memory 0x1100 page0 ∧
        (e.reg j 8).toNat % 2 ^ 12 ≤ (e.reg j 8).toNat / 2 ^ 16 % 2 ^ 12) ∧
    Meets (.red { fat with d := 1, c := 8 }) { fat with d := 1, c := 8 } (fun e ls => ∀ j ∈ ls,
      reachRed e { fat with d := 1, c := 8 } j (e.address { fat with d := 1, c := 8 } j) 4 =
        .failed { kind := rankInvalid, addr := e.address { fat with d := 1, c := 8 } j } page0) :=
  ⟨by
     rintro i (rfl | rfl)
     · exact meets_of (near (.atom fat)) (by decide) (by decide)
     · exact meets_of (near (.atcas fat)) (by decide) (by decide),
   meets_of (near (.red { fat with d := 0, sc := 4 })) (by decide) (by decide),
   meets_of (near (.atom { fat with sc := 3 })) (by decide) (by decide),
   meets_of (own (.atom { fat with sc := 2 })) (by decide) (by decide),
   meets_of (near (.red { fat with d := 0 })) (by decide) (by decide),
   meets_of (single [(4, 0x1000), (6, 9), (8, 0x10001#32)] (.red { fat with d := 1, c := 8 })) (by decide) (by decide),
   meets_of (single [(4, 0x1000), (6, 9), (8, 2)] (.red { fat with d := 1, c := 8 })) (by decide) (by decide)⟩

/-! ## Witnesses and results: control flow, frames, masks -/

/-- A line of short NOPs at address 0 whose slot 0 is a target. -/
def line0 : Line := lineWith 0 0 1 [nopWord]

/-- A lane in the frame of a call from address 8 of line 0: the caller has 16 locals at row 0, the callee none. -/
def callee : Lane :=
  { status := .ready, pc := 8, fetch := .held line0, fp := 32, n := 0, depth := 1, hi := 48, links := [(1, makeLink 1 0 8)] }

/-- One lane issues alone. -/
def lone (l : Lane) (i : Instr) : State := issuing i 1 (teamOf 0) (groupOf [l])

def caller : Lane := { laneWith [(4, 8)] with fetch := .held line0 }

/-- R67, R68: the clauses of TargetsAreChecked: a held line, and a line to be read whose page is granted, denied, absent. -/
theorem test_target_clauses :
    let s := lone caller (.bra z)
    (caller.fetch = .held line0 ∧ line0.base = lineBase 8 ∧ line0.base ≠ lineBase 136) ∧
    (∃ page, s.translate 0 0 none (lineBase 136) 2 = .ok 128 page) ∧
    (mapped 0x03).translate 0 0 none (lineBase 8) 2 = .denied ∧ (mapped 0x11).translate 0 0 none (lineBase 8) 2 = .absent ∧
    ((s.core 0).icache.find? fun x => x.1 == lineKey 0 136 128) = none ∧ s.home 128 = .ready := by
  refine ⟨by decide, ⟨_, rfl⟩, by decide, by decide, by decide, by decide⟩

/-- R68, R70: what line 0 admits, and what an invalid KIND and an invalid frame give. -/
theorem test_target_results :
    let s := lone caller (.bra z)
    let onLine (l : Line) : Lane := { caller with fetch := .held l }
    let kindOne : Line := { line0 with words := line0.words.set 1 0x40000000#32 }
    let noStart : Line := { line0 with words := line0.words.set 0 0 }
    s.transfer 0 0 caller 8 .call = .ok line0 ∧ s.transfer 0 0 caller 12 .none = .ok line0 ∧
    s.transfer 0 0 caller 12 .branch = .bad { kind := branchTarget, addr := 12 } ∧
    s.transfer 0 0 caller 0 .none = .bad { kind := lineFrame, addr := 0 } ∧
    s.transfer 0 0 (onLine kindOne) 8 .none = .bad { kind := lineKind, addr := 8 } ∧
    s.transfer 0 0 (onLine noStart) 8 .branch = .bad { kind := lineFrame, addr := 8 } := by decide

/-- R67, R68, R106: a branch to slot 0 stays at 8; one to slot 1, no target, raises BranchTarget. -/
theorem test_branch_results :
    (laneAfter (lone caller (.bra z)) (.bra z) 0).map (fun l => (l.pc, l.status)) = some (8, .ready) ∧
    ((nextOf (exec (.bra { z with imm := 4 }) (lone caller (.bra { z with imm := 4 })))).map fun t =>
      (t.records.map fun r => (r.kind.toNat % 256, r.addr)).take 1) = some [(5, 12)] := by decide

/-- R107: the callee's frame starts 16 + n above the caller's, with a link entry that returns past the 3-word CALL. -/
theorem test_call_result :
    (laneAfter (lone caller (.call z)) (.call z) 0).map (fun l => (l.fp, l.n, l.depth, l.hi, l.link 1)) =
      some (32, 0, 1, 48, 0x1000000000000014#64) := by decide

/-- R97, R108: the clauses of RET: at depth 0, on a trap link, with the caller resident, and not. -/
theorem test_return_clauses : ∀ r ∈ ([
      ({ callee with depth := 0 }, true, true, true), ({ callee with links := [(1, 0)] }, false, true, true),
      (callee, false, false, true), ({ callee with lo := 32 }, false, false, false)] : List (Lane × Bool × Bool × Bool)),
    ready (.ret z) z (lone r.1 (.ret z)) = true ∧ decide (r.1.depth = 0) = r.2.1 ∧
      (decide (linkNq (r.1.link r.1.depth) = 0)) = r.2.2.1 ∧ decide (r.1.lo ≤ 0) = r.2.2.2 := by decide

/-- R108: the caller's frame again. -/
theorem test_return_result :
    (laneAfter (lone callee (.ret z)) (.ret z) 0).map (fun l => (l.pc, l.fp, l.n, l.depth, l.hi)) = some (8, 0, 16, 0, 48) ∧
    (laneAfter (lone { callee with lo := 32 } (.ret z)) (.ret z) 0).map (fun l => l.status) = some (.waiting (.refill 0 0)) := by
  decide

/-- The premises on a release, at both ends of the registers it keeps. -/
theorem test_release_witness :
    callee.lo ≤ callee.lo ∧ callee.lo < callee.fp + 16 ∧ callee.lo ≤ callee.fp + 15 ∧ callee.hi - callee.lo ≤ 64 := by decide

/-- The premises on a call and its return. -/
theorem test_call_and_return_witness :
    caller.n % 16 = 0 ∧ 0 < caller.n ∧ caller.n < 256 ∧ caller.k < 16 ∧ (nextPC caller.pc 3).toNat < 2 ^ 56 := by decide

def fresh : Lane := { callee with depth := 0, fp := 0, hi := 16, links := [] }

/-- R85, R96 to R118: the premises of EXIT, and the arms of ENTER: a frame that fits, one that waits for a spill, one beyond KMAX. -/
theorem test_frame_clauses :
    Meets (.exit z) z (fun e _ => e.quiet ∧ e.g.sata = false) ∧
    Meets (.exit z) z (fun e ls => ls ≠ [] ∧ e.g.sata = true) ∧
    (ready (.enter { z with b := 2 }) { z with b := 2 } (lone fresh (.enter { z with b := 2 })) = true) ∧
    (laneAfter (lone callee (.enter { z with b := 2 })) (.enter { z with b := 2 }) 0).map (fun l => l.status) =
      some (.waiting (.spill 96)) ∧
    ((nextOf (exec (.win { z with b := 1 }) (lone fresh (.win { z with b := 1 })))).map fun t =>
      (t.records.map fun r => r.kind.toNat % 256).take 1) = some [1] ∧
    (laneAfter (lone { fresh with n := 80, hi := 112 } (.win { z with b := 1 })) (.win { z with b := 1 }) 0).map (fun l => l.k) = some 1 ∧
    callee.nextFill 64 0 = none ∧ ({ callee with lo := 32 } : Lane).nextFill 64 1 = some (0, 0) :=
  ⟨meets_of (lone fresh (.exit z)) (by decide) (by unfold Env.quiet; decide),
   meets_of { lone fresh (.exit z) with groups := [{ groupOf [fresh] with sata := true }] } (by decide) (by decide),
   by decide, by decide, by decide, by decide, by decide, by decide⟩

/-- R174: a store of the thread waits for a shadow line: EXIT, BARV, CBARV and YIELD wait for it. -/
theorem test_stores_come_first : ∀ r ∈ ([(.exit z, z), (.barv { z with b := 6 }, { z with b := 6 }),
      (.cbarv { z with sc := 3, mod := 1 }, { z with sc := 3, mod := 1 }), (.yield z, z)] : List (Instr × Fields)),
    ready r.1 r.2 (stuck r.1) = true ∧ (laneAfter (stuck r.1) r.1 0).map (fun l => l.status) = some (.waiting .stores) := by decide

/-- R111, R112: a group of one team with a live lane, and one without. -/
theorem test_end_premises :
    let s := lone fresh (.exit z)
    let done : State := { s with groups := [groupOf [{ fresh with status := .exited }]] }
    ((s.group? 1).map fun g => (g.live.isEmpty, g.ended)) = some (false, false) ∧
    ((done.group? 1).map fun g => (g.live.isEmpty, g.ended)) = some (true, false) ∧ s.team? 2 = some (teamOf 0) ∧
    (∀ c, c < 4 → s.teamArrived 2 c = false) := by decide

/-- R109 to R112, R116: a frame of 32 locals; the depth and the frame's base; an exit. -/
theorem test_frame_results :
    (laneAfter (lone fresh (.enter { z with b := 2 })) (.enter { z with b := 2 }) 0).map (fun l => (l.n, l.hi)) = some (32, 64) ∧
    regAfter (lone callee (.fdepth { z with d := 2 })) (.fdepth { z with d := 2 }) 0 34 = some 1 ∧
    regAfter (lone callee (.fdepth { z with d := 2, b := 1 })) (.fdepth { z with d := 2, b := 1 }) 0 34 = some 32 ∧
    (laneAfter (lone fresh (.exit z)) (.exit z) 0).map (fun l => l.status) = some .exited ∧
    (laneAfter (lone callee (.fspill z)) (.fspill z) 0).map (fun l => l.spillTo) = some (some 32) := by decide

/-- R113, R114: JOIN sets the two bits; WAIT releases both once both wait; LEAVE clears the bits. -/
theorem test_mask_results :
    ((nextOf (exec (.join { z with b := 3 }) (small (.join { z with b := 3 })))).bind fun t => (t.group? 1).map fun g => g.mask 3) =
      some 3 ∧
    (laneAfter (small (.wait { z with b := 3 })) (.wait { z with b := 3 }) 0).map (fun l => (l.status, l.pc)) = some (.ready, 16) ∧
    ((nextOf (exec (.leave { z with b := 3 }) (small (.leave { z with b := 3 })))).bind fun t => (t.group? 1).map fun g => g.mask 3) =
      some 0 := by decide

/-- R85: a waiting lane whose mask is not yet full stays, one whose bit is clear goes on, and two that fill it both do. -/
theorem test_release_clauses :
    let g (m : Word) (b : Lane) : Group :=
      { groupOf [{ status := .waiting (.mask 3) }, b] with masks := [(3, m)] }
    (g 3 { status := .ready }).releases 3 = false ∧ (g 3 { status := .waiting (.mask 3) }).releases 3 = true ∧
      ((g 2 { status := .ready }).mask 3).getLsbD 0 = false := by decide

/-! ## Witnesses and results: barriers, signals, tasks -/

/-- The small machine with the buffers, a barrier word at offset 24 of b0 that expects 2 with 1 pending: a6 = 8, a8 = 3. -/
def barrier (ph : Byte) (i : Instr) : State :=
  issuing i 1 { teamOf 0 with buffers := buffers0, slice := [(24, 1), (26, 2), (28, ph)] }
    (groupOf [laneWith [(4, 1), (6, 8), (8, 3)]])

def fb : Fields := { z with b := 6, imm := 0x10 }

theorem test_barrier_clauses :
    Meets (.binit { fb with a := 8 }) { fb with a := 8 } (fun e ls =>
      (∀ j ∈ ls, reachBuffer e 0 ((e.reg j 6).toNat + fb.imm.toInt) 8 .barrier = .scratch { team := e.t.id, offset := 24 }) ∧
        ∀ j ∈ ls, (e.reg j 8).toNat ≠ 0 ∧ (e.reg j 8).toNat < 65536) ∧
    Meets (.barv fb) fb (fun e ls =>
      (∀ j ∈ ls, reachBuffer e 0 ((e.reg j 6).toNat + fb.imm.toInt) 8 .barrier = .scratch { team := e.t.id, offset := 24 }) ∧ e.quiet ∧ e.g.sata = false) ∧
    Meets (.btest { fb with d := 2, a := 4 }) { fb with d := 2, a := 4 } (fun e ls =>
      ∀ j ∈ ls, reachBuffer e 0 ((e.reg j 6).toNat + fb.imm.toInt) 8 .barrier = .scratch { team := e.t.id, offset := 24 }) ∧
    Meets (.bwait { fb with a := 4 }) { fb with a := 4 } (fun e ls =>
      (∀ j ∈ ls, reachBuffer e 0 ((e.reg j 6).toNat + fb.imm.toInt) 8 .barrier = .scratch { team := e.t.id, offset := 24 }) ∧
        e.g.sata = false ∧
        ∀ j ∈ ls, e.t.phaseBit 24 ≠ (e.reg j 4).getLsbD 0) ∧
    Meets (.bwait { fb with a := 4 }) { fb with a := 4 } (fun e ls =>
      (∀ j ∈ ls, reachBuffer e 0 ((e.reg j 6).toNat + fb.imm.toInt) 8 .barrier = .scratch { team := e.t.id, offset := 24 }) ∧
        e.g.sata = false ∧
        ∀ j ∈ ls, e.t.phaseBit 24 = (e.reg j 4).getLsbD 0) :=
  ⟨meets_of (barrier 0 (.binit { fb with a := 8 })) (by decide) (by decide),
   meets_of (barrier 0 (.barv fb)) (by decide) (by unfold Env.quiet; decide),
   meets_of (barrier 0 (.btest { fb with d := 2, a := 4 })) (by decide) (by decide),
   meets_of (barrier 0 (.bwait { fb with a := 4 })) (by decide) (by decide),
   meets_of (barrier 1 (.bwait { fb with a := 4 })) (by decide) (by decide)⟩

/-- R222, R223: of a word that expects 2 with 1 pending, an arrival of weight 1 flips the phase and reloads PEND; of one with 2
pending, it counts down; 0 does nothing. -/
theorem test_arrival :
    let s := barrier 0 (.barv fb)
    ((s.arrive 2 24 1).1 = 0 ∧ ((s.arrive 2 24 1).2.team? 2).map (fun t => (t.phaseBit 24, t.sliceNat 24 2, t.sliceNat 26 2)) =
      some (true, 2, 2)) ∧
    ((s.arrive 2 24 3).1 = 2 ∧ (s.arrive 2 24 0).2 = s) := by decide

/-- The team in a cluster of one, whose barrier 1 has turned once. -/
def clustered (l : Lane) (i : Instr) : State :=
  { lone l i with
    teams := [{ teamOf 0 with cluster := some 5 }],
    clusters := [{ id := 5, inst := 0, base := 0, cx := 1, cy := 1, die := 0, x0 := 0, y0 := 0, members := [(0, 2)],
                   phases := [(1, true)] }] }

theorem test_cluster_barrier_clauses :
    Meets (.cbarv { z with b := 1, sc := 3, mod := 1 }) { z with b := 1, sc := 3, mod := 1 } (fun e _ => e.quiet ∧ e.g.sata = false) ∧
    Meets (.cbarv { z with b := 1, sc := 3 }) { z with b := 1, sc := 3 } (fun e _ => e.quiet ∧ e.g.sata = false) ∧
    Meets (.cbwait { z with b := 1, sc := 3 }) { z with b := 1, sc := 3 } (fun e ls =>
      e.g.sata = false ∧ ∀ j ∈ ls, (sget {} (e.g.lane j).arrivals 1 : Arrival).since = false ∨
        e.s.clusterPhase e.t 1 ≠ (sget {} (e.g.lane j).arrivals 1 : Arrival).parity) ∧
    Meets (.cbwait { z with b := 1, sc := 3 }) { z with b := 1, sc := 3 } (fun e ls =>
      e.g.sata = false ∧ ∀ j ∈ ls, (sget {} (e.g.lane j).arrivals 1 : Arrival).since = true ∧
        e.s.clusterPhase e.t 1 = (sget {} (e.g.lane j).arrivals 1 : Arrival).parity) :=
  ⟨meets_of (clustered caller (.cbarv { z with b := 1, sc := 3, mod := 1 })) (by decide) (by unfold Env.quiet; decide),
   meets_of (clustered caller (.cbarv { z with b := 1, sc := 3 })) (by decide) (by unfold Env.quiet; decide),
   meets_of (clustered { caller with arrivals := [(1, { parity := false, since := true })] } (.cbwait { z with b := 1, sc := 3 }))
     (by decide) (by decide),
   meets_of (clustered { caller with arrivals := [(1, { parity := true, since := true })] } (.cbwait { z with b := 1, sc := 3 }))
     (by decide) (by decide)⟩

/-- A pipeline team. -/
def piped (i : Instr) : State := issuing i 1 { teamOf 0 with pipe := true } { groupOf [caller] with role := 2 }

theorem test_signal_and_role_clauses :
    Meets (.signal { z with a := 4, b := 6, sc := 5 }) { z with a := 4, b := 6, sc := 5 } (fun e ls => ∀ j ∈ ls,
      reachAtomic e { z with a := 4, b := 6, sc := 5 } j (e.pair j 4) 8 8 true = .memory 0x1000 page0) ∧
    Meets (.role { z with d := 2 }) { z with d := 2 } (fun e _ => e.t.pipe = false) ∧
    Meets (.role { z with d := 2 }) { z with d := 2 } (fun e ls => e.t.pipe = true ∧ e.reassigns ls = false) ∧
    Meets (.role { z with d := 2 }) { z with d := 2 } (fun e ls => ls ≠ [] ∧ e.t.pipe = true ∧ e.reassigns ls = true) :=
  ⟨meets_of (near (.signal { z with a := 4, b := 6, sc := 5 })) (by decide) (by decide),
   meets_of (near (.role { z with d := 2 })) (by decide) (by decide),
   meets_of (piped (.role { z with d := 2 })) (by decide) (by decide),
   meets_of { piped (.role { z with d := 2 }) with
       instances := [{ id := 0, ctx := 0, record := { ringCtl := 0x8000, ringTh := 0x0201 }, grid := false, ember := [],
                       partition := 0, total := 1 }] } (by decide) (by decide)⟩

/-- R255: a computer group of a pipeline team reads 2. -/
theorem test_role_result :
    regAfter (piped (.role { z with d := 2 })) (.role { z with d := 2 }) 0 2 = some 2 ∧
    regAfter (near (.role { z with d := 2 })) (.role { z with d := 2 }) 0 2 = some 0 := by decide

/-- A team whose outs hold a good ember: no role named, a cluster of one. -/
def sending (i : Instr) : State :=
  { issuing i 1 { teamOf 0 with buffers := buffers0 } (groupOf [laneWith [(4, 0x1000), (6, 8), (7, 0), (42, 0x1100), (44, 96)]]) with
    host := { State.reset.host with partitions := [(0, 1)] },
    instances := [{ id := 0, ctx := 0, record := {}, grid := true, ember := [], partition := 0, next := 1, total := 5 }] }

theorem test_task_clauses :
    Meets (.enq { z with d := 1 }) { z with d := 1 } (fun e ls => ∀ j ∈ ls, e.emberBad j = false ∧
      (0 % 4 = 1 → (e.reg j 0).toNat ∈ e.s.partitionSectors e.partition)) ∧
    Meets (.enq { z with d := 1, b := 7, mod := 1 }) { z with d := 1, b := 7, mod := 1 } (fun e ls => ∀ j ∈ ls,
      e.emberBad j = false ∧ (1 % 4 = 1 → (e.reg j 7).toNat ∈ e.s.partitionSectors e.partition)) ∧
    Meets (.yield z) z (fun e _ => e.quiet ∧ e.g.sata = false) ∧
    Meets (.claim { z with d := 2, a := 6 }) { z with d := 2, a := 6 } (fun e ls =>
      ls ≠ [] ∧ (∃ k, e.s.instance? e.t.inst = some k) ∧
        1 ≤ (e.reg (ls.headD 0) 6).toNat ∧ (e.reg (ls.headD 0) 6).toNat ≤ 64) ∧
    Meets (.jdec { z with d := 2, a := 4, b := 6, sc := 5 }) { z with d := 2, a := 4, b := 6, sc := 5 } (fun e ls => ∀ j ∈ ls,
      reachAtomic e { z with d := 2, a := 4, b := 6, sc := 5 } j (e.address { z with d := 2, a := 4, b := 6, sc := 5 } j) 4 8 true =
        .memory 0x1000 page0) :=
  ⟨meets_of (sending (.enq { z with d := 1 })) (by decide) (by decide),
   meets_of (sending (.enq { z with d := 1, b := 7, mod := 1 })) (by decide) (by decide),
   meets_of (near (.yield z)) (by decide) (by unfold Env.quiet; decide),
   meets_of (sending (.claim { z with d := 2, a := 6 })) (by decide) ⟨by decide, ⟨_, rfl⟩, by decide, by decide⟩,
   meets_of (sending (.jdec { z with d := 2, a := 4, b := 6, sc := 5 })) (by decide) (by decide)⟩

/-- R252: an accepted ember owes 0; R257: CLAIM of 8 of a grid of 5 whose first index is taken owes 1 and 4. -/
theorem test_task_results :
    predAfter (sending (.enq { z with d := 1 })) (.enq { z with d := 1 }) 0 1 = some false ∧
    ((nextOf (exec (.enq { z with d := 1 }) (sending (.enq { z with d := 1 })))).map fun t => t.embers.length) = some 1 ∧
    regAfter (sending (.claim { z with d := 2, a := 6 })) (.claim { z with d := 2, a := 6 }) 0 2 = some 1 ∧
    regAfter (sending (.claim { z with d := 2, a := 6 })) (.claim { z with d := 2, a := 6 }) 0 3 = some 4 := by decide

def fpq : Fields := { z with d := 1, a := 4, b := 6 }

theorem test_putq_clause :
    Meets (.putq fpq) fpq (fun e ls => ls = [0] ∧ e.emberBad 0 = false ∧
      reachPlaces e 0 (e.address fpq 0) 4 1 = .ok ([0x1000, 0x1001, 0x1002, 0x1003], some page0) ∧
      checkSpan e.t 0 (e.reg 0 6).toNat 4 4 .read = .ok 8 ∧
      ({ e.s with ids := e.s.ids + 1 } : State).refused e.t.ctx 0 = false ∧
      ∀ o ∈ e.s.ops, (o.span.map fun x => x.1) ≠ some e.t.id) :=
  meets_of (sending (.putq fpq)) (by decide) ⟨by decide, by decide, by rfl, by rfl, by decide, by decide⟩

/-- R160: SATA is set on a group that issues EXIT, BARV, BWAIT, CBARV, CBWAIT and YIELD. -/
theorem test_saturation_comes_first : ∀ r ∈ ([(.exit z, z), (.barv fb, fb), (.bwait { fb with a := 4 }, { fb with a := 4 }),
      (.cbarv { z with sc := 3 }, { z with sc := 3 }), (.cbwait { z with sc := 3 }, { z with sc := 3 }), (.yield z, z)] :
      List (Instr × Fields)),
    let s := { barrier 0 r.1 with groups := [{ groupIn (barrier 0 r.1) with sata := true }] }
    ready r.1 r.2 s = true ∧ (envOf r.1 s).g.sata = true := by decide

/-- R222, R252, R257: the clauses where lanes fault: a count of 0, a bad ember, a sector out of the partition, a CLAIM of 0. -/
theorem test_task_fault_clauses :
    Meets (.binit { fb with a := 9 }) { fb with a := 9 } (fun e ls => ∀ j ∈ ls, (e.reg j 9).toNat = 0) ∧
    Meets (.enq { z with d := 1 }) { z with d := 1 } (fun e ls => ∀ j ∈ ls, e.emberBad j = true) ∧
    Meets (.enq { z with d := 1, b := 6, mod := 1 }) { z with d := 1, b := 6, mod := 1 } (fun e ls => ∀ j ∈ ls,
      e.emberBad j = false ∧ enqAstray { z with d := 1, b := 6, mod := 1 } e j = true) ∧
    Meets (.claim { z with d := 2, a := 7 }) { z with d := 2, a := 7 } (fun e ls =>
      ls ≠ [] ∧ ((e.reg (ls.headD 0) 7).toNat = 0 ∨ 64 < (e.reg (ls.headD 0) 7).toNat)) ∧
    (0 ∈ (sending .nop).partitionSectors 0) :=
  ⟨meets_of (barrier 0 (.binit { fb with a := 9 })) (by decide) (by decide),
   meets_of (near (.enq { z with d := 1 })) (by decide) (by decide),
   meets_of (sending (.enq { z with d := 1, b := 6, mod := 1 })) (by decide) (by decide),
   meets_of (sending (.claim { z with d := 2, a := 7 })) (by decide) (by decide), by decide⟩

/-! ## Witnesses and results: engines and matrix instructions -/

/-- Blocks in buffer b0: at 64 a copy of 16 bytes from 0x1000 to 0x2000, at 128 a gather of one element of 16 bytes by the index at
0x3000, at 192 a broadcast of one word among one rank whose list is at 0x3000, at 256 a 1 by 1 product over 32 elements, at 384 a drain
of one element to 0x2000. -/
def blocks : Sparse Byte :=
  [(65, 0x10), (73, 0x20), (80, 16), (129, 0x10), (137, 0x20), (144, 16), (148, 1), (169, 0x30), (176, 4),
   (193, 0x10), (201, 0x20), (208, 1), (212, 0x40), (225, 0x30), (232, 1),
   (257, 0x03), (265, 0x03), (272, 1), (274, 1), (276, 32), (385, 0x20), (410, 1), (414, 1)]

/-- The small machine with these blocks, format slot 0 E4M3: a4:a5 = 0x1000, a6 = 0. -/
def engined (i : Instr) : State :=
  { issuing i 1 { teamOf 0 with buffers := [(0, 0x08007000#64)], slice := blocks } (groupOf [laneWith [(4, 0x1000)]]) with
    instances := [{ id := 0, ctx := 0, record := { slots := [4] }, grid := true, ember := [], partition := 0, total := 1 }] }

def fx (imm : Word) : Fields := { z with d := 2, b := 6, imm := imm }

/-- A command of the small machine passes its checks. -/
def goodCommand (kind offset : Nat) (imm : Word) (e : Env) : Prop :=
  checkBlock e.t 0 ((e.reg 0 6).toNat + imm.toInt) 64 64 = .ok offset ∧ cmdKind (e.block offset 64) = kind ∧
    e.s.complaint e.t (e.block offset 64) false = none ∧ e.s.extentsFault e.t (e.s.cmdExtents e.t (e.block offset 64)) = none

set_option maxRecDepth 20000 in
theorem test_submission_clauses :
    Meets (.xcopy (fx 64)) (fx 64) (fun e ls => e.still ∧ ls = [0] ∧ goodCommand 0 64 64 e) ∧
    Meets (.xgath (fx 128)) (fx 128) (fun e ls => e.still ∧ ls = [0] ∧ goodCommand 1 128 128 e) ∧
    Meets (.xcoll (fx 192)) (fx 192) (fun e ls => e.still ∧ ls = [0] ∧
      checkBlock e.t 0 ((e.reg 0 6).toNat + (192 : Int)) 64 64 = .ok 192 ∧
      e.s.collOk e.t (e.block 192 64) = true ∧
      e.s.namesUs e.t (e.block 192 64) = .ok true ∧ cmdFlag (e.block 192 64) 16 = false ∧
      e.s.extentsFault e.t (collExtents (e.block 192 64)) = none) ∧
    Meets (.xchain { z with d := 2, a := 4 }) { z with d := 2, a := 4 } (fun e ls => e.still ∧ ls = [0] ∧
      (e.address { z with d := 2, a := 4 } 0).toNat % 64 = 0 ∧ e.s.classOf e.t (e.address { z with d := 2, a := 4 } 0) ≠ .unused) :=
  ⟨meets_of (engined (.xcopy (fx 64))) (by decide)
     ⟨by unfold Env.still; decide, by decide, ⟨by rfl, by decide, by decide, by decide⟩⟩,
   meets_of (engined (.xgath (fx 128))) (by decide)
     ⟨by unfold Env.still; decide, by decide, ⟨by rfl, by decide, by decide, by decide⟩⟩,
   meets_of (engined (.xcoll (fx 192))) (by decide)
     ⟨by unfold Env.still; decide, by decide, by rfl, by decide, by rfl, by decide, by decide⟩,
   meets_of (engined (.xchain { z with d := 2, a := 4 })) (by decide)
     ⟨by unfold Env.still; decide, by decide, by decide, by decide⟩⟩

set_option maxRecDepth 20000 in
/-- R265, R280: the first command of a queue takes number 1 and stands in it. -/
theorem test_submission_result :
    regAfter (engined (.xcopy (fx 64))) (.xcopy (fx 64)) 0 2 = some 1 ∧
    ((nextOf (exec (.xcopy (fx 64)) (engined (.xcopy (fx 64))))).bind fun t => (t.team? 2).map fun t =>
      ((t.engine 0).seqa, (t.engine 0).queue.map fun c => c.number)) = some (1, [1]) := by decide

/-- Queue 0 has completed 3 commands, taken 4, and holds one; the matrix queue has completed 1. -/
def observed (i : Instr) : State :=
  let c : Command := { number := 4, chain := false, collective := false, gid := 1, lane := 0, bytes := [], next := 0 }
  { engined i with
    teams := [{ teamOf 0 with engines := [(0, { seqa := 4, seqc := 3, queue := [c], shadow := [(64, 1)] })],
                              matrix := { seqa := 1, seqc := 1 } }],
    groups := [groupOf [laneWith [(4, 3), (8, 4), (10, 1)]]] }

theorem test_observation_clauses :
    Meets (.xwait { z with b := 4 }) { z with b := 4 } (fun e ls => ∀ j ∈ ls, (e.pair j 4).toNat ≤ (e.t.engine 0).seqc) ∧
    Meets (.xwait { z with b := 8 }) { z with b := 8 } (fun e ls => ∀ j ∈ ls, (e.t.engine 0).seqc < (e.pair j 8).toNat) ∧
    Meets (.xpub { z with a := 1, sc := 5 }) { z with a := 1, sc := 5 } (fun e ls => ls = [] ∨ (e.t.engine 1).shadow = []) ∧
    Meets (.xpub { z with sc := 5 }) { z with sc := 5 } (fun e ls => ls ≠ [] ∧ (e.t.engine 0).shadow ≠ []) ∧
    Meets (.xstop { z with a := 1 }) { z with a := 1 } (fun e ls => ls = [] ∨ (e.t.engine 1).queue = []) ∧
    Meets (.xstop z) z (fun e ls => ls ≠ [] ∧ (e.t.engine 0).queue ≠ []) ∧
    Meets (.mwait { z with b := 10 }) { z with b := 10 } (fun e ls =>
      ∀ j ∈ ls, numberOf e.t.matrix.seqa (e.reg j 10).toNat ≤ e.t.matrix.seqc) ∧
    Meets (.mwait { z with b := 10 }) { z with b := 10 } (fun e ls =>
      ∀ j ∈ ls, e.t.matrix.seqc < numberOf e.t.matrix.seqa (e.reg j 10).toNat) ∧
    Meets (.ainv z) z (fun e ls => ls.head? = some 0 ∧ ∀ o ∈ e.s.ops, o.id < e.s.ids) ∧
    (observed (.xstop z)).team? 2 ≠ none ∧
    ∀ g ∈ (observed (.xstop z)).groups, ∀ l ∈ g.lanes, l.status = .ready :=
  ⟨meets_of (observed (.xwait { z with b := 4 })) (by decide) (by decide),
   meets_of (observed (.xwait { z with b := 8 })) (by decide) (by decide),
   meets_of (observed (.xpub { z with a := 1, sc := 5 })) (by decide) (by decide),
   meets_of (observed (.xpub { z with sc := 5 })) (by decide) (by decide),
   meets_of (observed (.xstop { z with a := 1 })) (by decide) (by decide),
   meets_of (observed (.xstop z)) (by decide) (by decide),
   meets_of (observed (.mwait { z with b := 10 })) (by decide) (by decide),
   meets_of { observed (.mwait { z with b := 10 }) with teams := [{ teamOf 0 with matrix := { seqa := 1 } }] } (by decide) (by decide),
   meets_of (observed (.ainv z)) (by decide) (by decide), by decide, by decide⟩

/-- R282, R318: XSEQ and its status with a command in the queue; MSEQ of an idle queue. -/
theorem test_observation_results :
    regAfter (observed (.xseq { z with d := 2 })) (.xseq { z with d := 2 }) 0 2 = some 3 ∧
    regAfter (observed (.xseq { z with d := 2, mod := 1 })) (.xseq { z with d := 2, mod := 1 }) 0 2 = some 16 ∧
    regAfter (observed (.mseq { z with d := 2 })) (.mseq { z with d := 2 }) 0 2 = some 1 ∧
    regAfter (observed (.aqry { z with d := 2 })) (.aqry { z with d := 2 }) 0 2 = some 0 ∧
    (laneAfter (observed (.xwait { z with b := 8 })) (.xwait { z with b := 8 }) 0).map (fun l => l.status) =
      some (.waiting (.engine 0 4)) := by decide

/-- An entry of a matrix queue that clears tile 0. -/
def zeroEntry : MatrixEntry := { uid := 0, number := 0, gid := 1, lane := 0, work := .zero 0, after := [] }

set_option maxRecDepth 20000 in
theorem test_matrix_clauses :
    Meets (.mma (fx 256)) (fx 256) (fun e ls =>
      let s : State := { e.s with ids := e.s.ids + 1 }
      let x := multiplyOf (e.block 256 128)
      (ls = [0] ∧ e.still) ∧ ((e.reg 0 6).toNat + (256 : Int)) % 128 = 0 ∧
        checkBlock e.t 0 ((e.reg 0 6).toNat + (256 : Int)) 128 128 = .ok 256 ∧ s.multiplyOk e.t x = true ∧
        (elementOf (s.slot e.t x.slotA).elem).isSome ∧ (elementOf (s.slot e.t x.slotB).elem).isSome ∧ x.tile < e.t.tiles ∧
        spansFault e.t (x.spans (s.slot e.t x.slotA) (s.slot e.t x.slotB)) = none) ∧
    Meets (.mloada { z with d := 2, a := 4 }) { z with d := 2, a := 4 } (fun e ls =>
      (ls = [0] ∧ e.still) ∧ 0 < e.t.tiles ∧
        e.s.classOf e.t (e.address { z with d := 2, a := 4 } 0) = .global ∧ (e.address { z with d := 2, a := 4 } 0).toNat % 4 = 0) ∧
    Meets (.mdrain { fx 384 with a := 0 }) { fx 384 with a := 0 } (fun e ls =>
      let s : State := { e.s with ids := e.s.ids + 1 }
      let d := drainOf (e.block 384 64)
      (ls = [0] ∧ e.still) ∧
        checkBlock e.t 0 ((e.reg 0 6).toNat + (384 : Int)) 64 64 = .ok 384 ∧
        s.drainOk e.t d (s.slot e.t d.slot) (s.slot e.t d.tslot) = true ∧ (elementOf (s.slot e.t d.slot).elem).isSome ∧
        (d.transposed = true → (elementOf (s.slot e.t d.tslot).elem).isSome) ∧ 0 < e.t.tiles ∧
        s.drainFault e.t d (s.slot e.t d.slot) (s.slot e.t d.tslot) = none) ∧
    Meets (.mzero z) z (fun e ls => ls.head? = some 0 ∧ 0 < e.t.tiles ∧
      e.admitted 0 5 (e.submission [] (.matrix (.zero 0) false [] false none)) { e.s with ids := e.s.ids + 1 } = true) ∧
    Meets (.mzero z) z (fun e ls => ls.head? = some 0 ∧ 0 < e.t.tiles ∧
      e.admitted 0 5 (e.submission [] (.matrix (.zero 0) false [] false none)) { e.s with ids := e.s.ids + 1 } = false) ∧
    Meets (.mzero { z with b := 3 }) { z with b := 3 } (fun e _ => e.t.tiles ≤ 3) :=
  ⟨meets_of (engined (.mma (fx 256))) (by decide)
     ⟨⟨by decide, by unfold Env.still; decide⟩, by decide, by rfl, by decide, by decide, by decide, by decide, by decide⟩,
   meets_of (engined (.mloada { z with d := 2, a := 4 })) (by decide)
     ⟨⟨by decide, by unfold Env.still; decide⟩, by decide, by decide, by decide⟩,
   meets_of (engined (.mdrain { fx 384 with a := 0 })) (by decide)
     ⟨⟨by decide, by unfold Env.still; decide⟩, by rfl, by decide, by decide, by decide, by decide, by decide⟩,
   meets_of (engined (.mzero z)) (by decide) (by decide),
   meets_of { engined (.mzero z) with teams := [{ teamOf 0 with matrix := { queue := List.replicate 16 zeroEntry } }] }
     (by decide) (by decide),
   meets_of { engined (.mzero { z with b := 3 }) with teams := [{ teamOf 0 with tiles := 1 }] } (by decide) (by decide)⟩

set_option maxRecDepth 20000 in
/-- R292, R315: an accepted MMA takes number 1; the second operation of a queue that has taken one takes 2. -/
theorem test_matrix_results :
    regAfter (engined (.mma (fx 256))) (.mma (fx 256)) 0 2 = some 1 ∧
    regAfter (observed (.mloada { z with d := 2, a := 8 })) (.mloada { z with d := 2, a := 8 }) 0 2 = some 2 ∧
    ((nextOf (exec (.mzero z) (engined (.mzero z)))).bind fun t => (t.team? 2).map fun t => (t.matrix.queue.length, t.matrix.seqa)) =
      some (1, 0) := by decide

/-! ## Witnesses and results: traps, system instructions, privilege -/

/-- A context whose handler is at 8, on line 0; SVCBASE 0x4000. -/
def handler : Context := { live := true, trapbase := 8, trapctl := 1, svcbase := 0x4000 }

/-- One lane issues in that context, which holds sector 0 of partition 0. -/
def trapping (l : Lane) (i : Instr) : State :=
  { lone l i with
    contexts := [(0, handler)], cores := [(0, { tlb := [page0], icache := [(0, line0)] })],
    host := { State.reset.host with partitions := [(0, 1)] } }

/-- A lane in its handler, entered from the frame at row 0 with 16 locals, to resume at 8 or at 12. -/
def handling : Lane :=
  { status := .ready, pc := 8, fetch := .held line0, fp := 48, n := 0, depth := 1, hi := 64, links := [(1, makeLink 0 1 0)],
    tl := true, kind := 5, tpc := 8, tnpc := 12, tframe := 0x0000100000000000#64, ring := [(52, 7)] }

theorem test_trap_clauses :
    Meets (.trap { z with b := 5 }) { z with b := 5 } (fun _ _ => True) ∧
    Meets (.brk z) z (fun e _ => ¬(e.s.hub.dbgEn = true ∧ (e.s.ctx e.t.ctx).debug = true)) ∧
    Meets (.brk z) z (fun e ls => (e.s.hub.dbgEn = true ∧ (e.s.ctx e.t.ctx).debug = true) ∧ ls ≠ []) :=
  ⟨meets_of (trapping caller (.trap { z with b := 5 })) (by decide) trivial,
   meets_of (trapping caller (.brk z)) (by decide) (by decide),
   meets_of { trapping caller (.brk z) with
       contexts := [(0, { handler with debug := true })],
       hub := { readyA := BitVec.allOnes 64, readyB := BitVec.allOnes 64, dbgEn := true } } (by decide) (by decide)⟩

/-- R330: the premises on a trap entry, and of a fault in and out of a handler (R332, R333). -/
theorem test_trap_entry_premises :
    let s := trapping caller (.trap z)
    let g := groupIn s
    s.group? 1 = some g ∧ s.team? g.team = some (teamIn s) ∧ 0 < g.lanes.length ∧ (g.lane 0).hi + 32 ≤ g.kmax ∧
      16 ≤ g.budget ∧ s.enterLine 0 0 8 .call = .ok line0 ∧ (g.lane 0).pend = [] ∧
      (g.lane 0).tl = false ∧ (s.ctx 0).hen = true ∧
      (({ handler with trapctl := 0 } : Context).hen = false ∧ ({ handler with trapctl := 0 } : Context).policy = 0) ∧
      (({ handler with trapctl := 4 } : Context).hen = false ∧ ({ handler with trapctl := 4 } : Context).policy = 1) ∧
      (({ handler with trapctl := 8 } : Context).hen = false ∧ 2 ≤ ({ handler with trapctl := 8 } : Context).policy) ∧
      (handling.tl = true ∧ handling.kind.toNat ≠ uncorrectable) := by decide

/-- R330: TRAP 5 enters the handler: KIND, INFO, TPC past the 2-word TRAP, TFRAME, the new frame, a1 the code. -/
theorem test_trap_result :
    (laneAfter (trapping caller (.trap { z with b := 5 })) (.trap { z with b := 5 }) 0).map (fun l =>
      (l.tl, l.kind.toNat, l.tinfo, l.tpc, l.tframe)) = some (true, 0x1B, 5, 16, 0x0000100000000000#64) ∧
    (laneAfter (trapping caller (.trap { z with b := 5 })) (.trap { z with b := 5 }) 0).map (fun l =>
      (l.fp, l.depth, l.pc, sget 0 l.ring 49)) = some (48, 1, 8, 5) := by decide

theorem test_return_from_handler_clauses :
    (∀ m : BitVec 8, m = 0 ∨ m = 1 → Meets (.rett { z with mod := m }) { z with mod := m } (fun e ls => ∀ j ∈ ls,
      (e.g.lane j).tl = true ∧ (e.g.lane j).lo ≤ (e.g.lane j).tframe.toNat % 2 ^ 32 ∧
      e.s.transfer e.t.ctx e.g.core (e.g.lane j) (if m.getLsbD 0 then (e.g.lane j).tnpc else (e.g.lane j).tpc) .none = .ok line0)) ∧
    Meets (.rett z) z (fun e ls => ∀ j ∈ ls, (e.g.lane j).tl = true ∧ ¬(e.g.lane j).lo ≤ (e.g.lane j).tframe.toNat % 2 ^ 32) :=
  ⟨by
     rintro m (rfl | rfl)
     · exact meets_of (trapping handling (.rett z)) (by decide) (by decide)
     · exact meets_of (trapping handling (.rett { z with mod := 1 })) (by decide) (by decide),
   meets_of (trapping { handling with lo := 48 } (.rett z)) (by decide) (by decide)⟩

/-- R331: the interrupted frame, TL = 0, and pc at TPC or, with .next, at TNPC. -/
theorem test_return_from_handler_results :
    (laneAfter (trapping handling (.rett z)) (.rett z) 0).map (fun l => (l.tl, l.pc, l.fp, l.n, l.depth, l.hi)) =
      some (false, 8, 0, 16, 0, 48) ∧
    (laneAfter (trapping handling (.rett { z with mod := 1 })) (.rett { z with mod := 1 }) 0).map (fun l => l.pc) = some 12 := by
  decide

def fmc (n : Word) : Fields := { z with d := 2, imm := n }

def fmt (n : Word) : Fields := { z with a := 4, imm := n }

/-- R335: register 0x003 is a pair, 0x102 one word; both are known, and 0x102 is writable with values that FRAMECTL takes. -/
theorem test_register_move_clauses :
    Meets (.mfc (fmc 3)) (fmc 3) (fun _ _ => cregKnown 3 = true) ∧ Meets (.mfc (fmc 0x102)) (fmc 0x102) (fun _ _ => cregKnown 0x102) ∧
    Meets (.mtc (fmt 3)) (fmt 3) (fun _ _ => True) ∧ Meets (.mtc (fmt 4)) (fmt 4) (fun _ _ => True) ∧
    Meets (.mtc (fmt 0x102)) (fmt 0x102) (fun e ls => ls.head? = some 0 ∧
      (∀ j ∈ ls, (e.g.lane j).tl = true ∨ e.t.priv = true) ∧ cregWritable 0x102 = true ∧
      cregInRange 0x102 ((e.reg 0 4).setWidth 64) = true) :=
  ⟨meets_of (trapping caller (.mfc (fmc 3))) (by decide) (by decide), meets_of (trapping caller (.mfc (fmc 0x102))) (by decide) (by decide),
   meets_of (trapping caller (.mtc (fmt 3))) (by decide) trivial, meets_of (trapping caller (.mtc (fmt 4))) (by decide) trivial,
   meets_of (trapping { caller with ring := [(4, 0x22)], tl := true } (.mtc (fmt 0x102))) (by decide) (by decide)⟩

/-- R335, R370: MFC reads FRAMECTL's reset value; MTC writes TPC of the lane. -/
theorem test_register_move_results :
    regAfter (trapping caller (.mfc (fmc 0x102))) (.mfc (fmc 0x102)) 0 2 = some 0x23#32 ∧
    (laneAfter (trapping caller (.mtc (fmt 3))) (.mtc (fmt 3)) 0).map (fun l => (l.tpc, l.tpcSet)) = some (8, true) := by decide

/-- R336: an unprivileged MTC of a context register, STEST and TLBGEN raise Privilege (0x18). -/
theorem test_privilege_premises : ∀ i ∈ [Instr.mtc (fmt 0x102), .stest { z with d := 2, a := 4 }, .tlbgen { z with d := 2, a := 4 }],
    (fieldsOf i).any (fun f => ready i f (trapping caller i) && decide (actors i f (envOf i (trapping caller i)) = [0]) &&
      !((groupIn (trapping caller i)).lane 0).tl && !(teamIn (trapping caller i)).priv) = true ∧
    (laneAfter (trapping caller i) i 0).map (fun l => (l.tl, l.kind.toNat)) = some (true, privilege) := by decide

theorem test_service_clauses :
    Meets (.svc { z with a := 4 }) { z with a := 4 } (fun e ls =>
      (ls ≠ [] ∧ (∀ j ∈ ls, (e.g.lane j).n ≠ 0) ∧ ({ e.s with ids := e.s.ids + 1 } : State).freeSlot e.t.ctx e.g.core = some 0 ∧
        e.reachPosting ((e.s.ctx e.t.ctx).svcbase + BitVec.ofNat 64 (4096 * 0)) 4 = .memory 0x4000 page0) ∧
        (e.s.ctx e.t.ctx).svcsig = 0) ∧
    Meets (.svc { z with a := 4 }) { z with a := 4 } (fun e ls =>
      (ls ≠ [] ∧ (∀ j ∈ ls, (e.g.lane j).n ≠ 0) ∧ ({ e.s with ids := e.s.ids + 1 } : State).freeSlot e.t.ctx e.g.core = some 0 ∧
        e.reachPosting ((e.s.ctx e.t.ctx).svcbase + BitVec.ofNat 64 (4096 * 0)) 4 = .memory 0x4000 page0) ∧
        (e.s.ctx e.t.ctx).svcsig ≠ 0 ∧ e.reachPosting (e.s.ctx e.t.ctx).svcsig 8 = .memory 0x5000 page0) :=
  ⟨meets_of (trapping caller (.svc { z with a := 4 })) (by decide) (by decide),
   meets_of { trapping caller (.svc { z with a := 4 }) with contexts := [(0, { handler with svcsig := 0x5000 })] }
     (by decide) (by decide)⟩

/-- R352: the lane is parked on slot 0, past SVC. -/
theorem test_service_result :
    (laneAfter (trapping caller (.svc { z with a := 4 })) (.svc { z with a := 4 }) 0).map (fun l => (l.status, l.pc)) =
      some (.parked (.service 0), 16) := by decide

def fws : Fields := { z with a := 4, b := 6 }

set_option maxRecDepth 20000 in
theorem test_system_clauses :
    Meets (.eraise z) z (fun _ ls => ls.head? = some 0) ∧ Meets (.eraise { z with mod := 1 }) { z with mod := 1 } (fun _ ls => ls.head? = some 0) ∧
    Meets (.audit z) z (fun _ ls => ls ≠ []) ∧
    Meets (.stest { z with d := 2 }) { z with d := 2 } (fun e ls =>
      (ls.head? = some 0 ∧ ∀ j ∈ ls, (e.g.lane j).tl = true ∨ e.t.priv = true) ∧ (e.reg 0 0).toNat < 16 ∧
        (e.s.partitionMask (e.s.ctx e.t.ctx).partition).testBit (e.reg 0 0).toNat = true) ∧
    Meets (.tlbgen { z with d := 2 }) { z with d := 2 } (fun e ls =>
      (ls.head? = some 0 ∧ ∀ j ∈ ls, (e.g.lane j).tl = true ∨ e.t.priv = true) ∧ (e.reg 0 0).toNat < 256) ∧
    Meets (.lsweep { z with a := 4 }) { z with a := 4 } (fun e ls =>
      ∀ j ∈ ls, e.s.classOf e.t (e.address { z with a := 4 } j) = .global) ∧
    Meets (.waitsig fws) fws (fun e ls => ls = [0] ∧ reachGeneric e 0 (e.pair 0 4) 8 8 0 true = .memory 8 page0 ∧
      (e.pair 0 6).toNat ≤ (({ e.s with ids := e.s.ids + 1 } : State).reload 1 0 0 page0).liveNat e.t 8 8) ∧
    Meets (.waitsig fws) fws (fun e ls => ls = [0] ∧ reachGeneric e 0 (e.pair 0 4) 8 8 0 true = .memory 8 page0 ∧
      (({ e.s with ids := e.s.ids + 1 } : State).reload 1 0 0 page0).liveNat e.t 8 8 < (e.pair 0 6).toNat) :=
  ⟨meets_of (trapping caller (.eraise z)) (by decide) (by decide), meets_of (trapping caller (.eraise { z with mod := 1 })) (by decide) (by decide),
   meets_of (trapping caller (.audit z)) (by decide) (by decide),
   meets_of (trapping { caller with tl := true } (.stest { z with d := 2 })) (by decide) (by decide),
   meets_of (trapping { caller with tl := true } (.tlbgen { z with d := 2 })) (by decide) (by decide),
   meets_of (trapping caller (.lsweep { z with a := 4 })) (by decide) (by decide),
   meets_of (trapping caller (.waitsig fws)) (by decide) (by decide),
   meets_of (trapping { caller with ring := [(4, 8), (6, 1)] } (.waitsig fws)) (by decide) (by decide)⟩

/-- R371, R372, R374, R376: a raised error is a record with INFO from A; AUDIT marks the next MMA; a generation counts up; a signal
that has not come is awaited. -/
theorem test_system_results :
    ((nextOf (exec (.eraise { z with a := 4 }) (trapping caller (.eraise { z with a := 4 })))).map fun t =>
      t.records.map fun r => (r.kind.toNat % 256, r.info)) = some [(errorRaised, 8)] ∧
    ((nextOf (exec (.audit z) (trapping caller (.audit z)))).bind fun t => (t.team? 2).map fun t => t.markNext) = some true ∧
    ((nextOf (exec (.tlbgen { z with d := 2 }) (trapping { caller with tl := true } (.tlbgen { z with d := 2 })))).map fun t =>
      t.generation 0) = some 1 ∧
    (laneAfter (trapping { caller with ring := [(4, 8), (6, 1)] } (.waitsig fws)) (.waitsig fws) 0).map (fun l => l.status) =
      some (.waiting (.signal 8 1 (some 0))) := by decide

/-- R5, R62: a code without an instruction issues, with a guard that is well formed and lanes that pass it. -/
theorem test_unassigned_code_premises :
    let i : Instr := .unassignedCode z 0x17 0
    let s := small i
    s.issue = some (issueOf s) ∧ s.group? (issueOf s).gid = some (groupIn s) ∧ s.team? (groupIn s).team = some (teamIn s) ∧
      guardOk z = true ∧ (envOf i s).guarded z ≠ [] := by decide

/-! ## Well-formedness: for each check a term that fails it -/

/-- R60 and R78 (guard), R50 (a field that is not used, an immediate word in a 2-word form, MOD), R52 (a special as destination),
R53 (an odd pair), R55 (a predicate above 15), R56 (LA on a form of kind S), R38 (SEL without a guard), a lane above 31, a test-port
byte of another instruction, a code that is assigned. -/
theorem test_ill_formed : ∀ i ∈ [
    Instr.iadd { z with gp := 1 }, .iaddLong { z with c := 1 }, .iaddLong { z with imm := 1 }, .imulLong { z with mod := 1 },
    .iadd { z with d := 0x71 }, .imadw { z with d := 3 }, .icmp { z with d := 16 }, .imad { z with la := 1 }, .sel z,
    .frameSpill 1 32, .bypass 0x10, .unassignedCode z 0x18 0], ¬i.WellFormed := by decide

theorem test_well_formed : ∀ i ∈ [
    Instr.iadd { z with ge := true, gp := 1 }, .imadw { z with d := 2 }, .frcp { z with la := 3 }, .sel { z with ge := true },
    .frameSpill 1 31, .bypass 0xFF, .unassignedCode z 0x17 0], i.WellFormed := by decide


/-- An issue of the small machine raises IllegalInstruction on some lanes and has no other effect. -/
def illegalOn (i : Instr) (ls : List Nat) : Bool :=
  let s := small i
  let e := envOf i s
  decide (nextOf (exec i s) =
    some ((e.s.mapGroup 1 (e.moved ls fun _ l => l)).raiseFault 1 ls { kind := illegalInstruction } (issueOf s).len))

/-- R50, R60, R65: LA on a kind other than L, a guard without GE, SEL without a guard, scope 7 on the one guarded lane, a reserved
MOD bit, a special destination. -/
theorem test_illegal_issues :
    illegalOn (.iadd { z with la := 1 }) [0, 1] = true ∧ illegalOn (.iadd { z with gs := true }) [0, 1] = true ∧
    illegalOn (.sel z) [0, 1] = true ∧ illegalOn (.faddLong { z with ge := true, gp := 1, sc := 7 }) [0] = true ∧
    illegalOn (.fclass { z with mod := 4 }) [0, 1] = true ∧ illegalOn (.ld { z with d := 0x70 }) [0, 1] = true := by decide
/-! ## Witnesses: traps that find no room, requests, windows, names -/

/-- R95, R330: the clauses of a trap entry: beyond KMAX, without room in the ring, at a TRAPBASE that is no target. -/
theorem test_trap_entry_clauses :
    let g := groupOf [caller]
    let tall := groupOf [{ caller with n := 80, hi := 112 }]
    let s := trapping caller (.trap z)
    (({ g with kmax := 64 } : Group).kmax < (g.lane 0).hi + 32) ∧
    ((tall.lane 0).hi + 32 ≤ tall.kmax ∧ tall.budget < (tall.lane 0).hi + 16 - (tall.lane 0).lo) ∧
    s.enterLine 0 0 12 .call = .bad { kind := branchTarget, addr := 12 } ∧ (g.lane 0).lo ≤ (g.lane 0).hi ∧
    ((laneAfter (trapping (tall.lane 0) (.trap z)) (.trap z) 0).map fun l => l.status) =
      some (.waiting (.handler { kind := trapKind } 16 2)) := by decide

/-- An outstanding result for a6. -/
def owed : Pending := { id := 7, places := [.ring 6], results := [{ place := .ring 6, value := 9 }], waits := 0, left := 4 }

/-- R59, R338: a fault of a lane that awaits a result waits for it; one record when it goes on. -/
theorem test_fault_waits_for_results :
    let i : Instr := .iaddLong { z with d := 2, mod := 3 }
    let s := lone { caller with pend := [owed] } i
    (laneAfter s i 0).map (fun l => (l.status, l.faulting)) =
      some (.stalled true, some ({ kind := illegalInstruction }, 2, 1)) ∧
    ((nextOf (exec i s)).map fun t => t.records.length) = some 0 ∧
    (let g := groupOf [{ caller with status := .stalled true, faulting := some ({ kind := illegalInstruction }, 2, 1) }]
     (g.lane 0).pend = [] ∧ lanesOf 1 = [0]) := by decide

theorem test_register_number_clauses :
    Meets (.mfc (fmc 7)) (fmc 7) (fun _ _ => cregKnown 7 = false) ∧
    Meets (.mtc (fmt 0x106)) (fmt 0x106) (fun _ _ => cregWritable 0x106 = false) ∧
    Meets (.mtc (fmt 0x108)) (fmt 0x108) (fun e ls => (e.able ls).head? = some 0 ∧ cregWritable 0x108 = true ∧
      cregInRange 0x108 ((e.reg 0 4).setWidth 64) = false) ∧
    Meets (.mtc (fmt 0x102)) (fmt 0x102) (fun e ls => (e.able ls).head? = none) :=
  ⟨meets_of (trapping caller (.mfc (fmc 7))) (by decide) (by decide), meets_of (trapping caller (.mtc (fmt 0x106))) (by decide) (by decide),
   meets_of (trapping { caller with ring := [(4, 5)], tl := true } (.mtc (fmt 0x108))) (by decide) (by decide),
   meets_of (trapping caller (.mtc (fmt 0x102))) (by decide) (by decide)⟩

def fsv : Fields := { z with a := 4 }

/-- SVC in that context, changed. -/
def serving (change : Context → Context) (l : Lane) : State :=
  { trapping l (.svc fsv) with contexts := [(0, change handler)] }

theorem test_service_fault_clauses :
    Meets (.svc fsv) fsv (fun e ls => ls.filter (fun j => (e.g.lane j).n != 0) = []) ∧
    Meets (.svc fsv) fsv (fun e ls => ls.filter (fun j => (e.g.lane j).n != 0) ≠ [] ∧
      ({ e.s with ids := e.s.ids + 1 } : State).freeSlot e.t.ctx e.g.core = none) ∧
    Meets (.svc fsv) fsv (fun e ls => ls.filter (fun j => (e.g.lane j).n != 0) ≠ [] ∧
      ({ e.s with ids := e.s.ids + 1 } : State).freeSlot e.t.ctx e.g.core = some 0 ∧
      (e.reachPosting ((e.s.ctx e.t.ctx).svcbase + BitVec.ofNat 64 (4096 * 0)) 4).arrives = false) ∧
    Meets (.svc fsv) fsv (fun e ls => ls.filter (fun j => (e.g.lane j).n != 0) ≠ [] ∧
      ({ e.s with ids := e.s.ids + 1 } : State).freeSlot e.t.ctx e.g.core = some 0 ∧
      e.reachPosting ((e.s.ctx e.t.ctx).svcbase + BitVec.ofNat 64 (4096 * 0)) 4 = .memory 0x4000 page0 ∧
      (e.s.ctx e.t.ctx).svcsig ≠ 0 ∧ (e.reachPosting (e.s.ctx e.t.ctx).svcsig 8).arrives = false) :=
  ⟨meets_of (serving id { caller with n := 0, hi := 16 }) (by decide) (by decide),
   meets_of { serving id caller with mem := [(0x4000, 1)] } (by decide) (by decide),
   meets_of (serving (fun x => { x with svcbase := 0x0200000000000000#64 }) caller) (by decide) (by decide),
   meets_of (serving (fun x => { x with svcsig := 0x5004 }) caller) (by decide) (by decide)⟩

theorem test_posting_premises :
    let e := envOf (.svc fsv) (serving id caller)
    (∀ g ∈ e.s.groups, ∀ l ∈ g.lanes, l.status = .ready) ∧ (e.s.ctx e.t.ctx).svcnote.getLsbD 0 = false ∧ (e.s.ctx e.t.ctx).live = true ∧ ([0] : List Nat).head? = some 0 ∧
      ([0] : List Nat).Nodup := by decide

/-- R376: WAITSIG of a word whose home is ready. -/
theorem test_signal_premises :
    (trapping caller (.waitsig fws)).translate 0 0 none 8 0 = .ok 8 page0 ∧ (envOf (.waitsig fws) (trapping caller (.waitsig fws))).quiet := by
  unfold Env.quiet; decide

/-- R89: one lane names a register of its window and the other has no frame; each of them alone. -/
theorem test_name_clauses :
    let i : Instr := .iadd { z with d := 2, a := 0x10, b := 4 }
    let f : Fields := { z with d := 2, a := 0x10, b := 4 }
    let none' : Lane := { laneWith regs1 with n := 0, hi := 16 }
    let both := issuing i 3 (teamOf 0) (groupOf [laneWith regs0, none'])
    let alone := issuing i 1 (teamOf 0) (groupOf [none'])
    (sound i f both = true ∧ (actors i f (envOf i both)).map (namesGood i f (envOf i both)) = [true, false]) ∧
    (sound i f alone = true ∧ (actors i f (envOf i alone)).map (namesGood i f (envOf i alone)) = [false]) ∧
    (laneAfter both i 0).map (fun l => l.pc) = some 12 ∧
    ((nextOf (exec i both)).map fun t => (t.records.map fun r => (r.kind.toNat % 256, r.lanes)).take 1) = some [(1, 2)] := by decide

/-- R56 to R58: an instruction of kind D on lanes with results outstanding; one under SLA = 1 that reads an outstanding destination, one
under SLA = 0. -/
theorem test_window_clauses :
    let f : Fields := { z with d := 2, a := 6, b := 4 }
    let i : Instr := .iadd f
    let l : Lane := { caller with pend := [owed] }
    let strict : State := { lone l i with contexts := [(0, { trapctl := 2 })] }
    let drain := lone l (.yield z)
    (kindOf (.yield z) = .d ∧ ∀ j ∈ lanesOf (issueOf drain).lanes, ((groupIn drain).lane j).pend ≠ []) ∧
    (staticFault i (envOf i strict) f = [] ∧ heldBack i f (envOf i strict) = none ∧
      breachLanes i f (envOf i strict) = actors i f (envOf i strict) ∧ actors i f (envOf i strict) = [0]) ∧
    (laneAfter strict i 0).map (fun l => (l.faulting.map fun x => x.1.kind)) = some (some lookaheadViolation) ∧
    ready i f (lone l i) = true ∧
    (laneAfter (lone l i) i 0).map (fun l => (l.pend.map fun q => q.left, l.status)) = some ([3], .ready) ∧
    (laneAfter drain (.yield z) 0).map (fun l => l.status) = some (.stalled true) := by decide

/-! ## Witnesses: events

For each clause of the statements about events, a state in which its premises hold. -/

/-- A running device with the contexts, partitions and cores that dispatch needs: context 0 holds sector 0. -/
def device (g : Group) (t : Team) : State :=
  { issuing .nop 1 t g with
    issue := none, contexts := [(0, { handler with pool := 0x100000, poolSize := 0x1000000 })],
    hub := { readyA := BitVec.allOnes 64, readyB := BitVec.allOnes 64, coresvc := BitVec.allOnes 192 },
    host := { State.reset.host with partitions := [(0, 1)] } }

def deviceOf (l : Lane) : State := device (groupOf [l]) (teamOf 0)

/-- The group of a state, and a lane after an event. -/
def groupIn' (s : State) : Group := (s.group? 1).getD noGroup

def laneOf (o : Host.Outcome State Fault Refusal) : Option Lane := ((nextOf o).bind fun t => t.group? 1).map fun g => g.lane 0

def owing : Pending := { id := 5, places := [.ring 2], results := [{ place := .ring 2, value := 7 }], waits := 0, left := 0 }

theorem test_thread_event_clauses :
    (let s := deviceOf { caller with pend := [owing], status := .stalled false }
     (groupIn' s).arrived 0 = some owing ∧ ((groupIn' s).lane 0).faulting = none ∧
       (laneOf (exec (.resultArrival 1 0) s)).map (fun l => (l.pend, l.status, sget 0 l.ring 2)) = some ([], .ready, 7)) ∧
    (let s : State := { deviceOf { caller with status := .waiting (.engine 0 4), timer := some { pred := 1, deadline := 64 } } with clk := 65 }
     s.timeHeld (groupIn' s) = false ∧
       (laneOf (exec (.timedWaitExpiry 1 0) s)).map (fun l => (l.preds, l.status, l.pc)) = some (2, .ready, 16)) ∧
    (let s : State := { deviceOf caller with
       groups := [groupOf [caller], { groupOf [caller] with id := 3, slot := 1 }],
       cores := [(0, { lastGroup := [(0, some 1)], run := [(0, 256)] })] }
     256 ≤ sget 0 (s.core 0).run 0 ∧
       (oldest (s.groups.filter fun g => g.core == 0 && g.quarter == 0 && s.issuable g &&
         some g.id != sget none (s.core 0).lastGroup 0)).map (fun g => g.id) = some 3) := by decide

theorem test_spill_event_clauses :
    (let s := deviceOf { callee with status := .waiting (.spill 96) }
     let g := groupIn' s
     (g.lane 0).lowestFrame = some (0, 0, 32) ∧ s.engineTurn g 0 = true ∧ (g.lane 0).spillDue g = true ∧
       s.reach 0 0 (g.spillAddrs false 0 0 32 0) 1 = .ok) ∧
    (let s := deviceOf { callee with lo := 32, status := .waiting (.refill 0 0) }
     let g := groupIn' s
     (g.lane 0).refillDue = some true ∧ s.engineTurn g 0 = true ∧ (g.lane 0).lowDepth = 1 ∧ frameBelow 32 ((g.lane 0).link 1) = 0 ∧ 48 - 0 ≤ g.budget ∧
       s.reach 0 0 (g.refillAddrs false 0 0 32 0) 0 = .ok) ∧
    ((groupIn' (deviceOf { callee with spillBlocked := true })).lane 0).spillBlocked = true := by decide

set_option maxRecDepth 20000 in
theorem test_save_event_clause :
    let s := deviceOf { caller with status := .parked (.service 0) }
    let g := groupIn' s
    g.saveDue = true ∧ g.yielding = false ∧ s.reach 0 0 (piecePages g.saveArea (g.savePieces (teamOf 0))) 1 = .ok ∧
      (∀ j ∈ g.live, s.reach 0 0 (g.saveAddrs false j) 1 = .ok) ∧
      ((s.saveRegisters g (teamOf 0)).group? 1).isSome = true := by decide

/-- A queued ember of a context, and an instance it stands for. -/
def emberFor (kind : EmberKind) : Ember :=
  { id := 7, ctx := 0, sector := 0, pri := 0, kind := kind, place := .chip, arrival := 0, first := 0, born := 0, keys := [] }

theorem test_resume_event_clause :
    let s0 := deviceOf { caller with status := .ready }
    let s : State := { s0 with groups := [{ groupOf [caller] with resident := false }], embers := [emberFor (.resume 1)] }
    let e := emberFor (.resume 1)
    let g := groupIn' s
    (s.embers.find? fun x => decide (x.kind = .resume 1)) = some e ∧ s.spent e = false ∧ s.contextOpen 0 = true ∧
      coreSector 0 = 0 ∧ s.firstOf e = true ∧ s.emberFits e 0 = true ∧ s.keysFree e = true ∧
      (s.resumeSlot g (teamOf 0) 0).isSome = true ∧ s.resumeAbsent g (teamOf 0) 0 = none := by decide

/-- An ember whose launch names one role of one group. -/
def queued (place : EmberPlace) : State :=
  { deviceOf caller with
    embers := [{ emberFor (.fresh 4) with place := place }],
    instances := [{ id := 4, ctx := 0, record := { roles := [{ entry := 8, budget := 64, groups := 1, kmax := 1024, tiles := 0, kind := 0 }] },
                    grid := false, ember := gridEmber {} 0, partition := 0, total := 2 }] }

theorem test_dispatch_event_clauses :
    (let s := queued .chip
     let e := emberFor (.fresh 4)
     s.spent e = false ∧ s.contextOpen 0 = true ∧ s.firstOf e = true ∧ s.emberFits e 0 = true ∧ s.keysFree e = true ∧
       ({ s with keys := [{ ctx := 0, key := 9, holder := some 1, mark := none }] } : State).keysFree { e with keys := [9] } = false) ∧
    (let s := queued .chip
     ∃ i, s.instance? 4 = some i ∧ (s.startNext i 0 [] []).isSome = true) ∧
    ((queued .ring).chipRoom 0 = true ∧ (∀ x ∈ (queued .ring).embers, x.arrivedBefore (emberFor (.fresh 4)) = false)) ∧
    ((emberFor (.fresh 4)).aged = none ∧ (emberFor (.fresh 4)).born + 20000 ≤ 20000) ∧
    ((queued (.slot 0)).embers.find? fun x => decide (x.place = .slot 0)).isSome = true :=
  ⟨by decide, ⟨_, rfl, by decide⟩, by decide, by decide, by decide⟩

/-- A grid of two teams, and a cluster of it that has started none. -/
def gridded : State :=
  { queued .chip with
    embers := [],
    instances := [{ id := 4, ctx := 0, record := { roles := [{ entry := 8, budget := 64, groups := 1, kmax := 1024, tiles := 0, kind := 0 }] },
                    grid := true, ember := gridEmber {} 0, partition := 0, total := 2 }],
    clusters := [{ id := 5, inst := 4, base := 0, cx := 1, cy := 1, die := 0, x0 := 0, y0 := 0 }] }

theorem test_grid_event_clauses :
    (let s : State := { gridded with clusters := [] }
     ∃ i, s.instance? 4 = some i ∧ s.pulls i 0 = true ∧
      (s.startNext i 0 [] (((s.instanceEmber 4).map fun e => e.payload).getD [])).isSome = true) ∧
    (∃ k i, gridded.cluster? 5 = some k ∧ gridded.instance? k.inst = some i ∧
      coreAt k.die (k.x0 + 0 % k.cx) (k.y0 + 0 / k.cx) = 0 ∧ 0 < k.cx * k.cy ∧ (∀ e ∈ k.members, e.1 ≠ 0) ∧
      gridded.contextOpen i.ctx = true ∧ gridded.coreOpen i.partition 0 (some 5) = true ∧ (gridded.fitTeam i 0).isSome = true) :=
  ⟨⟨_, rfl, by decide, by decide⟩, ⟨_, _, rfl, rfl, by decide, by decide, by decide, by decide, by decide, by decide⟩⟩


/-- R101, R102, R103: the arena page of a spill is not there; a lane whose spill cannot go on; a save of which a page is bad, once it has
been reported. -/
theorem test_bad_page_clauses :
    (let s : State := { deviceOf { callee with status := .waiting (.spill 96) } with
       cores := [], contexts := [(0, { handler with root := 0x1000 })],
       mem := [(0x1000, 0x01), (0x1001, 0x20), (0x2000, 0x01), (0x2001, 0x30), (0x3000, 0x01), (0x3001, 0x40), (0x4000, 0x01),
               (0x4001, 0x50), (0x5800, 0x0D)] }
     let g := groupIn' s
     (g.lane 0).lowestFrame = some (0, 0, 32) ∧ (g.lane 0).spillDue g = true ∧ s.engineTurn g 0 = true ∧
       s.reach 0 0 (g.spillAddrs false 0 0 32 0) 1 = .absent 0x100000) ∧
    (let g := groupOf [{ callee with spillBlocked := true }]
     (g.lane 0).spillBlocked = true ∧ (g.lane 0).status = .ready ∧ (g.lane 0).lowestFrame = some (0, 0, 32)) := by decide

set_option maxRecDepth 20000 in
theorem test_abandoned_save_clause :
    let s : State := { deviceOf { caller with status := .parked (.service 0) } with cores := [] }
    let bad := (s.saveBad (groupIn' s) (teamOf 0)).map fun e => e.2
    let g := { groupIn' s with saveFailed := bad }
    bad ≠ [] ∧ g.saveDue = true ∧ (s.saveBad g (teamOf 0)).all (fun e => bad.contains e.2) = true := by decide

def opWith (a : Access) : Op :=
  { id := 3, gid := 1, lane := 0, team := 2, pend := none, va := 64, pc := 8, issued := 0, access := a }

def withOp (o : Op) : State := { deviceOf caller with ops := [o] }

def readOp : Op := { opWith (.read { team := 2, offset := 0 } [{ lane := 0, inner := 0, bytes := 4, signed := false, dests := [.ring 2], stale := none }]) with pend := some 5 }

def tile0 : RankTile := { ctx := 0, place := 64, width := 4, count := 2, op := 0, control := 0, since := 0, parts := [(0, [(64, 1)])] }

theorem test_access_event_clauses :
    (readOp.isScratch = true ∧ readOp.isArrival = false ∧ (withOp readOp).scratchReady readOp = true) ∧
    ((opWith (.barrierArrive { team := 2, offset := 0 } 1 0 0)).isArrival = true ∧
      (withOp (opWith (.barrierArrive { team := 2, offset := 0 } 1 0 0))).scratchReady
        (opWith (.barrierArrive { team := 2, offset := 0 } 1 0 0)) = true) ∧
    (withOp (opWith (.signal 64 1))).performable (opWith (.signal 64 1)) = true ∧
    ((opWith (.enter [(64, 1)])).waiting = none ∧ (withOp (opWith (.enter [(64, 1)]))).storeReady (opWith (.enter [(64, 1)])) = true) ∧
    ((withOp { opWith (.enter [(64, 1)]) with waiting := some 0 }).storeReady { opWith (.enter [(64, 1)]) with waiting := some 0 } = true ∧
      (withOp { opWith (.enter [(64, 1)]) with waiting := some 0 }).wantedLine { opWith (.enter [(64, 1)]) with waiting := some 0 } = none) ∧
    (withOp (opWith (.ranked 0 64 0 0 4 0 2 [(64, 1)]))).homeReady (opWith (.ranked 0 64 0 0 4 0 2 [(64, 1)])) = true ∧
    tile0.since + 225000000 ≤ 225000000 ∧
    ((opWith (.blocked (2 ^ 64))).since + 1000000000 ≤ 1000000000 ∧ (deviceOf caller).home (2 ^ 64 * 6) = .waiting) := by decide

/-- A team that has filled its allotment, of one sector of 32 bytes a KiB, and waits for a shadow line of its next store. -/
theorem test_shadow_line_clause :
    let o : Op := { opWith (.enter [(8192, 1)]) with waiting := some 0 }
    let s : State := { withOp o with
      teams := [{ teamOf 0 with allotment := 0 }] }
    s.storeReady o = true ∧ s.wantedLine o = some 32 ∧ s.sliceLines (homeSlice (256 * 32)) < sliceCapacity ∧
      s.waitsLonger o 32 = false := by decide

def waitingCommit : Lane := { caller with status := .waiting (.commit 2 false false) }

theorem test_phase_event_clauses :
    ((deviceOf caller).translate 0 0 none 64 0 = .ok 64 page0 ∧ (deviceOf caller).classOf (teamOf 0) 64 = .global ∧
      (deviceOf caller).home 64 = .ready) ∧
    ((teamOf 0).exit = .running ∧ (teamOf 0).cluster = none ∧ (teamOf 0).rst = false ∧
      (deviceOf waitingCommit).commitReady (teamOf 0) = true) ∧
    (deviceOf caller).home 64 ≠ .waiting := by decide

/-- R172: a commit moves the buffer into a publish queue, and applying the unit writes the byte. -/
theorem test_commit_and_apply :
    let s : State := { deviceOf waitingCommit with teams := [{ teamOf 0 with store := [(64, 7)] }] }
    ((nextOf (exec (.commit 2) s)).map fun t => (t.queue.map fun p => p.bytes, t.mem)) = some ([[(64, 7)]], []) ∧
    (((nextOf (exec (.commit 2) s)).bind fun t => nextOf (exec (.apply 0) t)).map fun t => (t.queue.length, t.mem)) =
      some (0, [(64, 7)]) := by decide

theorem test_publish_clauses :
    (let t : Team := { teamOf 0 with matrix := { queue := [{ uid := 3, number := 1, work := .zero 0, gid := 1, lane := 0, after := [], publishing := some 0 }] } }
     t.matrix.queue.head?.bind (fun m => m.publishing) = some 0) ∧
    (let t : Team := { teamOf 0 with engines := [(0, { queue := [{ number := 1, chain := false, collective := false, gid := 1, lane := 0, bytes := [], next := 0, publishing := some 0 }] })] }
     (t.engine 0).queue.head?.bind (fun c => c.publishing) = some 0) ∧
    (let s : State := { deviceOf caller with ownRoutes := [(1, 1)], ports := [(0, .trained)],
                                             sent := [{ unit := 3, team := 2, bytes := [(64, 1)], device := 2 }] }
     s.routePorts (2 - 1) ≠ []) ∧
    (∀ e ∈ [((64, 1) : Nat × Byte)], targetOf e.1 ≠ .unused) := by decide

def ended (stage : ExitStage) (join : DWord) : State :=
  { deviceOf { caller with status := .exited } with teams := [{ teamOf 0 with exit := stage, join := join }] }

theorem test_team_end_event_clauses :
    ((ended .ending 0).team? 2).map (fun t => t.exit) = some .ending ∧
    ((ended (.committed []) 0).team? 2).map (fun t => (t.exit, (ended (.committed []) 0).keysHeld t)) = some (.committed [], false) ∧
    ((ended .released 0).team? 2).map (fun t => t.join) = some 0 ∧
    (let s := ended .released 64
     s.classOf (teamOf 0) 64 = .global ∧ s.translate 0 0 none 64 1 = .ok 64 page0 ∧ s.home 64 = .ready) := by decide

theorem test_other_end_clauses :
    (let s : State := { deviceOf caller with
       keys := [{ ctx := 0, key := 9, holder := some 5, mark := none }],
       clusters := [{ id := 5, inst := 0, base := 0, cx := 1, cy := 1, die := 0, x0 := 0, y0 := 0, members := [(0, 2)] }],
       teams := [{ teamOf 0 with exit := .gone, cluster := some 5 }] }
     (s.keyEntry 0 9).map (fun e => e.holder) = some (some 5) ∧ s.releasable 5 = true) ∧
    (teamOf 0).exit ≠ .gone ∧
    (let s : State := { deviceOf { caller with status := .parked (.service 0) } with mem := [(0x4000, 2)], cores := [(0, { tlb := [page0] })] }
     0 < (s.ctx 0).svcSlots ∧ s.translate 0 0 none ((s.ctx 0).svcAddress 0) 1 = .ok 0x4000 page0 ∧ s.readNat 0x4000 4 = 2 ∧
       s.home 0x4000 = .ready ∧ s.serviceAbsent 0 0 = none) ∧
    (let s : State := { deviceOf caller with records := [{ ctx := 0, kind := 1 }] }
     (s.landRecord { ctx := 0, kind := 1 }).isSome = true) := by decide

/-- R170, R234, R405: a load of another device that is out of reach, and what else the clauses ask for. -/
theorem test_more_end_clauses :
    (let o : Op := opWith (.signal (2 ^ 64 * 6) 1)
     (o.homeSpan = some (2 ^ 64 * 6, 8)) ∧ isRemote (2 ^ 64 * 6) = true ∧ o.since + 1000000000 ≤ 1000000000) ∧
    ((ended .ending 0).team? 2).map (fun t => (t.cluster, t.rst, t.relaunch, t.queuesEmpty)) = some (none, false, false, true) ∧
    (let t : Team := { teamOf 0 with exit := .committed [9] }
     let s : State := { ended (.committed [9]) 0 with queue := [{ unit := 9, team := 2, bytes := [(64, 1)], device := 0 }] }
     s.team? 2 = some t ∧ s.unitApplied 9 (s.keysHeld t) = false) ∧
    (let s := ended .released 64
     let j (n : Byte) : State := { s with mem := [(64, n)] }
     s.classOf (teamOf 0) 0x0200000000000000#64 ≠ .global ∧ (68 : DWord).toNat % 8 ≠ 0 ∧ s.readNat 64 4 = 0 ∧
       1 < (j 2).readNat 64 4 ∧ (j 1).readNat 64 4 = 1 ∧
       emberBad ((j 1).record (teamOf 0)).roles.length
         ((List.range 64).map (((j 1).writeNat 64 4 0).continuationByte (teamOf 0) 64 64)) = true) ∧
    (let s : State := { deviceOf caller with
       clusters := [{ id := 5, inst := 0, base := 0, cx := 1, cy := 1, die := 0, x0 := 0, y0 := 0, members := [(0, 2)] }],
       teams := [{ teamOf 0 with cluster := some 5 }] }
     s.releasable 5 = false ∧ (s.ctx 0).svcSlots = 1 ∧ (s.reachOne 0 0 ((s.ctx 0).svcAddress 0) 1 = .ok)) := by decide

/-- R342, R343: the error queue of context 0 with room, full for records that are not fatal, and full. -/
theorem test_record_landing_clauses :
    (let s := deviceOf caller
     let x := s.ctx 0
     x.unread = 0 ∧ x.queueSize = 64 ∧ s.translate 0 0 none (x.recordAddress x.eqtail) 1 = .ok 0 page0 ∧ s.home 0 = .ready) ∧
    (let x : Context := { handler with eqtail := 62 }
     x.queueSize - 2 ≤ x.unread ∧ x.oldestReplayable = none) ∧
    (let x : Context := { handler with eqtail := 64 }
     x.queueSize ≤ x.unread) ∧
    isFatal (kindWord 1 0 true false) = true ∧ isFatal (kindWord 1 0 false false) = false := by decide

/-- R172, R404: a view with room, a foreign unit to a device with a number and without, a unit whose homes are ready, not ready, failed. -/
theorem test_unit_clauses :
    (let s := deviceOf caller
     s.home (128 * 1) = .ready ∧ (s.coreLines 0).length < 2048 ∧ s.hub.dnv = false ∧ s.home 64 = .ready) ∧
    ({ deviceOf caller with hub := {} } : State).home 64 = .waiting ∧
    ({ deviceOf caller with hub := { (deviceOf caller).hub with failA := BitVec.allOnes 64 } } : State).home 64 = .failed ∧
    (let t : Team := { teamOf 0 with matrix := { queue := [{ zeroEntry with started := true }] } }
     (deviceOf waitingCommit).commitReady t = false) := by decide

/-- A copy of 16 bytes from 0x1000 to 0x2000, and a broadcast of one word among one rank, as commands at the head of a queue. -/
def copy : Command :=
  { number := 1, chain := false, collective := false, gid := 1, lane := 0, next := 0,
    bytes := (List.range 64).map fun i => sget 0 blocks (64 + i) }

def broadcast : Command :=
  { number := 1, chain := false, collective := true, gid := 1, lane := 0, next := 0,
    bytes := (List.range 64).map fun i => sget 0 blocks (192 + i) }

def running (q : Nat) (c : Command) : State :=
  { engined .nop with
    teams := [{ teamOf 0 with engines := [(q, { seqa := 1, queue := [c] })] }], clk := 225000000,
    contexts := [(0, { quota := 64 })] }

def teamIn' (s : State) : Team := (s.team? 2).getD (teamOf 0)

def okBytes (r : Except Trouble (List Byte)) : Option (List Byte) :=
  match r with
  | .ok b => some b
  | .error _ => none

def okSample (r : Except Trouble (Operands × Matrix)) : Bool :=
  match r with
  | .ok _ => true
  | .error _ => false

/-- A byte moved, and no trouble. -/
def fine (r : State × Option Trouble) : Bool := r.2.isNone

set_option maxRecDepth 20000 in
theorem test_engine_event_clauses :
    (let s := running 0 copy
     let t := teamIn' s
     (t.engine 0).queue = [copy] ∧ s.served t = true ∧ copy.started = false ∧ copy.bytes ≠ [] ∧ s.crcAhead t 0 1 = false ∧
       (∀ x ∈ s.extentsOf t copy, s.unstarted t x.address = false) ∧ s.extentsFault t (s.extentsOf t copy) = none ∧
       (({ s with teams := [{ t with buffers := [(0, 0x18007000#64)] }] } : State).extentsFault t
         [{ address := 0x0100000000000000#64, length := 4, access := .engineRead }]).isSome = true) ∧
    (let c : Command := { copy with chain := true, bytes := [], next := 0x1000 }
     let s : State := { running 0 c with mem := [(0x1001, 0x10), (0x1009, 0x20), (0x1010, 16)] }
     let t := teamIn' s
     s.crcAhead t 0 1 = false ∧ c.count < 65536 ∧ s.unstarted t c.next = false ∧
       s.extentFault t { address := c.next, length := 64, access := .engineRead } = none ∧
       (okBytes (s.engineBytes t c.next 64)).map (fun bs => s.complaint t bs true) = some none ∧
       (okBytes (s.engineBytes t 0x4001 64)).map (fun bs => s.complaint t bs true) = some (some .form)) := by decide

set_option maxRecDepth 20000 in
theorem test_engine_progress_clauses :
    (let c : Command := { copy with started := true }
     let s := running 0 c
     s.channelTurnOf (teamIn' s) 0 = true ∧ fine (s.movePieces (teamIn' s) 0 c.bytes 0 16) = true ∧
       fine (({ s with hub := {} } : State).movePieces (teamIn' s) 0 c.bytes 0 16) = false) ∧
    (let c : Command := { copy with started := true, done := 16 }
     c.total ≤ c.done ∧ crcDiffers ((teamIn' (running 0 c)).engine 0) c = false) ∧
    (let c : Command := { copy with started := true, done := 16, moved := true, publishing := some 3 }
     c.total ≤ c.done ∧ (running 0 c).unitApplied 3 true = true) ∧
    (let c : Command := { broadcast with started := true }
     let s := running 4 c
     c.moved = false ∧ c.done < c.total ∧ collRanks c.bytes = 1 ∧ collElem c.bytes = 4 ∧
       fine (moveEach (fun s k => s.moveElement (teamIn' s) c.bytes k) (c.done / 4) (min (65536 / 4) ((c.total - c.done) / 4)) s) =
         true ∧
       c.lastProgress + 225000000 ≤ s.clk.toNat) ∧
    (let c : Command := { broadcast with started := true, bytes := broadcast.bytes.set 0x28 2 }
     c.done < c.total ∧ 1 < collRanks c.bytes) := by decide

def entryFor (w : MatrixWork) : MatrixEntry := { uid := 3, number := 1, work := w, gid := 1, lane := 0, after := [] }

def product : List Byte := (List.range 128).map fun i => sget 0 blocks (256 + i)

def drainBlock' : List Byte := (List.range 64).map fun i => sget 0 blocks (384 + i)

def operating (m : MatrixEntry) : State :=
  { engined .nop with
    teams := [{ teamOf 0 with buffers := [(0, 0x08007000#64)], matrix := { seqa := 1, queue := [m] } }],
    contexts := [(0, { quota := 64 })] }

set_option maxRecDepth 20000 in
theorem test_matrix_event_clauses :
    (operating (entryFor (.zero 0))).matrixTurnOf (teamIn' (operating (entryFor (.zero 0)))) = true ∧
    (operating (entryFor (.multiply product))).matrixTurnOf (teamIn' (operating (entryFor (.multiply product)))) = true ∧
    (operating (entryFor (.load 0 0x20000))).matrixTurnOf (teamIn' (operating (entryFor (.load 0 0x20000)))) = true ∧
    (operating { entryFor (.zero 0) with started := true }).served (teamIn' (operating (entryFor (.zero 0)))) = true ∧
    ({ entryFor (.multiply product) with started := true, opened := true } : MatrixEntry).unopened = false ∧
    ({ entryFor (.multiply (product.set 0x19 0x40)) with started := true } : MatrixEntry).unopened = true ∧
    (let m := { entryFor (.drain 0 drainBlock') with started := true }
     let s := operating m
     m.done + 1 = s.drainPieces (teamIn' s) (drainOf drainBlock') ∧ s.contributing 2 = false ∧
       (s.drainPiece (teamIn' s) m (drainOf drainBlock') 0 m.done).2 = none) := by decide

/-- page0 maps every address below 2^30 to itself. -/
theorem translate_low (s : State) (c core : Nat) (h1 : (s.core core).tlb = [page0]) (h2 : s.generation 0 = 0)
    (h3 : (s.ctx c).asid = 0) (i : Nat) (hi : i < 2 ^ 30) : s.translate c core none (BitVec.ofNat 64 i) 0 = .ok i page0 := by
  have hn : (BitVec.ofNat 64 i).toNat = i := by simp; omega
  have hp : s.pageHit 0 (BitVec.ofNat 64 i) page0 = true := by
    unfold State.pageHit
    simp only [hn, h2]
    have : i / pageBytes page0.size = 0 := Nat.div_eq_of_lt (show i < 2 ^ 30 from hi)
    rw [this]
    rfl
  unfold State.translate
  simp only [h3, h1, Option.toList, List.nil_append, List.find?_cons, hp]
  have he : entryAllows page0.entry 0 = true := by decide
  have hr : entryRem page0.entry = false := by decide
  have hf : entryFrame page0.entry = 0 := by decide
  have hs : pageBytes page0.size = 0x40000000 := rfl
  simp only [he, if_true]
  unfold placeUnder
  simp only [hr, hf, hs, hn]
  simp
  omega

/-- Memory below 2^30 is there. -/
theorem home_low (s : State) (h4 : s.hub.readyA = BitVec.allOnes 64) (h5 : s.hub.failA = 0) (h6 : s.hub.failB = 0)
    (i : Nat) (hi : i < 2 ^ 30) : s.home i = .ready := by
  have hr : ∀ k, k < 64 → s.hub.readyA.getLsbD k = true := fun k hk => by
    rw [h4, BitVec.getLsbD_allOnes]
    exact decide_eq_true hk
  have e1 : isRemote i = false := decide_eq_false (by omega)
  have e2 : targetOf i = .hbm := by
    unfold targetOf
    rw [if_pos (by omega)]
  have e3 : homeDie i = 0 := by
    unfold homeDie bitsOf
    rw [if_pos e2]
    omega
  have e4 : bitsOf i 36 3 = 0 := by
    unfold bitsOf
    omega
  have f0 : ∀ k, (0 : DWord).getLsbD k = false := fun k => BitVec.getLsbD_zero
  unfold State.home
  rw [e1, e2, e3, h5, h6]
  simp only [List.any_cons, List.any_nil, List.all_cons, List.all_nil, e4, f0, hr (32 + 0) (by decide), hr (16 + 0) (by decide)]
  rfl

/-- Addresses below 2^30, which page0 maps, are of M, at the place of the same number. -/
theorem place_low (s : State) (t : Team) (h1 : (s.core t.core).tlb = [page0]) (h2 : s.generation 0 = 0)
    (h3 : (s.ctx t.ctx).asid = 0) (h4 : s.hub.readyA = BitVec.allOnes 64) (h5 : s.hub.failA = 0) (h6 : s.hub.failB = 0)
    (i : Nat) (hi : i < 2 ^ 30) :
    s.classOf t (BitVec.ofNat 64 i) = .global ∧ s.enginePlace t (BitVec.ofNat 64 i) 0 = .ok i := by
  constructor
  · unfold State.classOf bitsOf
    simp only [show (BitVec.ofNat 64 i).toNat = i by simp; omega]
    rw [if_pos (by omega)]
  · unfold State.enginePlace
    rw [translate_low s t.ctx t.core h1 h2 h3 i hi]
    simp only [home_low s h4 h5 h6 i hi]

/-- The Hearth reads bytes below 2^30 as M has them. -/
theorem hostBytes_low (s : State) (c : Nat) (h1 : (s.core 0).tlb = [page0]) (h2 : s.generation 0 = 0) (h3 : (s.ctx c).asid = 0)
    (h4 : s.hub.readyA = BitVec.allOnes 64) (h5 : s.hub.failA = 0) (h6 : s.hub.failB = 0) (a n : Nat) (hn : a + n < 2 ^ 30) :
    s.hostBytes c (BitVec.ofNat 64 a) n = .bytes (s.bytes a n) := by
  unfold State.hostBytes
  rw [if_neg (by simp; omega)]
  unfold State.bytes
  induction n with
  | zero => rfl
  | succ n ih =>
    rw [List.range_succ, List.foldl_append, ih (by omega), List.map_append]
    simp only [List.foldl_cons, List.foldl_nil]
    rw [← BitVec.ofNat_add, translate_low s c 0 h1 h2 h3 (a + n) (by omega)]
    simp only [home_low s h4 h5 h6 (a + n) (by omega)]
    rfl

/-- A read of bytes that each succeed succeeds. -/
theorem reads_ok (f : Nat → List Byte → Except Trouble (List Byte)) (n : Nat)
    (h : ∀ i, i < n → ∀ acc, ∃ bs, f i acc = .ok bs) :
    ∃ bs, (List.range n).foldl (fun (r : Except Trouble (List Byte)) i =>
      match r with
      | .error x => .error x
      | .ok acc => f i acc) (.ok []) = .ok bs := by
  induction n with
  | zero => exact ⟨[], rfl⟩
  | succ n ih =>
    obtain ⟨bs, hb⟩ := ih fun i hi => h i (Nat.lt_succ_of_lt hi)
    rw [List.range_succ, List.foldl_append, hb]
    exact h n (Nat.lt_succ_self n) bs

/-- Reads of M below 2^30, which page0 maps, succeed, also where they may be of scratchpad. -/
theorem bytes_low (s : State) (t : Team) (h1 : (s.core t.core).tlb = [page0]) (h2 : s.generation 0 = 0)
    (h3 : (s.ctx t.ctx).asid = 0) (h4 : s.hub.readyA = BitVec.allOnes 64) (h5 : s.hub.failA = 0) (h6 : s.hub.failB = 0)
    (a n : Nat) (hn : a + n < 2 ^ 30) :
    (∃ bs, s.memoryBytes t (BitVec.ofNat 64 a) n = .ok bs) ∧ ∃ bs, s.engineBytes t (BitVec.ofNat 64 a) n = .ok bs := by
  constructor
  · refine reads_ok (fun i acc =>
      if s.classOf t (BitVec.ofNat 64 a + BitVec.ofNat 64 i) ≠ .global
      then .error (.stop 3 (some (addressed addressFault (BitVec.ofNat 64 a + BitVec.ofNat 64 i) 0)))
      else (s.enginePlace t (BitVec.ofNat 64 a + BitVec.ofNat 64 i) 0).map fun p => acc ++ [s.byte p]) n fun i hi acc => ?_
    obtain ⟨hc, hp⟩ := place_low s t h1 h2 h3 h4 h5 h6 (a + i) (by omega)
    rw [← BitVec.ofNat_add, hc, hp]
    exact ⟨acc ++ [s.byte (a + i)], rfl⟩
  · refine reads_ok (fun i acc => (s.engineRead t (BitVec.ofNat 64 a + BitVec.ofNat 64 i)).map fun b => acc ++ [b]) n
      fun i hi acc => ?_
    obtain ⟨hc, hp⟩ := place_low s t h1 h2 h3 h4 h5 h6 (a + i) (by omega)
    rw [← BitVec.ofNat_add]
    unfold State.engineRead
    rw [hc]
    simp only []
    rw [hp]
    exact ⟨acc ++ [s.byte (a + i)], rfl⟩

/-- The premises of the end of MLOADA and of the arrival of a slice: 128 KiB at 0x20000, and a slice of entry 0 of a table at 0. -/
theorem test_long_read_clauses :
    let s := operating { entryFor (.load 0 0x20000) with started := true }
    let t := teamIn' s
    (∃ es, s.loadElements t 0 0x20000 = .ok es) ∧
    (∃ y, s.fetchSlice t 0 0x4000 0 0 = .ok y) := by
  intro s t
  constructor
  · obtain ⟨-, bs, hb⟩ := bytes_low s t rfl rfl rfl rfl rfl rfl 0x20000 131072 (by decide)
    exact ⟨_, by unfold State.loadElements; rw [show (0x20000 : DWord) = BitVec.ofNat 64 0x20000 from rfl, hb]; rfl⟩
  · obtain ⟨⟨bs, hb⟩, -⟩ := bytes_low s t rfl rfl rfl rfl rfl rfl 0x4000 16384 (by decide)
    exact ⟨_, by
      unfold State.fetchSlice
      rw [show (0x4000 + BitVec.ofNat 64 0 : DWord) = BitVec.ofNat 64 0x4000 from rfl, hb]; rfl⟩

/-- An MMA that has an accord and misses a slice; a sample whose team runs, with a core of another sector to replay it. -/
theorem test_accord_and_sample_clauses :
    (let a : Accord := { m := 1, n := 1, ids := [0], tbase := 0, nids := 1, astride := 1, qoff := 0, kd := 0, nd := 0, norg := 0, rank := 8, alpha := 0 }
     let m : MatrixEntry := { entryFor (.multiply product) with missing := [(0, 0)], started := true }
     let t : Team := { teamOf 0 with matrix := { seqa := 1, queue := [m], accords := [(0, some a)] } }
     t.matrix.accord (multiplyOf product).tile = some a ∧ a.entry 0 = 0x4000) ∧
    (let y : Sample := { id := 6, ctx := 0, team := 2, core := 0, slot := 0, number := 1, block := product, operands := 0, result := 0 }
     let s : State := { deviceOf caller with
       samples := [y], instances := (engined .nop).instances, teams := (engined .nop).teams,
       cores := [(12, { tlb := [page0] })] }
     (s.samples.find? fun x => x.id == 6) = some y ∧ s.mayReplay 0 12 = true ∧
       okSample (s.replayInputs (teamIn' s) y 12 (multiplyOf product)) = true) ∧
    (deviceOf caller).team? 77 = none := by decide


/-- The running device with every function ready, and with a change to its hub, host side or platform. -/
def plant : State := { deviceOf caller with hub := { (deviceOf caller).hub with readyA := BitVec.allOnes 64, readyB := BitVec.allOnes 64 } }

theorem test_port_event_clauses :
    (let s : State := { plant with test := { plant.test with requested := true } }
     s.test.requested = true ∧ s.test.frozen = false) ∧
    (let s : State := { plant with test := { plant.test with frozen := true } }
     s.test.frozen = true ∧ s.test.latch = false ∧ s.test.freezeHigh = true) := by decide

theorem test_power_event_clauses :
    (let s : State := { plant with ports := [(3, .trained)] }
     sget Port.untrained s.ports 3 = .trained) ∧
    (23 < 24 ∧ plant.hub.hasFailed (.clnk 23) = false ∧ plant.plat.power = true) ∧
    (let s : State := { plant with ports := [(3, .retraining 5)], real := 100000005 }
     sget Port.untrained s.ports 3 = .retraining 5 ∧ 5 + 100000000 ≤ s.real) ∧
    State.reset.plat.power = false ∧
    ({ plant with plat := { plant.plat with fullTest := true } } : State).plat.fullTest = true ∧
    plant.plat.quiescing = false ∧
    ({ plant with plat := { plant.plat with quiescing := true } } : State).quiesceReady = true := by decide

def ranked : Op := { opWith (.ranked 0 64 0 0 4 0 2 [(64, 1)]) with id := 5 }

theorem test_function_event_clauses :
    functionBit (.keyt 3) = some (false, 39) ∧ functionBit (.clnk 23) = some (true, 55) ∧ functionBit (.clnk 24) = none ∧
    (State.reset.mayBeReady .cxlio = false ∧ plant.mayBeReady (.sect 2) = true ∧ plant.mayBeReady .cxlio = true ∧
      plant.mayBeReady (.keyt 2) = true) ∧
    (let s := withOp (opWith (.signal 64 1))
     (s.granted 0).map (fun r => r.traffic) = some (.access 3) ∧ (s.op? 3).isSome = true) ∧
    (let s : State := { withOp (opWith (.signal 64 1)) with clk := 2048 }
     let o := opWith (.signal 64 1)
     s.ops[0]? = some o ∧ s.resourceOf o = some 0 ∧ 1 < promotedClass o.cls o.promoted ∧ o.waited + 2048 * (o.promoted + 1) ≤ s.clk.toNat) := by decide

/-- R21, R24: where an access of class 2 and the head of the publish queue meet at a port, the access goes first. -/
theorem test_grant :
    let s : State := { withOp (opWith (.signal 64 1)) with queue := [{ unit := 3, team := 2, bytes := [(64, 1)], device := 0 }] }
    s.requests.length = 2 ∧ (s.granted 0).map (fun r => (r.traffic, r.cls)) = some (.access 3, 2) := by decide

set_option maxRecDepth 20000 in
/-- R33: the check value of CRC-32C, as its definition gives it for the nine digits. -/
theorem test_crc : crcBits ([0x31, 0x32, 0x33, 0x34, 0x35, 0x36, 0x37, 0x38, 0x39].flatMap (lowBits 8)) = 0xE3069283 := by decide

theorem test_debug_event_clauses :
    let s : State := { plant with groups := [{ groupOf [caller] with halted := true }], hub := { plant.hub with dbgEn := true } }
    let g := groupIn' s
    s.hub.dbgEn = true ∧ (s.ctx 0).live = true ∧ s.group? 1 = some g ∧ g.halted = true ∧ placeOf (g.lane 0) 2 = some (.ring 2) ∧
      nameOk (g.lane 0) 2 = true ∧ s.steppable g = true ∧ (g.lane 0).status = .ready := by decide

/-- A page of 4 KiB at virtual address 0 of context 0, in HBM, and an entry of its frame ring. -/
def paged : State :=
  { plant with
    mem :=
      [(0x10000, 1), (0x10001, 0x10), (0x10002, 1), (0x11000, 1), (0x11001, 0x20), (0x11002, 1), (0x12000, 1), (0x12001, 0x30), (0x12002, 1),
       (0x13000, 1), (0x13001, 0x40), (0x13002, 1), (0x14000, 0x1F), (0x14001, 0x50), (0x14002, 1), (0x20001, 0x60), (0x20002, 1)],
    contexts := [(0, { plant.ctx 0 with root := 0x10000, frameRings := [(0x20000, 16)] })] }

def wanted : Move := { id := 3, ctx := 0, va := 0, tier := .hbm, byHost := true }

theorem test_migration_event_clauses :
    (paged.ctx 0).live = true ∧ paged.pageOf 0 0 = some 0x14000 ∧
    (let s : State := { paged with moves := [wanted] }
     s.hub.isReady .migr = true ∧ (s.nextMove).map (fun x => (x.1, x.2.place)) = some (wanted, 0x14000)) ∧
    (let s : State := { paged with moves := [{ wanted with started := true }] }
     s.moves.find? (fun m => m.started) = some { wanted with started := true }) := by decide

def preempting (p : Purpose) (g : PreemptStage) : State := { plant with preempts := [{ purpose := p, stage := g }] }

theorem test_self_test_event_clauses :
    (let s : State := { plant with sectors := [(0, { request := true })] }
     s.testDue 0 = true) ∧
    (let s : State := { plant with sectors := [(0, { testing := true, result := 3 })] }
     (s.sector 0).testing = true ∧ (s.sector 0).result = 3) ∧
    (preempting (.test 0) .requested).preemptAt (fun p => decide (p.stage = .requested)) = some (0, { purpose := .test 0 }) ∧
    ((preempting (.test 0) .stopping).preemptAt fun p => decide (p.stage = .stopping) && (preempting (.test 0) .stopping).quiet p.purpose) =
      some (0, { purpose := .test 0, stage := .stopping }) ∧
    (let s := preempting (.swap 0 0 1) .complete
     (s.preemptAt fun p => decide (p.stage = .complete)) = some (0, { purpose := .swap 0 0 1, stage := .complete }) ∧
       ((s.swapOut [0]).swapIn 1).isSome = true) := by decide

/-- A host queue of 16 entries of context 0 at PA 0, with two commands kicked. -/
def hostQueue0 : HostQueue := { qbase := 0x8000000000000000#64, en := true, log2n := 4, kick := 2 }

def hosted (q : HostQueue) : State := { plant with host := { plant.host with queues := [(0, q)] } }

/-- A command of the journal: its code, its first and its second operand. -/
def journalled (opc op0 op1 : Nat) : JournalEntry :=
  { id := 5, queue := 0, index := 0, ctx := 0, bad := false,
    bytes := [BitVec.ofNat 8 opc] ++ List.replicate 7 0 ++ leBytes 8 op0 ++ leBytes 8 op1 ++ List.replicate 40 0 }

def withEntry (e : JournalEntry) : State := { plant with host := { plant.host with journal := [e] } }

theorem test_host_queue_clauses :
    (let s := hosted hostQueue0
     let x := s.hostQueue 0
     s.hearthUp = true ∧ x.en = true ∧ x.swo = false ∧ x.prog.toNat < x.kick.toNat ∧ x.kick.toNat - x.prog.toNat ≤ 2 ^ x.log2n.toNat ∧
       s.home (x.place 0) = .ready ∧ commandBad (s.bytes (x.place 0) 64) = false) ∧
    2 ^ hostQueue0.log2n.toNat < ({ hostQueue0 with kick := 17 }).kick.toNat - hostQueue0.prog.toNat := by decide

/-- The 512 bytes of a launch record: one team, one main role entered at 8 with 32 registers, 64 rows and one group, 4 KiB slices. -/
def launch : List (Nat × Byte) :=
  [(0x1000, 1), (0x1004, 1), (0x1008, 1), (0x100C, 0x11), (0x1010, 0x20), (0x1014, 1), (0x1018, 1), (0x1040, 8), (0x1048, 2),
   (0x104A, 1), (0x104C, 2)]

/-- The state with the launch record at 0x1000, an ember at 0x2000 and a command. -/
def launching (e : JournalEntry) : State := { withEntry e with mem := launch ++ [(0x2028, 1)] }

theorem test_host_command_clauses :
    (withEntry (journalled 0 0 0)).nextCommand 0 = some (journalled 0 0 0) ∧
    (let e := journalled 1 0x1000 0
     (launching e).nextCommand 1 = some e ∧ (commandOp0 e.bytes).toNat = 0x1000) ∧
    (let e := journalled 2 0x1000 0x2000
     (launching e).nextCommand 2 = some e ∧ (commandOp0 e.bytes).toNat = 0x1000 ∧ (commandOp1 e.bytes).toNat = 0x2000 ∧
       emberBad 1 ((launching e).bytes 0x2000 64) = false ∧
       (launching e).partitionSectors ((launching e).ctx e.ctx).partition = [0]) ∧
    (let e := journalled 3 0x1000 7
     (withEntry e).nextCommand 3 = some e ∧ (withEntry e).hostWord 0 (commandOp0 e.bytes) 3 = .place 0x1000) ∧
    (let e := journalled 4 0x1000 0
     (withEntry e).nextCommand 4 = some e ∧ (withEntry e).hostWord 0 (commandOp0 e.bytes) 0 = .place 0x1000 ∧
       (commandOp1 e.bytes).toNat ≤ (withEntry e).readNat 0x1000 8) ∧
    (let e := { journalled 0 0 0 with acted := true }
     ((withEntry e).host.journal.find? fun x => x.id == 5) = some e ∧ (withEntry e).hearthUp = true ∧ commandCse e.bytes = false) ∧
    plant.hub.isReady .hearth = true ∧ plant.hub.isReady .hqt = true := by decide

set_option maxRecDepth 20000 in
theorem test_launch_record_is_good :
    (recordOf ((launching (journalled 0 0 0)).bytes 0x1000 512)).roles.length = 1 ∧
    recordGood ((launching (journalled 0 0 0)).bytes 0x1000 512) true = true := by decide

/-- The Hearth reads the launch record and the ember. -/
theorem test_host_bytes (s : State) (h : s = { withEntry (journalled 2 0x1000 0x2000) with mem := launch ++ [(0x2028, 1)] }) :
    s.hostBytes 0 0x1000 512 = .bytes (s.bytes 0x1000 512) ∧ s.hostBytes 0 0x2000 64 = .bytes (s.bytes 0x2000 64) :=
  ⟨hostBytes_low s 0 (h ▸ rfl) (h ▸ rfl) (h ▸ rfl) (h ▸ rfl) (h ▸ rfl) (h ▸ rfl) 0x1000 512 (by decide),
   hostBytes_low s 0 (h ▸ rfl) (h ▸ rfl) (h ▸ rfl) (h ▸ rfl) (h ▸ rfl) (h ▸ rfl) 0x2000 64 (by decide)⟩

/-- A command at the doorbell, with some bytes of its operands. -/
def posted (code : Byte) (operands : List (Nat × Byte)) : State :=
  { plant with host := { plant.host with mailbox := (0, code) :: operands ++ [(0xFF8, 1)] } }

set_option maxRecDepth 20000 in
theorem test_mailbox_clauses :
    (let waits (s : State) (code : Nat) (os : List Operand) : Bool := s.commandWaits code && s.operandsGood os
     waits (posted 1 [(8, 1), (12, 2)]) 0x01 [⟨0x008, 4, 4⟩, ⟨0x00C, 4, 16⟩] = true ∧
     waits (posted 2 [(8, 1)]) 0x02 newOperands = true ∧
     waits (posted 4 [(8, 1)]) 0x04 [⟨0x008, 4, 10⟩, ⟨0x00C, 4, 10⟩] = true ∧
     waits (posted 5 [(8, 1)]) 0x05 [⟨0x008, 4, 10⟩, ⟨0x010, 8, 64⟩, ⟨0x018, 4, 2⟩] = true ∧
     waits (posted 6 [(8, 1)]) 0x06 [⟨0x008, 4, 20⟩] = true ∧
     waits (posted 7 [(8, 1)]) 0x07 [⟨0x008, 4, 11⟩, ⟨0x00C, 4, 32⟩] = true ∧
     waits (posted 8 [(8, 1)]) 0x08 [⟨0x008, 32, 256⟩] = true ∧ waits (posted 9 [(8, 1)]) 0x09 [⟨0x008, 4, 32⟩] = true ∧
     waits (posted 10 [(8, 64)]) 0x0A [⟨0x008, 8, 64⟩, ⟨0x010, 4, 32⟩] = true ∧
     waits (posted 11 [(8, 64)]) 0x0B [⟨0x008, 8, 64⟩] = true ∧ (posted 11 [(8, 64)]).mail 8 8 = 64 ∧
     waits (posted 12 [(8, 1)]) 0x0C [⟨0x008, 4, 1⟩] = true) ∧
    (let s : State := { posted 3 [] with teams := [] }
     (s.commandWaits 0x03 && s.operandsGood [⟨0x008, 4, 10⟩]) = true ∧ (s.ctx (s.mail 8 4)).live = true) ∧
    (posted 6 [(11, 1)]).commandWaits 0x06 = true ∧ (posted 6 [(11, 1)]).operandsGood [⟨0x008, 4, 20⟩] = false := by decide

/-- R28, R169, R363, R387, R410: loss of supply frozen and not, a frame for a move, the end of a pre-emption for the supply, and
commands that are bad. -/
theorem test_more_event_clauses :
    (let s : State := { plant with plat := { plant.plat with quiescing := true } }
     s.queue = [] ∧ (∀ p ∈ s.preempts, p.purpose ≠ Purpose.brown) ∧ s.hub.quiesced = false ∧ s.test.frozen = false) ∧
    (let s : State := { paged with moves := [wanted] }
     (s.nextMove.map fun x => (s.frameFor x.1 x.2.size).1) = some (.frame 0x16000)) ∧
    (let s := preempting .brown .complete
     (s.preemptAt fun p => decide (p.stage = .complete)) = some (0, { purpose := .brown, stage := .complete })) ∧
    commandBad (journalled 9 0 0).bytes = true ∧ recordGood (List.replicate 512 0) true = false ∧
    (match (withEntry (journalled 3 0x1001 7)).hostWord 0 (commandOp0 (journalled 3 0x1001 7).bytes) 3 with
      | .fault i => decide (i.kind = misaligned)
      | _ => false) = true := by decide

/-- The operands of a CTXNEW in partition 0: a table at PA 0x1000, four lines, 256 frames, an error queue of 256 entries. -/
def newOps : List (Nat × Byte) := [(0x11, 0x10), (0x18, 4), (0x39, 1), (0x3C, 8)]

set_option maxRecDepth 20000 in
theorem test_mailbox_operand_clauses :
    (posted 2 newOps).newGood = true ∧ (posted 2 [(8, 1)]).newGood = false ∧ (posted 2 newOps).partitionCapacity 0 = 98304 ∧
    (let s : State := { posted 1 [(8, 1), (12, 2)] with host := { (posted 1 [(8, 1), (12, 2)]).host with partitions := [(0, 1)] } }
     (∀ q < 16, q ≠ s.mail 8 4 → s.partitionMask q &&& s.mail 0x00C 4 = 0) ∧ ∀ e ∈ s.contexts, e.2.live = true → e.2.partition ≠ 1) ∧
    (let s := posted 7 [(8, 1), (12, 1), (0x100, 1)]
     s.mail 0x00C 4 = 1 ∧ s.mail 8 4 + 1 ≤ 2048 ∧ s.mail 0x100 4 < 2 ^ 24) ∧
    ((posted 9 [(8, 0x2D), (9, 0x0D), (0x120, 1)]).mail 8 4 = 3373 ∧ (posted 9 [(8, 1)]).mail 8 4 ≠ 3373) := by decide

/-- A debug token with the identity of the device and the nonce of the last attestation. -/
def token : State :=
  posted 9 ((8, 0x2D) :: (9, 0x0D) :: ((List.range 32).map fun i => (0x100 + i, Config.identity i)))

set_option maxRecDepth 20000 in
theorem test_debug_token_clause :
    token.mail 8 4 = 3373 ∧ ((token.mailBytes 0x100 3373).take 32 = (List.range 32).map Config.identity) ∧
    (((token.mailBytes 0x100 3373).drop 32).take 32 = List.replicate 32 0) := by
  refine ⟨by decide, ?_, ?_⟩ <;> rfl

/-- R383: HBM stands at host address 2^40, the peat tier nowhere. -/
def mapped' : State := { plant with host := { plant.host with hdm0 := { base := 0x10000000000#64, on := true } } }

theorem test_host_access_clauses :
    mapped'.decoded 0x10000000100 = some 0x100 ∧ deviceMemory 0x100 4 = true ∧ mapped'.home 0x100 = .ready ∧
    mapped'.decoded 0x100 = none ∧ mapped'.decoded 0x18000000000 = none ∧
    ({ mapped' with hub := { mapped'.hub with failA := BitVec.allOnes 64 } } : State).home 0x100 = .failed ∧
    0x1000 ≤ 0x1FFC ∧ 0x1FFC % 4 = 0 ∧ 0x10FFF8 % 8 = 0 ∧ 0x5FFFF8 % 8 = 0 := by decide

/-- R383: a host's write and its read come back through the decoder. -/
theorem test_host_access :
    ((nextOf (exec (.hostMemoryAccess (.write 0x10000000100 [7])) mapped')).bind fun t =>
      nextOf (exec (.hostMemoryAccess (.read 0x10000000100 1)) t)).map (fun t => (t.mem, t.host.reads)) = some ([(0x100, 7)], [7]) := by
  decide

set_option maxRecDepth 20000 in
/-- R384, R386: a host reads FWSVN's neighbours, QCTL of queue 0 (EN, 16 entries) and an offset without a register. -/
theorem test_register_reads :
    (hosted hostQueue0).readRegister 0x100008 4 = some 0x11 ∧ (hosted hostQueue0).readRegister 0x28 8 ≠ none ∧
    (hosted hostQueue0).readRegister 0x700 4 = some 0 ∧ (hosted hostQueue0).readRegister 0x102 4 = none := by decide

set_option maxRecDepth 20000 in
/-- R395, R401: DEVNUM writes the device number and answers status 0. -/
theorem test_devnum :
    (nextOf (exec .devnum (posted 6 [(8, 0x34), (9, 0x12)]))).map (fun t => (t.hub.dnv, t.hub.devnum, t.mail 4 4, t.mail 0xFF8 8)) =
      some (true, 0x1234, 0, 0) := by decide

/-! ## Steps -/

/-- A line that holds NOP in every slot. -/
def nops : Line := { line0 with words := List.replicate 32 nopWord }

theorem test_step_clauses :
    (let s : State := { deviceOf { caller with fetch := .held nops } with agenda := [], turn := true }
     s.tapIn = none ∧ s.agenda = [] ∧ s.tick.running = true ∧ s.turn = true ∧ s.tick.nextQuarter = some (0, 0) ∧
       (let now : State := { s.tick with turn := false }
        (now.pickGroup 0 0).map (fun g => (g.id, g.longest, g.entering 8)) = some (1, some 0, [])) ∧ (nops.wordsAt 8).isSome = true) ∧
    (State.reset.tick.eventOpen .tapIdcode = true) := by decide

/-- R64, R69: the words of MOVI a1, 0xDEADBEEF placed where the next step fetches them: the step writes a1 and ends at slot 3. -/
theorem test_step_from_reset :
    ((nextOf (step (State.reset.withFetchWord 96
        (0b11000_0_0000_0_0000001_0000000_0000000 + 2 ^ 32 * 0b0000010001_0000000_0000_000_00000000 + 2 ^ 64 * 0xDEADBEEF)))).map fun t =>
      t.groups.map fun g => ((g.lane 0).pc, sget 0 (g.lane 0).ring 1)) = some [(20, 0xDEADBEEF)] := by decide

/-! ## Requests, products, rollback -/

/-- The team with four bytes of its slice set, and a request of lane 0. -/
def banked (a : Access) : State :=
  let s := small .nop
  { s with teams := [{ teamOf 0 with slice := [(8, 0x78), (9, 0x56), (10, 0x34), (11, 0x12)] }],
           ops := [{ id := 5, gid := 1, lane := 0, team := 2, pend := none, va := 0, pc := 8, issued := 0, access := a }] }

def opOf (s : State) : Op := s.ops.headD { id := 0, gid := 0, lane := 0, team := 0, pend := none, va := 0, pc := 0, issued := 0,
                                           access := .barrierInit { team := 0, offset := 0 } 0 }

def sliceOfTeam (s : State) : Sparse Byte := ((s.team? 2).map fun t => t.slice).getD []

set_option maxRecDepth 20000 in
/-- R194: two lanes store to one byte, and the higher one's value stands. R209: 0x12345678 + 1. R222: count 3. -/
theorem test_requests :
    (let s := banked (.write { team := 2, offset := 8 } [(8, 1), (8, 2)]); sliceOfTeam (s.performScratch (opOf s))) =
      [(8, 2), (9, 0x56), (10, 0x34), (11, 0x12)] ∧
    (let s := banked (.localAtomic { team := 2, offset := 8 } 0 0 false 1 0 [.ring 4]); sliceOfTeam (s.performScratch (opOf s))) =
      [(8, 0x79), (9, 0x56), (10, 0x34), (11, 0x12)] ∧
    (let s := banked (.barrierInit { team := 2, offset := 16 } 3); sliceOfTeam (s.performScratch (opOf s))) =
      [(8, 0x78), (9, 0x56), (10, 0x34), (11, 0x12), (16, 3), (18, 3)] := by decide

theorem test_request_clauses :
    ((banked (.write { team := 2, offset := 8 } [(8, 1)])).team? 2).isSome = true ∧
    (∀ r ∈ [({ lane := 0, inner := 0, bytes := 4, signed := false, dests := [.ring 4] } : Reading)], r.stale = none) ∧
    3 < 65536 := by decide

/-- R300's example: 2^24 and 63 ones over K = 64, and over K = 32. -/
theorem test_products :
    addBlocks 0 64 (fun k => if k = 0 then .fin false (2 ^ 24) 1 else .fin false 1 1) = 0x4B800020#32 ∧
    addBlocks 0 32 (fun k => if k = 0 then .fin false (2 ^ 24) 1 else .fin false 1 1) = 0x4B800010#32 := by decide

/-- R300: -0 plus a zero sum is +0, a NaN gives the canonical NaN, and opposite infinities too. -/
theorem test_oplus :
    oplus 0x80000000#32 (sigma [.fin true 0 1]) = 0#32 ∧ oplus 0x7F800001#32 (.fin false 1 1) = 0x7FC00000#32 ∧
    oplus 0xFF800000#32 (.inf false) = 0x7FC00000#32 ∧ sigma [.inf true, .fin false 1 1] = .inf true := by decide

/-- One row, one column and K = 32, with accords at LAST. -/
def lastMultiply : Multiply := { multiplyOf [] with m := 1, n := 1, k := 32, aen := true, last := true, rank := 16 }

def accord0 (id : Nat) : Accord :=
  { m := 1, n := 1, ids := [id], tbase := 0, nids := 4, astride := 1, qoff := 1, kd := 32, nd := 1, norg := 0, rank := 16, alpha := 0 }

def tiled (id : Nat) : Matrix := (teamOf 0).matrix.setAccord 0 (some (accord0 id))

theorem test_product_clauses :
    lastMultiply.m ≤ 128 ∧ lastMultiply.n ≤ 256 ∧ 0 < lastMultiply.m ∧ 0 < lastMultiply.n ∧
    (tiled 3).accord lastMultiply.tile = some (accord0 3) ∧ (accord0 3).ids[0]? = some 3 ∧ 3 ≠ 0xFFFF ∧
    (accord0 0xFFFF).ids[0]?.getD 0xFFFF = 0xFFFF ∧ ({ lastMultiply with aen := false } : Multiply).m ≤ 5 ∧
    (∀ v ∈ [Value.fin false 1 2, .fin true 1 2], finiteValue v) ∧ finiteCode 0x3F800000 := by
  refine ⟨by decide, by decide, by decide, by decide, by decide, by decide, by decide, by decide, by decide, ?_, ?_⟩
  · intro v hv
    rcases List.mem_cons.1 hv with rfl | hv
    · exact (by decide : 0 < 2)
    · rcases List.mem_singleton.1 hv with rfl
      exact (by decide : 0 < 2)
  · show f32.magnitude 0x3F800000 < f32.infCode
    decide

/-- A team at its second phase, with a phase record, an open frame and a store in its buffer. -/
def phased : State :=
  let s := small .nop
  let g := groupOf [{ laneWith regs0 with pc := 16 }, laneWith regs1]
  { s with host := { s.host with partitions := [(0, 0xFFFF)] },
           teams := [{ teamOf 0 with store := [(8, 1)], keys := [5], buffers := [(0, 0x08000000C8001000)],
                                     phase := some { groups := [g], buffers := [(0, 0x0800000008001000)], seqas := [1, 2, 3, 4, 5, 6],
                                                     commits := 1 } }] }

theorem test_rollback_clauses :
    (phased.team? 2).map (fun t => (t.phase.isSome, t.exit)) = some (true, .running) ∧
    swf 0 ([(0, 0x0800000008001000)] : Sparse DWord) = true ∧
    (∃ n ∈ phased.partitionSectors (phased.ctx 0).partition, n ≠ 0) ∧
    ({ phased with hub := {} } : State).partitionSectors 0 = [] := by decide

set_option maxRecDepth 20000 in
/-- R346: an error in sector 0 sends the team back to sector 1, with its keys and the record's pc. -/
theorem test_rollback :
    (let s := phased.rollbackTeam 2 0
     ((s.team? 2).map fun t => (t.store, t.relaunch, t.keys, t.matrix.seqa, (t.engine 4).seqc)) = some ([], true, [5], 6, 5) ∧
     (s.group? 1).map (fun g => (g.resident, (g.lane 0).pc, (g.lane 0).lo)) = some (false, 16, (laneWith []).fp) ∧
     s.embers.map (fun e => (e.sector, e.kind)) = [(1, .relaunch 2)]) := by decide

/-! ## Traffic, and events that meet an obstacle -/

/-- The page of another device, whose ports are not there: device number 5, present, readable and writable. -/
def farPage : PageEntry := { page0 with entry := 0x50000009F#64 }

/-- A state in which every translation leads to that device. -/
def away (s : State) : State := { s with cores := [(0, { tlb := [farPage] })] }

def spilling : State := deviceOf { callee with status := .waiting (.spill 96) }

def refilling : State := deviceOf { callee with lo := 32, status := .waiting (.refill 0 0) }

set_option maxRecDepth 20000 in
theorem test_spill_grant_clauses :
    (spilling.mayServe (.spill 1 0) = true ∧ ((groupIn' spilling).lane 0).lowestFrame = some (0, 0, 32)) ∧
    (refilling.mayServe (.refill 1 0) = true ∧ ((groupIn' refilling).lane 0).refillDue = some true) ∧
    (let s := away spilling
     let g := groupIn' s
     let vas := g.spillAddrs false 0 0 32 0
     s.reach 0 0 vas 1 = .waits ∧ s.awayOf 0 0 vas 1 = vas.head? ∧ vas ≠ [] ∧ (∀ e ∈ s.aways, e.1 ≠ Away.spill 1 0)) ∧
    (let s : State := { away (deviceOf callee) with aways := [(.spill 1 0, 0)], real := 1000000000 }
     (s.aways.find? fun e => e.1 == Away.spill 1 0) = some (Away.spill 1 0, 0) ∧ 0 + 1000000000 ≤ s.real ∧
       ((groupIn' s).lane 0).status = .ready) := by decide

set_option maxRecDepth 20000 in
/-- R98: two lanes that spill the same registers write them together. -/
theorem test_spills_together :
    let l : Lane := { callee with status := .waiting (.spill 96) }
    let s := device (groupOf [l, l]) (teamOf 0)
    s.spillsWith (groupIn' s) 0 = [0, 1] ∧
    ((nextOf (exec (.frameSpill 1 0) s)).bind fun t => t.group? 1).map (fun g => g.lanes.map fun l => l.lo) = some [32, 32] := by decide

/-- The group of a parked lane whose save area lies on a page that may be written and not read, so that no port is known for it. -/
def saving : State :=
  { deviceOf { caller with status := .parked (.service 0) } with cores := [(0, { tlb := [{ page0 with entry := 0x1B#64 }] })] }

set_option maxRecDepth 20000 in
theorem test_save_and_resume_grant_clauses :
    (let g := groupIn' saving
     saving.saveBad g (teamOf 0) = [] ∧ saving.mayServe (.save 1) = true ∧ (teamOf 0).stopped = false ∧ g.yielding = false ∧
       (((saving.notAway (.save 1)).saveRegisters g (teamOf 0)).group? 1).isSome = true) ∧
    (let s0 := deviceOf { caller with status := .ready }
     let s : State := { s0 with groups := [{ groupOf [caller] with resident := false }], embers := [emberFor (.resume 1)] }
     s.mayServe (.restore 1) = true ∧ (emberFor (.resume 1)).place = .chip) := by decide

set_option maxRecDepth 20000 in
theorem test_save_pages_clause :
    let g := groupIn' saving
    saving.reach 0 0 (piecePages g.saveArea (g.savePieces (teamOf 0)) ++ (g.saveTargets (teamOf 0)).flatMap fun e => e.2) 1 = .ok := by
  decide

/-! ## Accesses, phases and ends of teams -/

theorem test_dispatch_again_clauses :
    (emberFor (.fresh 4)).place = .chip ∧ (∀ m ∈ gridded.coreTeams 0, m.cluster ≠ some 5) ∧
    (let s := queued (.slot 0)
     let e := { emberFor (.fresh 4) with place := .slot 0 }
     s.embers.find? (fun x => decide (x.place = .slot 0)) = some e ∧ e.first + 2250 ≤ ({ s with clk := 2250 } : State).clk.toNat) := by
  decide

def arriving : Op := opWith (.barrierArrive { team := 2, offset := 0 } 1 0 0)

def contributing : Op := opWith (.ranked 0 64 0 0 4 0 2 [(64, 1)])

theorem test_access_grant_clauses :
    (withOp readOp).mayServe (.access 3) = true ∧ (withOp arriving).mayServe (.access 3) = true ∧
    (withOp (opWith (.signal 64 1))).mayServe (.access 3) = true ∧ (withOp contributing).mayServe (.access 3) = true := by decide

/-- R174, R181: a store that its buffer has room for, one that needs a line, and one that has waited and needs none. -/
theorem test_store_clauses :
    (teamOf 0).newLine (teamOf 0).store (opWith (.enter [(64, 1)])).stores = none ∧
    ({ teamOf 0 with allotment := 0 } : Team).newLine [] [(64, 1)] = some 0 := by decide

/-- R181: a slice whose 6144 lines are taken. -/
theorem test_full_slice (s : State) (h : s = { deviceOf caller with teams := [{ teamOf 0 with overflow := List.replicate 6144 0 }] }) :
    s.sliceFull 0 = true := by
  have e : s.sliceLines (homeSlice 0) = 6144 := by
    subst h
    unfold State.sliceLines
    show ((List.replicate 6144 0 ++ [] ++ []) ++ [] ++ []).countP _ = 6144
    simp only [List.append_nil, List.countP_replicate]
    rfl
  unfold State.sliceFull
  show decide (sliceCapacity ≤ s.sliceLines (homeSlice 0)) = true
  rw [e]
  rfl

/-- R405: an access to a device out of reach. -/
theorem test_unreachable_clauses :
    (let o := opWith (.blocked (2 ^ 64 * 6))
     o.since + 1000000000 ≤ 1000000000 ∧ (withOp o).home (2 ^ 64 * 6) = .waiting) ∧
    (let o := opWith (.signal (2 ^ 64 * 6) 1)
     o.homeSpan = some (2 ^ 64 * 6, 8) ∧ isRemote (2 ^ 64 * 6) = true ∧ (withOp o).home (2 ^ 64 * 6) = .waiting) := by decide

theorem test_unit_grant_clauses :
    (let s : State := { deviceOf caller with queue := [{ unit := 3, team := 2, bytes := [(64, 1)], device := 0 }] }
     s.mayServe .unit = true ∧
       ({ s with hub := { s.hub with failA := BitVec.allOnes 64 } } : State).mayServe .unit = true ∧
       (s.team? 2).isSome = true) ∧
    (let p : Part := { unit := 3, team := 2, bytes := [(64, 1)], device := 2 }
     (deviceOf caller).routePorts (p.device - 1) = [] ∧ p.away = none) := by decide

/-- The state of a team whose join counter stands at 0xFF8, page 0 to itself and page 1 to another frame. -/
def joining (frame : DWord) (n : Byte) : State :=
  { ended .released 0xFF8 with
    mem := [(0xFF8, n)],
    cores := [(0, { tlb := [{ page0 with size := 0 }, { page0 with page := 1, size := 0, entry := frame }] })] }

theorem test_join_clauses :
    (let s := joining 0x50000009F#64 1
     s.translate 0 0 none 0xFF8 1 = .ok 0xFF8 { page0 with size := 0 } ∧ s.home 0xFF8 = .ready ∧ s.readNat 0xFF8 4 = 1 ∧
       s.home (s.continuationPlace (teamOf 0) 0xFF8 0xFF8 0) = .waiting) ∧
    (let s0 := joining 0x1000000001F#64 1
     let s : State := { s0 with hub := { s0.hub with failB := 8 } }
     s.home 0xFF8 = .ready ∧ s.readNat 0xFF8 4 = 1 ∧ (∀ i < 64, s.home (s.continuationPlace (teamOf 0) 0xFF8 0xFF8 i) ≠ .waiting) ∧
       (s.writeNat 0xFF8 4 0).home ((s.writeNat 0xFF8 4 0).continuationPlace (teamOf 0) 0xFF8 0xFF8 0) = .failed) ∧
    (let s := ended .released 64
     ∀ i < 64, s.home (s.continuationPlace (teamOf 0) 64 64 i) = .ready) := by decide

theorem test_team_end_again_clauses :
    (ended .ending 0).scratchPending 2 = false ∧ (ended (.committed []) 0).keysHeld (teamOf 0) = false ∧
    ({ caller with tl := true } : Lane).tl = true ∧
    (let l : Line := line0
     let g := groupOf [caller]
     (g.lane 0).fetch = .held l ∧ (∀ k ∈ g.live, (g.lane k).pc = (g.lane 0).pc) ∧ l.instrAt (g.lane 0).pc = some (.nop, 1) ∧ runsOn .nop = true ∧
       (l.instrAt (nextPC (g.lane 0).pc 1)).isSome = true) ∧
    (let s : State := { deviceOf { caller with status := .parked (.service 0) } with cores := [(0, { tlb := [page0] })] }
     s.readNat 0x4000 4 ≠ 2 ∧
       ∀ e ∈ (0, (s.ctx 0).svcAddress 0) :: s.serviceAddrs 0 0, s.awayOf 0 e.1 [e.2] 1 = none) ∧
    (let s : State := { deviceOf caller with records := [{ ctx := 0, kind := 1 }] }
     s.records[0]? = some { ctx := 0, kind := 1 } ∧ ∀ e ∈ s.records.take 0, e.precedes { ctx := 0, kind := 1 } = false) := by decide

/-- R353: a saved group whose arena page is not there. -/
theorem test_service_absent_clause :
    let s : State := { deviceOf caller with
      groups := [{ groupOf [{ caller with status := .parked (.service 0) }] with resident := false }],
      mem := [(0x1000, 0x01), (0x1001, 0x20), (0x2000, 0x01), (0x2001, 0x30), (0x3000, 0x01), (0x3001, 0x40), (0x4000, 0x01),
              (0x4001, 0x50), (0x5808, 0x0D), (0x6000, 2)],
      cores := [(0, { tlb := [{ page0 with page := 4, size := 0, entry := 0x601F#64 }] })],
      contexts := [(0, { handler with root := 0x1000 })] }
    s.placeFor 0 0 ((s.ctx 0).svcAddress 0) 1 = 0x6000 ∧ s.readNat 0x6000 4 = 2 ∧
      ((s.serviceAbsent 0 0).map fun x => x.isSome) = some true ∧
      ∀ e ∈ (0, (s.ctx 0).svcAddress 0) :: s.serviceAddrs 0 0, s.awayOf 0 e.1 [e.2] 1 = none := by decide

/-! ## Engines and the matrix queue -/

/-- A device whose one page lies on device 5, to which a port leads. -/
def linked (s : State) : State := { away s with ownRoutes := [(5, 1)], ports := [(0, .trained)] }

set_option maxRecDepth 20000 in
theorem test_engine_grant_clauses :
    (running 0 { copy with started := true }).mayServe (.chunk 2 0) = true ∧
    (let c : Command := { copy with chain := true, bytes := [], next := 0x1000 }
     let s : State := { running 0 c with mem := [(0x1001, 0x10), (0x1009, 0x20), (0x1010, 16)] }
     s.mayServe (.chain 2 0) = true ∧ ({ running 0 { c with count := 65536 } with mem := s.mem } : State).mayServe (.chain 2 0) = true ∧
       ({ s with mem := [] } : State).mayServe (.chain 2 0) = true ∧ 65536 ≤ ({ c with count := 65536 } : Command).count) ∧
    (let c : Command := { broadcast with started := true }
     (running 4 c).mayServe (.step 2) = true ∧ c.moved = false) ∧
    (let c : Command := { broadcast with started := true, bytes := broadcast.bytes.set 0x28 2 }
     (linked (running 4 c)).mayServe (.step 2) = true ∧ (linked (running 4 c)).hub.dnv = false ∧ c.moved = false ∧ c.done < c.total) := by
  decide

/-- A drain of two rows. -/
def drainTwo : List Byte := drainBlock'.set 0x1A 2

set_option maxRecDepth 20000 in
theorem test_matrix_grant_clauses :
    (operating { entryFor (.zero 0) with started := true }).mayServe (.operands 2) = true ∧
    (operating { entryFor (.multiply product) with started := true, opened := true }).mayServe (.operands 2) = true ∧
    (let m := { entryFor (.drain 0 drainBlock') with started := true }
     (operating m).mayServe (.drain 2) = true ∧ (operating { m with done := 1 }).mayServe (.drain 2) = true ∧
       1 = (operating m).drainPieces (teamIn' (operating m)) (drainOf drainBlock')) ∧
    (let m := { entryFor (.drain 0 drainTwo) with started := true }
     (operating m).mayServe (.drain 2) = true ∧ m.done + 1 < (operating m).drainPieces (teamIn' (operating m)) (drainOf drainTwo) ∧
       ((operating m).drainPiece (teamIn' (operating m)) m (drainOf drainTwo) 0 0).2 = none) := by decide

/-- The place of an address of the far page. -/
theorem place_far (s : State) (t : Team) (h1 : (s.core t.core).tlb = [farPage]) (h2 : s.generation 0 = 0)
    (h3 : (s.ctx t.ctx).asid = 0) (h4 : ∀ i, i < 2 ^ 30 → s.home (6 * 2 ^ 64 + i) = .ready) (i : Nat) (hi : i < 2 ^ 30) :
    s.classOf t (BitVec.ofNat 64 i) = .global ∧ s.enginePlace t (BitVec.ofNat 64 i) 0 = .ok (6 * 2 ^ 64 + i) := by
  have hn : (BitVec.ofNat 64 i).toNat = i := by simp; omega
  constructor
  · unfold State.classOf bitsOf
    simp only [hn]
    rw [if_pos (by omega)]
  · have hp : s.pageHit 0 (BitVec.ofNat 64 i) farPage = true := by
      unfold State.pageHit
      simp only [hn, h2]
      have : i / pageBytes farPage.size = 0 := Nat.div_eq_of_lt (show i < 2 ^ 30 from hi)
      rw [this]
      rfl
    have hr : placeUnder farPage (BitVec.ofNat 64 i) = 6 * 2 ^ 64 + i := by
      unfold placeUnder
      simp only [hn, show entryRem farPage.entry = true from by decide, show entryDevice farPage.entry = 5 from by decide, if_true]
    unfold State.enginePlace State.translate
    simp only [h3, h1, Option.toList, List.nil_append, List.find?_cons, hp,
      show entryAllows farPage.entry 0 = true from by decide, if_true, hr, h4 i hi]

/-- Reads of the far device succeed. -/
theorem bytes_far (s : State) (t : Team) (h1 : (s.core t.core).tlb = [farPage]) (h2 : s.generation 0 = 0)
    (h3 : (s.ctx t.ctx).asid = 0) (h4 : ∀ i, i < 2 ^ 30 → s.home (6 * 2 ^ 64 + i) = .ready) (a n : Nat) (hn : a + n < 2 ^ 30) :
    (∃ bs, s.memoryBytes t (BitVec.ofNat 64 a) n = .ok bs) ∧ ∃ bs, s.engineBytes t (BitVec.ofNat 64 a) n = .ok bs := by
  constructor
  · refine reads_ok (fun i acc =>
      if s.classOf t (BitVec.ofNat 64 a + BitVec.ofNat 64 i) ≠ .global
      then .error (.stop 3 (some (addressed addressFault (BitVec.ofNat 64 a + BitVec.ofNat 64 i) 0)))
      else (s.enginePlace t (BitVec.ofNat 64 a + BitVec.ofNat 64 i) 0).map fun p => acc ++ [s.byte p]) n fun i hi acc => ?_
    obtain ⟨hc, hp⟩ := place_far s t h1 h2 h3 h4 (a + i) (by omega)
    rw [← BitVec.ofNat_add, hc, hp]
    exact ⟨_, rfl⟩
  · refine reads_ok (fun i acc => (s.engineRead t (BitVec.ofNat 64 a + BitVec.ofNat 64 i)).map fun b => acc ++ [b]) n
      fun i hi acc => ?_
    obtain ⟨hc, hp⟩ := place_far s t h1 h2 h3 h4 (a + i) (by omega)
    rw [← BitVec.ofNat_add]
    unfold State.engineRead
    rw [hc]
    simp only []
    rw [hp]
    exact ⟨_, rfl⟩

/-- A device to which a port leads is there. -/
theorem home_far (s : State) (h1 : s.hub.devnum = 0) (h2 : s.ownRoutes = [(5, 1)]) (h3 : s.ports = [(0, .trained)])
    (i : Nat) (hi : i < 2 ^ 30) : s.home (6 * 2 ^ 64 + i) = .ready := by
  have e1 : isRemote (6 * 2 ^ 64 + i) = true := decide_eq_true (by omega)
  have e2 : Machine.deviceOf (6 * 2 ^ 64 + i) = 5 := by unfold Machine.deviceOf; omega
  have e3 : s.routePorts 5 = [0] := by unfold State.routePorts; dsimp only; rw [h1, h2, h3, if_pos (by decide)]; decide
  unfold State.home
  rw [if_pos e1, e2, e3]
  simp

def accordOf : Accord :=
  { m := 1, n := 1, ids := [0], tbase := 0, nids := 1, astride := 1, qoff := 0, kd := 0, nd := 0, norg := 0, rank := 8, alpha := 0 }

def withAccord (m : MatrixEntry) : State :=
  let s := linked (operating m)
  { s with teams := [{ teamIn' s with matrix := { seqa := 1, queue := [m], accords := [(0, some accordOf)] } }] }

/-- The end of MLOADA, the arrival of a slice and the opening of an accord table, of which all is read from a device behind a port. -/
theorem test_long_grant_clauses :
    (let m := { entryFor (.load 0 0x20000) with started := true }
     (linked (operating m)).mayServe (.operands 2) = true ∧ (linked (operating m)).served (teamIn' (linked (operating m))) = true) ∧
    (let m := { entryFor (.multiply product) with started := true, missing := [(0, 0)] }
     (withAccord m).mayServe (.fetch 2) = true ∧ (withAccord m).served (teamIn' (withAccord m)) = true ∧
       (teamIn' (withAccord m)).matrix.accord (multiplyOf product).tile = some accordOf) ∧
    (let m := { entryFor (.multiply (product.set 0x19 0x40)) with started := true }
     (linked (operating m)).mayServe (.fetch 2) = true ∧ m.unopened = true ∧ m.missing = []) := by decide

theorem test_long_reads :
    (∀ m, ∃ es, (linked (operating m)).loadElements (teamIn' (linked (operating m))) 0 0x20000 = .ok es) ∧
    ∀ m, ∃ y, (withAccord m).fetchSlice (teamIn' (withAccord m)) accordOf.tbase (accordOf.entry 0) 0 0 = .ok y := by
  constructor
  · intro m
    obtain ⟨-, bs, hb⟩ := bytes_far (linked (operating m)) (teamIn' (linked (operating m))) rfl rfl rfl
      (fun i hi => home_far _ rfl rfl rfl i hi) 0x20000 131072 (by decide)
    exact ⟨_, by unfold State.loadElements; rw [show (0x20000 : DWord) = BitVec.ofNat 64 0x20000 from rfl, hb]; rfl⟩
  · intro m
    obtain ⟨⟨bs, hb⟩, -⟩ := bytes_far (withAccord m) (teamIn' (withAccord m)) rfl rfl rfl
      (fun i hi => home_far _ rfl rfl rfl i hi) 0x4000 16384 (by decide)
    exact ⟨_, by
      unfold State.fetchSlice
      rw [show (accordOf.entry 0 + BitVec.ofNat 64 0 : DWord) = BitVec.ofNat 64 0x4000 from rfl, hb]; rfl⟩

set_option maxRecDepth 20000 in
/-- A sample whose team is gone, one that no core has taken up, and one that core 12 replays; the slices are empty, so that no bank is
asked. -/
theorem test_replay_grant_clauses :
    let y : Sample := { id := 6, ctx := 0, team := 2, core := 0, slot := 0, number := 1, block := product, operands := 0, result := 0 }
    let s (y : Sample) : State := { deviceOf caller with
      samples := [y], instances := (engined .nop).instances, cores := [(12, { tlb := [page0] })],
      teams := (engined .nop).teams.map fun t => { t with sliceSize := 0 } }
    let u : Sample := { y with replayer := some 12 }
    (s { y with team := 77 }).mayServe (.replay 6 12) = true ∧ (s y).mayServe (.replay 6 12) = true ∧
      (s u).mayServe (.replay 6 12) = true ∧ (s u).mayReplay 0 12 = true ∧
      okSample ((s u).replayInputs (teamIn' (s u)) u 12 (multiplyOf product)) = true := by decide

/-! ## The hub, the host and the debugger -/

/-- R21: an access of class 2 and a unit meet at a port: the access may be served, and the unit may not. -/
theorem test_traffic_clauses :
    (let s : State := { withOp (opWith (.signal 64 1)) with queue := [{ unit := 3, team := 2, bytes := [(64, 1)], device := 0 }] }
     s.mayServe (.access 3) = true ∧ s.mayServe .unit = false) ∧
    (let s : State := { withOp (opWith (.signal 64 1)) with clk := 1, queue := [{ unit := 3, team := 2, bytes := [(64, 1)], device := 0 }],
                                                            ops := [{ opWith (.signal 64 1) with waited := 1 }] }
     s.mayServe (.access 3) = false ∧ s.mayServe .unit = true) := by decide

set_option maxRecDepth 20000 in
/-- A group that comes back while the contexts of another partition change places, at every port. -/
theorem test_restore_waits_clause :
    let s0 := deviceOf { caller with status := .ready }
    let e := emberFor (.resume 1)
    let s : State := { s0 with
      groups := [{ groupOf [caller] with resident := false }], embers := [e],
      preempts := [{ purpose := .swap 1 2 3, stage := .complete }] }
    s.mayServe (.restore 1) = false ∧ s.mayServe .swap = true ∧ s.ember? e.id = some e := by decide

theorem test_report_clauses :
    (let s : State := { plant with plat := { plant.plat with fullTest := true } }
     s.reportHome = .ready) ∧
    (let s : State := { plant with host := { plant.host with report := [0], reportTo := 64 } }
     s.host.report ≠ [] ∧ s.host.reportTo ≠ 0) := by decide

/-- R364: the registers of a saved group, and of one that is resident, below its rows and in them. -/
theorem test_debugger_clauses :
    (let s : State := { plant with groups := [{ groupOf [caller] with halted := true, resident := false }] }
     let g := groupIn' s
     placeOf (g.lane 0) 2 = some (.ring 2) ∧ nameOk (g.lane 0) 2 = true ∧ g.resident = false ∧
       s.reach 0 0 (g.spillAddrs false 0 2 3 0) 1 = .ok) ∧
    (let g := groupOf [{ caller with lo := 16 }]
     2 < (g.lane 0).lo ∧ placeOf (g.lane 0) 2 = some (.ring 2)) ∧
    (groupOf [caller]).arenaRow 0 2 = none ∧ (caller.lo ≤ 2 ∧ (groupOf [caller]).resident = true) ∧
    ((groupOf [{ caller with status := .parked (.service 0) }]).lane 0).status ≠ .ready := by decide

theorem test_move_clauses :
    (let m := { wanted with started := true, source := 0x15000, frame := 0x16000, entryPlace := 0x14000 }
     let s : State := { plant with moves := [m] }
     (s.moves.find? fun m => m.started && decide (s.homesOf m.places ≠ .waiting)) = some m ∧
       (∀ p ∈ m.places, s.home p ≠ .failed) ∧
     let s : State := { s with hub := { s.hub with failA := BitVec.allOnes 64 } }
     (s.moves.find? fun m => m.started && decide (s.homesOf m.places ≠ .waiting)) = some m ∧
       ((m.places.find? fun p => decide (s.home p = .failed))).isSome = true) ∧
    (let s : State := { plant with moves := [{ wanted with started := true }] }
     s.moves.find? (fun m => m.started) = some { wanted with started := true }) := by decide

set_option maxRecDepth 20000 in
/-- R363: a swap that is complete, and the supply's. -/
theorem test_swap_clauses :
    (preempting .brown .complete).mayServe .swap = true ∧
    (let s : State := { preempting (.swap 0 0 1) .complete with contexts := [(0, handler), (1, { handler with swapped := true })] }
     s.mayServe .swap = true ∧ ((s.swapOut [0]).swapIn 1).isSome = true ∧
       (s.preemptAt fun p => decide (p.stage = .complete)).map (fun x => x.2.purpose) = some (.swap 0 0 1)) := by decide

/-- R387: an operand that cannot be read. -/
theorem test_host_read_clause :
    (match ({ plant with cores := [] } : State).hostBytes 0 0x1000 1 with
      | .fault i => decide (i.kind = accessViolation)
      | _ => false) = true := by decide

/-- R391, R394: the commands of the mailbox that walk page tables, read an image and write a report. -/
theorem test_mailbox_home_clauses :
    paged.walked 7 0 = .unmapped ∧ (match paged.walked 0 0 with
      | .leaf l => !entryRem l.entry
      | _ => false) = true ∧
    plant.homesOf (spanPlaces (hostPlace 64) 4) = .ready ∧
    (let s : State := { plant with hub := { plant.hub with failA := BitVec.allOnes 64 } }
     s.homesOf (spanPlaces (hostPlace 64) 4) = .failed ∧
       ({ s with host := { s.host with report := [0], reportTo := 64 } } : State).reportHome = .failed) ∧
    ({ plant with host := { plant.host with report := [0], reportTo := 64 } } : State).reportHome = .ready := by decide

/-- R388: a completed command that signals its completion in the word at 0x2000. -/
theorem test_completion_word_clause :
    let e0 := journalled 0 0 0
    let e := { e0 with acted := true, bytes := (e0.bytes.set 1 1).set 0x19 0x20 }
    commandCse e.bytes = true ∧ (withEntry e).hostWord 0 (BitVec.ofNat 64 (field e.bytes 0x18 8)) 3 = .place 0x2000 ∧
      e.grid = none := by decide

/-! ## Accesses, frames and queues once more -/

/-- R164, R168, R37: checked addresses of each outcome; a place of another device that is not ready. -/
theorem test_checked_address_clauses :
    let e := envOf (.ld fl) (near (.ld fl))
    let off : Env := { e with s := { e.s with hub := {} } }
    let bad : Env := { e with s := { e.s with hub := { e.s.hub with failA := BitVec.allOnes 64 } } }
    (reachAddress e 0 0x1004 4 4 0 false = .memory 0x1004 page0 ∧ e.s.home 0x1004 = .ready) ∧
    (reachAddress off 0 0x1004 4 4 0 false = .memory 0x1004 page0 ∧ off.s.home 0x1004 = .waiting) ∧
    (reachAddress bad 0 0x1004 4 4 0 false = .memory 0x1004 page0 ∧ bad.s.home 0x1004 = .failed) ∧
    (reachAddress e 0 0x1001 4 4 0 false = .fault (addressed misaligned 0x1001 0)) ∧
    (reachAddress e 0 0x0100000000000004#64 4 4 3 true = .fault (addressed addressFault 0x0100000000000004#64 3)) ∧
    2 ^ 64 ≤ 2 ^ 64 * 6 ∧ e.g.inArena e.t.rst (0x1100 + BitVec.ofNat 64 0) = false ∧
    e.g.inArena e.t.rst (0x100000 + BitVec.ofNat 64 0) = true := by decide

/-- R200: a cell of the table that allows an access and one that does not. -/
theorem test_table_clauses :
    tableAllows 1 1 64 false .read 60 4 ∧ ¬tableAllows 1 1 64 false .read 61 4 ∧ tableAllows 2 2 0 false .tag 0 4 ∧
    ¬tableAllows 1 2 0 false .tag 0 4 := by
  refine ⟨?_, ?_, ?_, ?_⟩ <;> unfold tableAllows <;> decide

/-- R208, R211: atomics whose scope is too small and large enough, a rank that is not below its count and one that is, in memory, in the
own scratchpad, and with a home that is not ready. -/
theorem test_scope_clauses :
    let e := envOf (.red { fat with d := 1, c := 8 }) (single [(4, 0x1000), (6, 9), (8, 0x10001#32), (9, 2)] (.red { fat with d := 1, c := 8 }))
    let off : Env := { e with s := { e.s with hub := {} } }
    let v := (e.reg 0 8).toNat
    let u := (e.reg 0 9).toNat
    (reachAddress e 0 0x1100 4 4 3 true).arrives = true ∧ (reachAddress e 0 0x1101 4 4 3 true).arrives = false ∧
    (reachAddress off 0 0x1100 4 4 3 true = .memory 0x1100 page0 ∧ off.s.home 0x1100 = .waiting) ∧
    v % 2 ^ 12 < v / 2 ^ 16 % 2 ^ 12 + 1 ∧ u / 2 ^ 16 % 2 ^ 12 + 1 ≤ u % 2 ^ 12 ∧ e.s.isLocal 0x1100 = true ∧
    targetOf 0x1100 ≠ .host ∧ e.s.classOf e.t 0x0100000000000100#64 = .scratchpad 0x100 := by decide

/-- R85: at an exit of lane 2, lane 0 waits on a mask that all its lanes then fill, lane 1 on one that lane 3 still has to reach. -/
theorem test_exit_release_clauses :
    let g : Group := { groupOf [{ status := .waiting (.mask 3) }, { status := .waiting (.mask 4) }, {}, {}] with
      masks := [(3, 5), (4, 10)] }
    (g.clearMaskBits [2] 7).lanes.map (fun l => l.status) = [.ready, .waiting (.mask 4), .exited, .exited] ∧
    (((g.mask 3 &&& ~~~(maskOf [2])).getLsbD 0 = true) ∧ ∀ y < 32, (g.mask 3 &&& ~~~(maskOf [2])).getLsbD y = true →
      (g.lane y).status = .waiting (.mask 3)) := by decide

/-- R117, R118: a request of FSPILL that is not met stands beside a later one; FFILL waits for its frames. -/
theorem test_spill_request_results :
    (laneAfter (lone { callee with spillTo := some 32 } (.fspill { z with b := 1 })) (.fspill { z with b := 1 }) 0).map
      (fun l => l.spillTo) = some (some 32) ∧
    (laneAfter (lone { callee with lo := 32 } (.ffill { z with b := 1 })) (.ffill { z with b := 1 }) 0).map (fun l => l.status) =
      some (.waiting (.fill 1)) := by decide

set_option maxRecDepth 20000 in
/-- R236, R237: an ember of a context with a ring, and no place on chip. -/
theorem test_ring_clause :
    let s0 := deviceOf caller
    let s : State := { s0 with
      contexts := [(0, { s0.ctx 0 with emberRings := [0x40000], emberLog := 1 })],
      embers := (List.range 256).map fun i => { emberFor (.fresh 4) with id := 100 + i } }
    s.ringPlace 0 0 = .ring ∧ (s.embers.filter fun e => e.sector == 0 && decide (e.place = .chip)).length = 256 ∧
      ∀ i ∈ s.instances, i.id ≠ s.ids := by decide

/-- R237: one of the embers that a PUTQ has sent off counts. -/
theorem test_coming_ember :
    let s0 := queued .chip
    let s : State := { s0 with
      contexts := [(0, { s0.ctx 0 with embqctl := 2 })], ops := [opWith (.putEmber 5 0 4 [])] }
    s.refused 0 0 = true ∧ ({ s with ops := [] } : State).refused 0 0 = false := by decide

/-- R376: WAITSIG where the thread's own access to the word is pending, and where none is. -/
theorem test_signal_word_clauses :
    let s := trapping caller (.waitsig fws)
    let o : Op := { opWith (.signal 8 1) with gid := 1, lane := 0 }
    (∀ o ∈ s.ops, o.isOf 1 0 = true → o.touches 8 8 = false) ∧ s.home 8 = .ready ∧
      (o.isOf 1 0 = true ∧ o.touches 8 8 = true) := by decide

/-- R81: quarters with a group that can issue take turns. -/
theorem test_quarter_clauses :
    let s : State := { deviceOf caller with groups := [groupOf [caller], { groupOf [caller] with id := 3, quarter := 2 }] }
    s.issuable (groupOf [caller]) = true ∧ s.nextQuarter = some (0, 0) ∧
      ({ s with lastQuarter := 0 } : State).nextQuarter = some (0, 2) := by decide

set_option maxRecDepth 20000 in
/-- R280: a command that finds its queue full waits, owing its number. -/
theorem test_submission_waits :
    let s0 := engined (.xcopy (fx 64))
    let s : State := { s0 with teams := s0.teams.map fun t => { t with engines := [(0, { queue := List.replicate 64 copy })] } }
    (laneAfter s (.xcopy (fx 64)) 0).map (fun l => (match l.status with
      | .waiting (.room 0 _) => true
      | _ => false, l.pend.map fun q => q.places)) = some (true, [[.ring 2, .ring 3]]) := by decide

/-- A table of four ids of 16 KiB at 0, and one at 0x8000 behind no page. -/
def tabled : State := { engined .nop with mem := [(0, 4), (4, 1)] }

set_option maxRecDepth 20000 in
theorem test_prefetch_clauses :
    let t := teamIn' tabled
    let x : Slice := { ctx := 0, tbase := 0, accord := 1, origin := 0, bytes := [], used := 0 }
    (okBytes (tabled.memoryBytes t 0 20)).map (fun h => (leNat (h.take 4), leNat ((h.drop 4).take 4) * 16384)) = some (4, 16384) ∧
    4 ≤ 7 ∧ (1 < 4 ∧ 0 < 16384) ∧ x.dropped = false ∧ (tabled.core 0).accords.length < 16 ∧
    (∀ x ∈ (tabled.core 0).accords, x.dropped = true) ∧
    okBytes (({ tabled with cores := [] } : State).memoryBytes t 0 20) = none ∧
    t.core = 0 := by decide

theorem test_prefetch_read : ∃ bs, tabled.memoryBytes (teamIn' tabled) (0 + BitVec.ofNat 64 (0x4000 + 1 * 16384) + BitVec.ofNat 64 0) 16384 = .ok bs :=
  (bytes_low tabled (teamIn' tabled) rfl rfl rfl rfl rfl rfl 0x8000 16384 (by decide)).1

/-- A read whose first byte fails fails. -/
theorem reads_fail (f : Nat → List Byte → Except Trouble (List Byte)) (n : Nat) (e : Trouble) (h : f 0 [] = .error e) :
    (List.range (n + 1)).foldl (fun (r : Except Trouble (List Byte)) i =>
      match r with
      | .error x => .error x
      | .ok acc => f i acc) (.ok []) = .error e := by
  have stays : ∀ l : List Nat, l.foldl (fun (r : Except Trouble (List Byte)) i =>
      match r with
      | .error x => .error x
      | .ok acc => f i acc) (.error e) = .error e := by
    intro l
    induction l with
    | nil => rfl
    | cons a l ih => exact ih
  rw [List.range_succ_eq_map, List.foldl_cons]
  show List.foldl _ (f 0 []) _ = _
  rw [h]
  exact stays _

/-- A slice that lies behind no page. -/
theorem test_prefetch_fails :
    let s : State := { tabled with cores := [(0, { tlb := [{ page0 with size := 0 }] })] }
    ∃ e, s.memoryBytes (teamIn' tabled) 0x8000 16384 = .error e :=
  ⟨_, reads_fail _ 16383 _ rfl⟩

/-! ## What accesses leave -/

/-- R59: the last outstanding result of two lanes whose fault waits, and one that is not the last. -/
theorem test_last_result_clauses :
    let bad : Lane := { caller with status := .stalled true, faulting := some ({ kind := illegalInstruction }, 2, 3) }
    let last := device (groupOf [{ bad with pend := [owing] }, bad]) (teamOf 0)
    let first := device (groupOf [{ bad with pend := [owing] }, { bad with pend := [owing] }]) (teamOf 0)
    ((groupIn' last).arrived 0 = some owing) ∧ ((groupIn' first).arrived 0 = some owing) ∧ lanesOf 3 = [0, 1] ∧
    ((nextOf (exec (.resultArrival 1 0) last)).map fun t => ((t.records.map fun r => r.lanes).take 1, (t.lane 1 1).faulting)) =
      some ([3], none) ∧
    ((nextOf (exec (.resultArrival 1 0) first)).map fun t => t.records.length) = some 0 := by decide

theorem test_timer_clause :
    ({ pred := 1, deadline := 64 } : Timer).met = false ∧ (Wait.engine 0 4).again = false := by decide

/-- R250: BTEST of a word whose phase has turned, and of one whose phase has not. -/
theorem test_barrier_test_clauses :
    let o (parity : Bool) : Op := { opWith (.barrierTest { team := 2, offset := 8 } parity [.pred 1]) with pend := some 5 }
    let s (parity : Bool) : State := { deviceOf { caller with stale := some 3, pend := [{ owing with places := [.pred 1], results := [], waits := 1 }] } with
      ops := [o parity] }
    (teamOf 0).phaseBit 8 = false ∧ (teamOf 0).phaseBit 8 ≠ true ∧
      (((s false).performScratch (o false)).lane 1 0).stale = some 3 ∧ (((s true).performScratch (o true)).lane 1 0).stale = none := by decide

def tile (x : RankTile) : State := { withOp contributing with ranks := [x] }

/-- R211, R212: a contribution to no tile, to one that agrees, that differs, that has it, and that it fills. -/
theorem test_tile_clauses :
    (∀ x ∈ (withOp contributing).ranks, ¬(x.ctx = 0 ∧ x.place = 64 ∧ x.width = 4)) ∧
    ((List.replicate 16 tile0).filter fun x => sliceOf x.place == sliceOf 64).length = 16 ∧ (sliceOf 64).isSome = true ∧
    (let x := tile0
     (tile x).ranks.find? (fun x => x.ctx == 0 && x.place == 64 && x.width == 4) = some x ∧
       x.parts.find? (fun y => y.1 == 0) = some (0, [(64, 1)]) ∧ (∀ y ∈ x.parts, y.1 ≠ 1) ∧
       (x.parts ++ [(1, [(64, 1)])]).length = x.count ∧ (x.parts ++ [(1, [(64, 1)])]).length ≠ ({ x with count := 3 } : RankTile).count ∧
       ∀ y ∈ x.parts, y.2.map (fun e => e.1) = [64]) := by decide

/-- R211: two contributions of 1 and of 4, the second by rank 1, add up in M; a third of another count leaves a record. -/
theorem test_contributions :
    let s := tile { tile0 with parts := [(0, placed 64 [1, 0, 0, 0])] }
    let made := s.contribute contributing 0 64 0 0 4 1 2 (placed 64 [4, 0, 0, 0])
    let other := s.contribute contributing 0 64 0 0 4 1 3 (placed 64 [4, 0, 0, 0])
    (made.mem, made.ranks) = ([(64, 5)], []) ∧ (other.mem, other.ranks.length, other.records.map fun r => r.kind.toNat % 256) =
      ([], 1, [rankMismatch]) := by decide

/-- R254: SIGNAL raises a registered word, and does not lower it. -/
theorem test_signal_result :
    let s0 := withOp (opWith (.signal 64 7))
    let s : State := { s0 with host := { s0.host with signalWords := [64] } }
    let t := s.performAccess (opWith (.signal 64 7))
    (t.mem, t.host.signalled) = ([(64, 7)], [64]) ∧ (t.raiseWord 64 3).mem = [(64, 7)] := by decide

/-- R207, R209: an atomic addition of 2 to 0xFF at 64, and a .live load of what the team has stored there. -/
theorem test_access_results :
    let s0 := withOp (opWith (.atomic 64 0 0 false 2 0 []))
    let s : State := { s0 with mem := [(64, 0xFF)], teams := [{ teamOf 0 with store := [(64, 9)] }] }
    let o : Op := { opWith (.live 64 [none] false [.ring 2]) with pend := some 5 }
    let l : Lane := { caller with pend := [{ owing with results := [], waits := 1 }] }
    (s.performAccess (opWith (.atomic 64 0 0 false 2 0 []))).mem = [(64, 1), (65, 1)] ∧
    ((({ s with groups := [groupOf [l]] } : State).performAccess o).lane 1 0).pend.map (fun q => (q.results, q.waits)) =
      [([{ place := .ring 2, value := 9 }], 0)] := by decide

/-- R311, R320: a rollback drops the team's accesses but an AINV's. -/
theorem test_rollback_drops :
    let o : Op := { opWith (.accordDrop 0 0 0 []) with team := 2 }
    let s : State := { phased with ops := [opWith (.enter [(64, 1)]), o] }
    (s.rollbackTeam 2 0).ops = [o] := by decide

/-- R97, R331: a frame that RET has released, and one that it has not, in a trap entry. -/
theorem test_released_clauses :
    let l : Lane := { callee with released := some 32 }
    l.released = some l.fp ∧ callee.released ≠ some callee.fp ∧ callee.hi = callee.fp + 16 ∧
      caller.hi ≠ caller.fp + 16 := by decide
end Sys2Proof.Tests.Slice0
end

section
/-! The class of a generic address and its checks (R163, R164, R197, R37). -/

namespace Sys2Proof.Machine

/-! ## The class of a generic address -/

/-- R163 in numbers: the class by the top byte, then by the top 16 bits and the offset below them. -/
theorem State.classOf_eq (s : State) (t : Team) (a : DWord) : s.classOf t a =
    if a.toNat < 2 ^ 56 then .global
    else if a.toNat / 2 ^ 48 = 0x0100 ∧ a.toNat % 2 ^ 48 < t.sliceSize then .scratchpad (a.toNat % 2 ^ 48)
    else if a.toNat / 2 ^ 48 = 0x0101 ∧ a.toNat / 2 ^ 20 % 2 ^ 28 < s.clusterSize t ∧
        a.toNat % 2 ^ 20 < s.memberSlice t (a.toNat / 2 ^ 20 % 2 ^ 28) then
      .window (a.toNat / 2 ^ 20 % 2 ^ 28) (a.toNat % 2 ^ 20)
    else .unused := by
  have ha := a.isLt
  have htop : bitsOf a.toNat 56 8 = 0 ↔ a.toNat < 2 ^ 56 := by unfold bitsOf; omega
  have hpart : bitsOf a.toNat 48 16 = a.toNat / 2 ^ 48 := by unfold bitsOf; omega
  have hlow (n : Nat) : bitsOf a.toNat 0 n = a.toNat % 2 ^ n := by simp [bitsOf]
  have hoffset : a.toNat / 2 ^ 48 = 0x0100 → a.toNat % 2 ^ 56 = a.toNat % 2 ^ 48 := by omega
  simp only [State.classOf, htop, hpart, hlow, show bitsOf a.toNat 20 28 = a.toNat / 2 ^ 20 % 2 ^ 28 from rfl]
  by_cases hs : a.toNat / 2 ^ 48 = 0x0100 ∧ a.toNat % 2 ^ 48 < t.sliceSize
  · rw [if_pos hs, if_pos hs, hoffset hs.1]
  · rw [if_neg hs, if_neg hs]

theorem State.classOf_eq_global (s : State) (t : Team) (a : DWord) : s.classOf t a = .global ↔ a.toNat < 2 ^ 56 := by
  rw [State.classOf_eq]
  refine ⟨fun h => Decidable.by_contra fun hg => ?_, fun hg => if_pos hg⟩
  rw [if_neg hg] at h
  split at h
  next => cases h
  next => split at h <;> cases h

theorem State.classOf_eq_scratchpad (s : State) (t : Team) (a : DWord) (o : Nat) :
    s.classOf t a = .scratchpad o ↔ o < 2 ^ 48 ∧ o < t.sliceSize ∧ a.toNat = 0x0100 * 2 ^ 48 + o := by
  rw [State.classOf_eq]
  split
  next => exact ⟨nofun, by omega⟩
  next hg =>
    split
    next hs =>
      rw [Class.scratchpad.injEq]
      omega
    next hs =>
      split
      next => exact ⟨nofun, by omega⟩
      next => exact ⟨nofun, by omega⟩

theorem State.classOf_eq_window (s : State) (t : Team) (a : DWord) (r o : Nat) :
    s.classOf t a = .window r o ↔ o < 2 ^ 20 ∧ o < s.memberSlice t r ∧ r < 2 ^ 28 ∧ r < s.clusterSize t ∧
      a.toNat = 0x0101 * 2 ^ 48 + r * 2 ^ 20 + o := by
  have hslice : ∀ r, s.memberSlice t r = t.sliceSize := fun _ => rfl
  simp only [State.classOf_eq, hslice]
  split
  next => exact ⟨nofun, by omega⟩
  next hg =>
    split
    next => exact ⟨nofun, by omega⟩
    next hs =>
      split
      next hw =>
        rw [Class.window.injEq]
        omega
      next => exact ⟨nofun, by omega⟩

theorem addressClasses : AddressClasses := fun s t a =>
  ⟨s.classOf_eq_global t a, s.classOf_eq_scratchpad t a, s.classOf_eq_window t a⟩

/-! ## The checks of a generic address -/

/-- R197: a slice offset outside every declared buffer is checked as in a plain one. -/
theorem checkOffset_outside (t : Team) (offset w : Nat) (a : BufferAccess) (addr : DWord)
    (h : ∀ n, n < 32 → descV (t.buffer n) = true →
      offset < descBase (t.buffer n) ∨ descBase (t.buffer n) + descSize (t.buffer n) ≤ offset) :
    checkOffset t offset w a addr = none := by
  have hnone : t.bufferAt offset = none := by
    rw [Team.bufferAt, List.find?_eq_none]
    intro n hn hin
    simp only [Bool.and_eq_true, decide_eq_true_eq] at hin
    have := h n (List.mem_range.1 hn) hin.1
    omega
  rw [checkOffset, hnone]

theorem reachSlice_outside (e : Env) (t : Team) (offset w access : Nat) (a : DWord) (remote : Bool)
    (ht : e.s.team? t.id = some t)
    (h : ∀ n, n < 32 → descV (t.buffer n) = true →
      offset < descBase (t.buffer n) ∨ descBase (t.buffer n) + descSize (t.buffer n) ≤ offset) :
    reachSlice e t offset w access a remote = .scratch { team := t.id, offset, remote } := by
  rw [reachSlice, ht, Option.getD_some, checkOffset_outside t offset w _ a h]

section
variable {e : Env} {j : Nat} {a : DWord} {w align access : Nat} {only : Bool}

theorem reachAddress_unused (h : e.s.classOf e.t a = .unused) :
    reachAddress e j a w align access only = .fault (addressed addressFault a access) := by
  rw [reachAddress, h]

theorem reachAddress_misaligned (h : e.s.classOf e.t a ≠ .unused) (hm : a.toNat % align ≠ 0) :
    reachAddress e j a w align access false = .fault (addressed misaligned a access) := by
  rw [reachAddress]
  cases hc : e.s.classOf e.t a with
  | unused => exact absurd hc h
  | global => exact if_pos hm
  | scratchpad o => exact if_pos hm
  | window r o => exact if_pos hm

theorem reachAddress_global (h : e.s.classOf e.t a = .global) (ha : a.toNat % align = 0) :
    reachAddress e j a w align access only = reachGlobal e j a access := by
  rw [reachAddress, h]
  have haligned : ¬a.toNat % align ≠ 0 := fun h => h ha
  exact if_neg haligned

theorem reachAddress_scratchpad {o : Nat} (h : e.s.classOf e.t a = .scratchpad o) (ha : a.toNat % align = 0) :
    reachAddress e j a w align access false = reachSlice e e.t o w access a false := by
  rw [reachAddress, h]
  have haligned : ¬a.toNat % align ≠ 0 := fun h => h ha
  exact if_neg haligned

theorem reachAddress_window {r o : Nat} {member : Team} (h : e.s.classOf e.t a = .window r o) (ha : a.toNat % align = 0)
    (hm : e.memberTeam r = .ok member) :
    reachAddress e j a w align access false = reachSlice e member o w access a true := by
  rw [reachAddress, h]
  simp [ha, hm]

/-- R211, R254: an access to global memory only takes the other classes as unused. -/
theorem reachAddress_globalOnly (h : (∃ o, e.s.classOf e.t a = .scratchpad o) ∨ ∃ r o, e.s.classOf e.t a = .window r o) :
    reachAddress e j a w align access true = .fault (addressed addressFault a access) := by
  rw [reachAddress]
  obtain ⟨o, h⟩ | ⟨r, o, h⟩ := h <;> rw [h] <;> rfl

/-! ## The home of an access -/

theorem reachGeneric_of_memory {place : Nat} {page : PageEntry}
    (h : reachAddress e j a w align access only = .memory place page) :
    reachGeneric e j a w align access only = homeChecked e a access (.memory place page) := by
  rw [reachGeneric, h]

theorem reachGeneric_of_not_memory (h : ∀ place page, reachAddress e j a w align access only ≠ .memory place page) :
    reachGeneric e j a w align access only = reachAddress e j a w align access only := by
  rw [reachGeneric]
  cases hr : reachAddress e j a w align access only with
  | memory place page => exact absurd hr (h place page)
  | scratch | fault | failed | park | notReady | wait => rfl

end

theorem genericAccessesAreChecked : GenericAccessesAreChecked := by
  intro e j a w align access only checked led
  refine ⟨reachAddress_unused, ?_, ?_, ?_, ?_, ?_, ?_, reachGeneric_of_not_memory⟩
  · rintro hc rfl hm
    exact reachAddress_misaligned hc hm
  · intro hc ha
    have hchecked : checked = reachGlobal e j a access := reachAddress_global hc ha
    exact ⟨fun h => by rw [hchecked, reachGlobal, h], fun h => by rw [hchecked, reachGlobal, h],
      fun place h => by rw [hchecked, reachGlobal, h], fun place page h => by rw [hchecked, reachGlobal, h]⟩
  · rintro o hc rfl ha ht hout
    exact (reachAddress_scratchpad hc ha).trans (reachSlice_outside e e.t o w access a false ht hout)
  · rintro rank o member hc rfl ha hm ht hout
    exact (reachAddress_window hc ha hm).trans (reachSlice_outside e member o w access a true ht hout)
  · rintro rfl
    exact ⟨fun o hc => reachAddress_globalOnly (.inl ⟨o, hc⟩), fun r o hc => reachAddress_globalOnly (.inr ⟨r, o, hc⟩)⟩
  · intro place page hm
    have hled : led = homeChecked e a access (.memory place page) := reachGeneric_of_memory hm
    exact ⟨fun h => by rw [hled, hm, homeChecked, h], fun h => by rw [hled, homeChecked, h],
      fun h => by rw [hled, homeChecked, h]⟩

end Sys2Proof.Machine
end

section
/-! Translation of a global address, and what an access brings about outside the lanes (R166, R168, R37, R399, R405). -/

namespace Sys2Proof.Machine

/-! ## Translation -/

section
variable {s : State} {c core : Nat} {va : DWord}
  (hmiss : ∀ p ∈ (s.core core).tlb, s.pageHit (s.ctx c).asid va p = false) (access : Nat)
include hmiss

theorem State.find?_tlb_miss : (s.core core).tlb.find? (s.pageHit (s.ctx c).asid va) = none := by
  rw [List.find?_eq_none]
  exact fun p hp => by simp [hmiss p hp]

theorem State.translate_unmapped (h : s.walked c va = .unmapped) : s.translate c core none va access = .denied := by
  simp only [State.translate, Option.toList_none, List.nil_append, State.find?_tlb_miss hmiss, h]

theorem State.translate_waits {place : Nat} (h : s.walked c va = .waits place) :
    s.translate c core none va access = .waits place := by
  simp only [State.translate, Option.toList_none, List.nil_append, State.find?_tlb_miss hmiss, h]

/-- R168: where no cached translation holds the page, the leaf decides, and its permission comes before its presence. -/
theorem State.translate_leaf {l : Leaf} (h : s.walked c va = .leaf l) :
    s.translate c core none va access =
      if entryAllows l.entry access = false then .denied
      else if entryP l.entry = false then .absent
      else
        let p : PageEntry := { asid := (s.ctx c).asid, generation := s.generation (s.ctx c).asid,
                               page := va.toNat / pageBytes l.size, size := l.size, entry := l.entry }
        .ok (placeUnder p va) p := by
  simp only [State.translate, Option.toList_none, List.nil_append, State.find?_tlb_miss hmiss, h, Bool.not_eq_true']

end

/-- R399: the place of an address in a page of this device. -/
theorem placeUnder_local (p : PageEntry) (va : DWord) (h : entryRem p.entry = false) :
    placeUnder p va = entryFrame p.entry + va.toNat % pageBytes p.size := by
  simp [placeUnder, h]

theorem translationJudgesPermissionFirst : TranslationJudgesPermissionFirst := by
  intro s c core va access hmiss
  refine ⟨State.translate_unmapped hmiss access, fun _ => State.translate_waits hmiss access, fun l h => ?_⟩
  rw [State.translate_leaf hmiss access h]
  refine ⟨fun ha => if_pos ha, fun ha hp => by simp [ha, hp], fun ha hp hrem => ?_⟩
  simp only [ha, hp]
  exact ⟨_, congrArg (Trans.ok · _) (placeUnder_local _ va hrem), rfl, rfl⟩

/-! ## The last-page register and the TLB -/

theorem State.lane_mapLane_same {s : State} {gid : Nat} {g : Group} (j : Nat) (f : Lane → Lane) (h : s.group? gid = some g)
    (hj : j < g.lanes.length) : (s.mapLane gid j f).lane gid j = f (s.lane gid j) := by
  have hmap : (s.mapLane gid j f).group? gid = some (g.mapLane j f) := by
    rw [State.mapLane, State.group?_mapGroup_same s gid (fun x => x.mapLane j f) fun _ => rfl, h]
    rfl
  simp [State.lane, hmap, h, Group.lane_mapLane g j j f hj]

@[simp] theorem State.mapCore_lane (s : State) (core : Nat) (f : Core → Core) (gid j : Nat) :
    (s.mapCore core f).lane gid j = s.lane gid j := rfl

@[simp] theorem State.mapLane_core (s : State) (gid j : Nat) (f : Lane → Lane) (c : Nat) :
    (s.mapLane gid j f).core c = s.core c := rfl

/-- R166: what a translation that succeeded reloads, by whether it hit the last-page register. -/
theorem State.reload_cases (s : State) (gid j core : Nat) (p : PageEntry) :
    let r := s.mapLane gid j fun l => { l with lastPage := some p }
    (((s.lane gid j).lastPage = some p ∨ p ∈ (s.core core).tlb) ∧ s.reload gid j core p = r) ∨
    ((s.lane gid j).lastPage ≠ some p ∧
      s.reload gid j core p = r.mapCore core fun k => { k with tlb := (p :: k.tlb).take 4096 }) := by
  intro r
  simp only [State.reload]
  split
  next h => exact .inl ⟨by simpa using h, rfl⟩
  next h =>
    simp only [Bool.or_eq_true, decide_eq_true_eq, not_or] at h
    exact .inr ⟨h.1, rfl⟩

theorem State.reload_lastPage {s : State} {gid : Nat} {g : Group} (j core : Nat) (p : PageEntry) (h : s.group? gid = some g)
    (hj : j < g.lanes.length) : ((s.reload gid j core p).lane gid j).lastPage = some p := by
  obtain ⟨-, hr⟩ | ⟨-, hr⟩ := s.reload_cases gid j core p <;>
    simp only [hr, State.mapCore_lane, State.lane_mapLane_same j _ h hj]

theorem State.reload_hit {s : State} {gid j : Nat} (core : Nat) {p : PageEntry} (h : (s.lane gid j).lastPage = some p) :
    (s.reload gid j core p).cores = s.cores := by
  obtain ⟨-, hr⟩ | ⟨hn, -⟩ := s.reload_cases gid j core p
  · rw [hr, State.mapLane_cores]
  · exact absurd h hn

theorem State.reload_miss {s : State} {gid j : Nat} (core : Nat) {p : PageEntry} (h : (s.lane gid j).lastPage ≠ some p) :
    p ∈ ((s.reload gid j core p).core core).tlb ∧
      ((s.reload gid j core p).core core).tlb.length ≤ max 4096 (s.core core).tlb.length := by
  obtain ⟨hin, hr⟩ | ⟨-, hr⟩ := s.reload_cases gid j core p
  · rw [hr, State.mapLane_core]
    exact ⟨hin.resolve_left h, Nat.le_max_right _ _⟩
  · rw [hr, State.core_mapCore, if_pos rfl]
    exact ⟨List.mem_cons_self, Nat.le_trans (List.length_take_le _ _) (Nat.le_max_left _ _)⟩

/-! ## Requests to another device -/

theorem State.blockedAt_local (s : State) (g : Group) (j : Nat) (va : DWord) {place : Nat} (h : place < 2 ^ 64) :
    s.blockedAt g j va place = s := by
  rw [State.blockedAt, isRemote, decide_eq_false (Nat.not_le.2 h)]
  rfl

/-- R405: the request of a thread to a device without a usable port. -/
theorem State.blockedAt_remote (s : State) (g : Group) (j : Nat) (va : DWord) {place : Nat} (h : 2 ^ 64 ≤ place) :
    s.blockedAt g j va place =
      { s with ops := s.ops ++ [{ id := s.ids, gid := g.id, lane := j, team := g.team, pend := none, va, pc := (g.lane j).pc,
                                  issued := s.now, since := s.real, access := .blocked place }],
               ids := s.ids + 1 } := by
  rw [State.blockedAt, isRemote, decide_eq_true h]
  rfl

theorem reachEffect_notReady (e : Env) (j place : Nat) (page : PageEntry) (s : State) :
    reachEffect e j (.notReady place page) s =
      (s.blockedAt e.g j (BitVec.ofNat 64 place) place).reload e.g.id j e.g.core page := rfl

theorem accessesReloadTheirPages : AccessesReloadTheirPages := by
  intro e j s
  refine ⟨fun _ _ => rfl, fun _ _ => rfl, fun _ => rfl, fun _ => rfl, fun _ => rfl, ?_, ?_, ?_⟩
  · intro place page h
    rw [reachEffect_notReady, State.blockedAt_local s e.g j _ h]
  · intro place page h
    rw [reachEffect_notReady, State.blockedAt_remote s e.g j _ h]
    exact ⟨_, rfl, rfl, rfl, rfl, rfl, rfl, rfl, rfl⟩
  · intro gid core p g hg hj t
    exact ⟨State.reload_lastPage j core p hg hj, State.reload_hit core, State.reload_miss core⟩

/-- Settles O15: the checks in their order, the effects outside the lanes, the classes and the translation, each proved above. -/
theorem genericAddressesAreChecked : Obligations.GenericAddressesAreChecked :=
  ⟨genericAccessesAreChecked, accessesReloadTheirPages, addressClasses, translationJudgesPermissionFirst⟩

end Sys2Proof.Machine
end

section
/-! The state after reset (R28, R34, R329, R335, R384, R400, R401). -/

namespace Sys2Proof.Machine

/-- Settles O49: every value is that of the reset state's literal, and memory that lists nothing is canonical. -/
theorem resetState : Obligations.ResetState := by
  refine ⟨rfl, State.wf_reset, ?_⟩
  and_intros <;> rfl

end Sys2Proof.Machine
end

section
/-! The test port and the freeze (R28 to R33, R410). -/

namespace Sys2Proof.Machine

/-! ## What an instruction of the test port does -/

/-- R29: a request for a freeze stands unless the package is frozen. -/
theorem TestPort.request_eq (p : TestPort) : p.request = { p with requested := p.requested || !p.frozen } := by
  obtain ⟨_, _, _, _, frozen, _, _, _⟩ := p
  cases frozen
  · simp [TestPort.request]
  · simp [TestPort.request]

/-- R29: RELEASE clears the latch only while FREEZE_N is high. -/
theorem TestPort.release_eq (p : TestPort) :
    (if p.freezeHigh then { p with latch := false } else p) = { p with latch := p.latch && !p.freezeHigh } := by
  obtain ⟨_, _, freezeHigh, _, _, _, _, _⟩ := p
  cases freezeHigh
  · simp
  · simp

/-- R32: what loading a code leaves, where the instruction has brought the port to p first. -/
theorem State.loadTap_leaves (s : State) (p : TestPort) (code : BitVec 8) (hfrozen : p.frozen = s.test.frozen)
    (hhigh : p.freezeHigh = s.test.freezeHigh) (hchain : p.chain = s.test.chain) :
    let t := (s.mapTest fun _ => p).loadTap code
    t = { s with test := t.test } ∧ t.test.instruction.toNat = code.toNat ∧ t.test.latch = p.latch ∧
      t.test.requested = p.requested ∧ t.test.frozen = s.test.frozen ∧ t.test.freezeHigh = s.test.freezeHigh ∧
      t.test.chain = s.test.chain :=
  ⟨rfl, rfl, rfl, rfl, hfrozen, hhigh, hchain⟩

theorem exec_tapFreeze (s : State) : exec .tapFreeze s =
    .next ((s.mapTest fun p => { p with requested := p.requested || !p.frozen, latch := true }).loadTap 0x10#8) := by
  change Host.Outcome.next ((s.mapTest fun p => { p.request with latch := true }).loadTap 0x10#8) = _
  simp only [TestPort.request_eq]

theorem exec_tapRelease (s : State) : exec .tapRelease s =
    .next ((s.mapTest fun p => { p with latch := p.latch && !p.freezeHigh }).loadTap 0x11#8) := by
  change Host.Outcome.next ((s.mapTest fun p => if p.freezeHigh then { p with latch := false } else p).loadTap 0x11#8) = _
  simp only [TestPort.release_eq]

theorem exec_freezeNLow (s : State) : exec .freezeNLow s =
    .next (s.mapTest fun p => { p with requested := p.requested || !p.frozen, freezeHigh := false }) := by
  change Host.Outcome.next (s.mapTest fun p => { p.request with freezeHigh := false }) = _
  simp only [TestPort.request_eq]

theorem exec_frzctlFreeze (s : State) : exec .frzctlFreeze s =
    .next (s.mapTest fun p => { p with requested := p.requested || !p.frozen, latch := true }) := by
  change Host.Outcome.next (s.mapTest fun p => { p.request with latch := true }) = _
  simp only [TestPort.request_eq]

/-! ## The freeze -/

theorem exec_freezeEdge {s : State} (hr : s.test.requested = true) (hf : s.test.frozen = false) :
    exec .freezeEdge s = .next (s.mapTest fun p => { p with frozen := true, requested := false }) :=
  if_pos (by simp [hr, hf])

theorem exec_clockRestart {s : State} (hf : s.test.frozen = true) (hl : s.test.latch = false) (hh : s.test.freezeHigh = true) :
    exec .clockRestart s = .next (State.followBrown { s with
      test := { s.test with frozen := false }, plat := { s.plat with cxlTraining := s.plat.power },
      ports := s.ports.map fun e => if e.2 = .trained then (e.1, .retraining s.real) else e }) :=
  if_pos (by simp [hf, hl, hh])

/-- R410: a device that is not quiescing has nothing to follow while BROWN_N is high. -/
theorem State.followBrown_high {s : State} (hb : s.plat.brownHigh = true) (hq : s.plat.quiescing = false) :
    s.followBrown = s := by
  simp [State.followBrown, hb, hq]

theorem testPortEvents : TestPortEvents := by
  intro s leaves asked
  refine ⟨?idcode, ?freeze, ?release, ?status, ?scansel, ?scanrd, fun code => ?bypass, fun bits => ?shift,
    exec_freezeNLow s, rfl, exec_frzctlFreeze s, exec_freezeEdge, exec_clockRestart, State.followBrown_high⟩
  case idcode | status | scansel | scanrd | bypass => exact ⟨_, rfl, s.loadTap_leaves s.test _ rfl rfl rfl⟩
  case freeze => exact ⟨_, exec_tapFreeze s, s.loadTap_leaves _ _ rfl rfl rfl⟩
  case release => exact ⟨_, exec_tapRelease s, s.loadTap_leaves _ _ rfl rfl rfl⟩
  case shift => exact ⟨_, rfl, rfl, rfl, rfl⟩

/-! ## What the test port reads -/

/-- R32: the four low bits of a byte made of them, the others 0. -/
theorem lowBits_statusByte : ∀ a b c d : Bool,
    lowBits 8 (natOf a + 2 * natOf b + 4 * natOf c + 8 * natOf d) = [a, b, c, d] ++ List.replicate 4 false := by
  decide

theorem State.captured_status {s : State} (h : s.test.instruction = 0x12#8) : s.captured = lowBits 8 s.tapStatus := by
  simp [State.captured, h]

theorem State.captured_scan {s : State} (h : s.test.instruction = 0x21#8) : s.captured = s.scanOut := by
  simp [State.captured, h]

/-- R33: the read-out is of length 0 unless the package is frozen with debug access. -/
theorem State.scanOut_closed {s : State} (h : s.test.frozen = false ∨ s.hub.dbgEn = false) :
    s.scanOut = List.replicate 64 false := by
  have hc : (s.test.frozen && s.hub.dbgEn) = false := Bool.and_eq_false_iff.2 h
  simp only [State.scanOut, hc, Bool.false_eq_true, if_false, List.range_zero, List.map_nil]
  decide

/-- R33: the read-out of the selected chain. -/
theorem State.scanOut_open {s : State} (hf : s.test.frozen = true) (hd : s.hub.dbgEn = true) :
    let n := Config.scanLength s.test.chain.toNat % 2 ^ 32
    let bits := (List.range n).map (s.chainBit s.test.chain.toNat)
    s.scanOut = lowBits 32 n ++ bits ++ lowBits 32 (crcBits bits) := by
  simp [State.scanOut, hf, hd]

/-- The check value of CRC-32C: that of the digits 1 to 9. -/
theorem crcBits_checkValue :
    crcBits ([0x31, 0x32, 0x33, 0x34, 0x35, 0x36, 0x37, 0x38, 0x39].flatMap (lowBits 8)) = 0xE3069283 := by
  have first : ([0x31, 0x32, 0x33].flatMap (lowBits 8)).foldl crcBit 0xFFFFFFFF = 0xEF84D04D := by decide
  have second : ([0x34, 0x35, 0x36].flatMap (lowBits 8)).foldl crcBit 0xEF84D04D = 0xBECA8E79 := by decide
  have third : ([0x37, 0x38, 0x39].flatMap (lowBits 8)).foldl crcBit 0xBECA8E79 = 0x1CF96D7C := by decide
  have digits : [0x31, 0x32, 0x33, 0x34, 0x35, 0x36, 0x37, 0x38, 0x39] =
      [0x31, 0x32, 0x33] ++ [0x34, 0x35, 0x36] ++ [0x37, 0x38, 0x39] := rfl
  rw [crcBits, digits, List.flatMap_append, List.flatMap_append, List.foldl_append, List.foldl_append, first, second, third]
  decide

theorem scanReadOut : ScanReadOut := by
  refine ⟨fun s => ⟨fun h => ?_, fun h hc => ?_, fun h hf hd => ?_⟩, crcBits_checkValue⟩
  · rw [State.captured_status h]
    exact lowBits_statusByte _ _ _ _
  · rw [State.captured_scan h, State.scanOut_closed hc]
  · refine ⟨(List.range (Config.scanLength s.test.chain.toNat % 2 ^ 32)).map (s.chainBit s.test.chain.toNat), ?_, ?_, ?_⟩
    · simpa using Nat.mod_lt _ (by decide)
    · rw [State.captured_scan h, State.scanOut_open hf hd]
      simp
    · intro i b hb
      obtain ⟨_, rfl⟩ := List.getElem?_eq_some_iff.1 hb
      rw [List.getElem_map, List.getElem_range]

end Sys2Proof.Machine
end

section
/-! The debugger: halt and resume, attachment, register writes and the single step (R364, R365, R408). -/

namespace Sys2Proof.Machine

/-! ## Register writes -/

/-- R93, R103: a ring register stands in the arena where its group is saved or its frame is spilled. -/
theorem Group.arenaRow_ring {g : Group} {j r : Nat} {name : BitVec 7} (h : placeOf (g.lane j) name = some (.ring r)) :
    g.arenaRow j name = if g.resident = true ∧ (g.lane j).lo ≤ r then none else some r := by
  rw [Group.arenaRow, h]
  simp

section
variable {s : State} {gid lane : Nat} {name : BitVec 7} {g : Group} (value : Word)
  (hd : s.hub.dbgEn = true) (hg : s.group? gid = some g) (hh : g.halted = true) (hl : lane < 32)
include hd hg hh hl

theorem exec_debuggerRegisterWrite_resident (ha : g.arenaRow lane name = none) :
    exec (.debuggerRegisterWrite gid lane name value) s = .next (s.mapGroup gid fun x => x.writeName lane name value) := by
  change execDebuggerRegisterWrite gid lane name value s = _
  simp only [execDebuggerRegisterWrite, hg, hd, hh, Nat.not_le.2 hl, ha, Bool.not_true, Bool.false_eq_true, or_self, if_false]

theorem exec_debuggerRegisterWrite_arena {t : Team} {r : Nat} (ht : s.team? g.team = some t)
    (ha : g.arenaRow lane name = some r) (hn : nameOk (g.lane lane) name = true)
    (hr : s.reach t.ctx g.core (g.spillAddrs t.rst lane r (r + 1) 0) 1 = .ok) :
    exec (.debuggerRegisterWrite gid lane name value) s =
      .next (s.spillAll gid t.ctx g.core t.rst [(r, regOffset lane, leBytes 4 value.toNat)]) := by
  change execDebuggerRegisterWrite gid lane name value s = _
  simp only [execDebuggerRegisterWrite, hg, hd, hh, Nat.not_le.2 hl, ha, ht, hn, hr, Bool.not_true, Bool.false_eq_true, or_self,
    if_false, Bool.true_and, decide_true, if_true]

end

/-! ## The single step -/

theorem Group.mem_readyLanes (g : Group) (k : Nat) : k ∈ g.readyLanes ↔ k < 32 ∧ (g.lane k).status = .ready := by
  simp [Group.readyLanes]

/-- R365: the lowest ready thread of a sub-group, sought among all lanes. -/
theorem Group.find?_subgroup (g : Group) (j : Nat) :
    ((g.subgroup j).find? fun k => g.readyLanes.contains k) =
      (List.range 32).find? fun k => decide (k < 32 ∧ (g.lane k).status = .ready ∧ (g.lane k).pc = (g.lane j).pc) := by
  rw [Group.subgroup, Group.live, List.filter_filter, List.find?_filter]
  congr 1
  funext k
  rw [Bool.eq_iff_iff]
  simp only [Bool.and_eq_true, Bool.not_eq_true', decide_eq_true_eq, decide_eq_false_iff_not, List.contains_iff_mem,
    Group.mem_readyLanes]
  constructor
  · rintro ⟨⟨hpc, -⟩, hk, hr⟩
    exact ⟨hk, hr, hpc⟩
  · rintro ⟨hk, hr, hpc⟩
    exact ⟨⟨hpc, by rw [hr]; nofun⟩, hk, hr⟩

theorem exec_singleStep_ready {s : State} {gid j k : Nat} {g : Group} (hg : s.group? gid = some g) (hs : s.steppable g = true)
    (hk : ((g.subgroup j).find? fun k => g.readyLanes.contains k) = some k) :
    exec (.singleStep gid (some j)) s =
      .next { s with host := { s.host with stepped := none }, agenda := .single gid k :: s.agenda } := by
  change execSingleStep gid (some j) s = _
  simp only [execSingleStep, hg, hs, hk, Bool.not_true, Bool.false_eq_true, if_false, Option.orElse_some,
    Option.bind_some]

theorem exec_singleStep_blocked {s : State} {gid j : Nat} {g : Group} (hg : s.group? gid = some g) (hs : s.steppable g = true)
    (hk : ((g.subgroup j).find? fun k => g.readyLanes.contains k) = none) :
    exec (.singleStep gid (some j)) s = .next { s with host := { s.host with stepped := none } } := by
  change execSingleStep gid (some j) s = _
  simp only [execSingleStep, hg, hs, hk, Bool.not_true, Bool.false_eq_true, if_false, Option.orElse_some,
    Option.bind_some]

theorem debugEvents : DebugEvents := by
  intro s hd
  refine ⟨fun target => if_pos hd, fun target => if_pos hd, ?_, ?_, ?_, ?_, ?_⟩
  · intro ctx attached hlive
    exact if_neg (by simp [hlive, hd])
  · intro gid lane name value g p hg hh hl _ _ ha
    exact exec_debuggerRegisterWrite_resident value hd hg hh hl ha
  · intro gid lane name value g t r hg ht hh hl hp hn
    refine ⟨fun haway hr => ?_, fun hres hlo => ?_⟩
    · have ha : g.arenaRow lane name = some r := by
        rw [Group.arenaRow_ring hp]
        refine if_neg ?_
        rintro ⟨hres, hlo⟩
        exact haway.elim (fun h => Bool.noConfusion (hres.symm.trans h)) fun h => Nat.not_lt.2 hlo h
      exact exec_debuggerRegisterWrite_arena value hd hg hh hl ht ha hn hr
    · rw [Group.arenaRow_ring hp]
      exact if_pos ⟨hres, hlo⟩
  · intro gid j g hg hs hj hj32 hfirst
    have hfind : ((g.subgroup j).find? fun k => g.readyLanes.contains k) = some j := by
      rw [Group.find?_subgroup, List.find?_range_eq_some]
      refine ⟨by simp [hj32, hj], by simpa using hj32, fun k hk => ?_⟩
      simp only [Bool.not_eq_true', decide_eq_false_iff_not]
      rintro ⟨-, hr, hpc⟩
      exact (hfirst k hk).elim (fun h => h hpc) fun h => h hr
    exact exec_singleStep_ready hg hs hfind
  · intro gid j g hg hs hnone
    have hfind : ((g.subgroup j).find? fun k => g.readyLanes.contains k) = none := by
      rw [Group.find?_subgroup, List.find?_eq_none]
      rintro k - hk
      obtain ⟨h32, hr, hpc⟩ := of_decide_eq_true hk
      exact hnone k h32 hpc hr
    exact ⟨_, exec_singleStep_blocked hg hs hfind, rfl, rfl⟩

/-- Settles O57: the test port and the freeze, what is read out, and the debugger, each proved above. -/
theorem testPortAndDebugEvents : Obligations.TestPortAndDebugEvents := ⟨testPortEvents, scanReadOut, debugEvents⟩

end Sys2Proof.Machine
end

section
/-! The integer, predicate and lane instructions (R38, R63, R115, R119 to R137). An instruction's writes are given as the model
computes them, and then as the rule states them. -/

namespace Sys2Proof.Machine

/-! ## Instructions that only write -/

theorem setReg_any_isScalar_congr (e : Env) (j k : Nat) (n : BitVec 7) (v w : Word) :
    (e.setReg j n v).any (fun x => x.place.isScalar) = (e.setReg k n w).any fun x => x.place.isScalar := by
  rw [isScalar_setReg, isScalar_setReg]

section
/-! What is left to say of an instruction is its kind, and that its body is the one named: both are seen by evaluation. -/

variable {i : Instr} {f : Fields}

/-- An instruction whose body acts on each lane by itself and makes the writes ws, which are the writes ws' of the rule. -/
theorem writes_of_perLane (ws : Env → Nat → List Write) {ws' : Env → Nat → List Write} (hws : ∀ e j, ws e j = ws' e j)
    (hu : ∀ e j k, (ws' e j).any (fun w => w.place.isScalar) = (ws' e k).any fun w => w.place.isScalar)
    (hk : kindOf i ≠ .l := by exact Kind.noConfusion)
    (hx : ∀ s, exec i s = .next (runCore i f (perLane fun e j => { writes := ws e j }) s) := by exact fun _ => rfl) :
    Writes i f ws' := by
  obtain rfl : ws = ws' := funext fun e => funext (hws e)
  exact writes_perLane hk ws hx hu

theorem writes_setReg (v : Env → Nat → Word) {v' : Env → Nat → Word} (hv : ∀ e j, v e j = v' e j)
    (hk : kindOf i ≠ .l := by exact Kind.noConfusion)
    (hx : ∀ s, exec i s = .next (runCore i f (perLane fun e j => { writes := e.setReg j f.d (v e j) }) s) := by
      exact fun _ => rfl) :
    Writes i f fun e j => e.setReg j f.d (v' e j) :=
  writes_of_perLane (fun e j => e.setReg j f.d (v e j)) (fun e j => by rw [hv])
    (fun e j k => setReg_any_isScalar_congr e j k f.d _ _) hk hx

theorem writes_setPair (v : Env → Nat → DWord) {v' : Env → Nat → DWord} (hv : ∀ e j, v e j = v' e j)
    (hk : kindOf i ≠ .l := by exact Kind.noConfusion)
    (hx : ∀ s, exec i s = .next (runCore i f (perLane fun e j => { writes := e.setPair j f.d (v e j) }) s) := by
      exact fun _ => rfl) :
    Writes i f fun e j => e.setPair j f.d (v' e j) :=
  writes_of_perLane (fun e j => e.setPair j f.d (v e j)) (fun e j => by rw [hv])
    (fun e j k => by rw [isScalar_setPair, isScalar_setPair]) hk hx

theorem writes_setPred (k : Nat) (b : Env → Nat → Bool) {b' : Env → Nat → Bool} (hb : ∀ e j, b e j = b' e j)
    (hk : kindOf i ≠ .l := by exact Kind.noConfusion)
    (hx : ∀ s, exec i s = .next (runCore i f (perLane fun e j => { writes := setPred k (b e j) }) s) := by
      exact fun _ => rfl) :
    Writes i f fun e j => setPred k (b' e j) :=
  writes_of_perLane (fun e j => setPred k (b e j)) (fun e j => by rw [hb]) (fun _ _ _ => rfl) hk hx

theorem writes_setPred_setReg (k : Nat) (b : Env → Nat → Bool) (v : Env → Nat → Word)
    (hk : kindOf i ≠ .l := by exact Kind.noConfusion)
    (hx : ∀ s, exec i s = .next
      (runCore i f (perLane fun e j => { writes := setPred k (b e j) ++ e.setReg j f.d (v e j) }) s) := by
      exact fun _ => rfl) :
    Writes i f fun e j => setPred k (b e j) ++ e.setReg j f.d (v e j) :=
  writes_perLane hk _ hx fun e j l => by
    simp only [List.any_append, isScalar_setPred, setReg_any_isScalar_congr e j l f.d _ (v e l)]

theorem writesAB_of_binary (op : Word → Word → Word) {op' : Word → Word → Word} (hop : ∀ a b, op a b = op' a b)
    (hk : kindOf i ≠ .l := by exact Kind.noConfusion)
    (hx : ∀ s, exec i s = binary i f op s := by exact fun _ => rfl) : WritesAB i f op' :=
  writes_setReg (fun e j => op (e.reg j f.a) (e.reg j f.b)) (fun _ _ => hop _ _) hk hx

theorem writesA_of_unary (op : Word → Word) {op' : Word → Word} (hop : ∀ a, op a = op' a)
    (hk : kindOf i ≠ .l := by exact Kind.noConfusion)
    (hx : ∀ s, exec i s = unary i f op s := by exact fun _ => rfl) : WritesA i f op' :=
  writes_setReg (fun e j => op (e.reg j f.a)) (fun _ _ => hop _) hk hx

theorem writes_nothing (hk : kindOf i ≠ .l := by exact Kind.noConfusion)
    (hx : ∀ s, exec i s = .next (runCore i f (perLane fun _ _ => {}) s) := by exact fun _ => rfl) :
    Writes i f fun _ _ => [] :=
  writes_perLane hk _ hx fun _ _ _ => rfl

end

/-! ## The table of R123 -/

theorem clampSigned_eq (z : Int) : clampSigned z = toSignedRange z := by
  rw [clampSigned, clamp_eq _ _ _ (by decide)]
  rfl

theorem clampUnsigned_eq (z : Int) : clampUnsigned z = toUnsignedRange z := by
  rw [clampUnsigned, clamp_eq _ _ _ (by decide)]
  rfl

theorem minOf_eq (u : Bool) (a b : Word) :
    minOf u a b = if u then BitVec.ofNat 32 (min a.toNat b.toNat) else BitVec.ofInt 32 (min a.toInt b.toInt) := by
  cases u with
  | false => exact minOf_signed a b
  | true => exact minOf_unsigned a b

theorem maxOf_eq (u : Bool) (a b : Word) :
    maxOf u a b = if u then BitVec.ofNat 32 (max a.toNat b.toNat) else BitVec.ofInt 32 (max a.toInt b.toInt) := by
  cases u with
  | false => exact maxOf_signed a b
  | true => exact maxOf_unsigned a b

/-- Settles O1: each form is one operation of its sources, and the operation is that of the table. -/
theorem shortIntegerFormsWriteTheirResults : Obligations.ShortIntegerFormsWriteTheirResults := by
  intro f
  refine ⟨?iadd, ?isub, ?imul, ?imulh, ?and, ?or, ?xor, ?andn, ?shl, ?shr, ?shra, ?imin, ?imax, ?mov, ?popc⟩
  case iadd => exact writesAB_of_binary (addWith 0) fun _ _ => rfl
  case isub => exact writesAB_of_binary (subWith 0) fun _ _ => rfl
  case imul => exact writesAB_of_binary (fun a b => a * b) mul_eq_ofNat
  case imulh => exact writesAB_of_binary (mulHigh false) fun _ _ => rfl
  case and => exact writesAB_of_binary (fun a b => a &&& b) fun _ _ => rfl
  case or => exact writesAB_of_binary (fun a b => a ||| b) fun _ _ => rfl
  case xor => exact writesAB_of_binary (fun a b => a ^^^ b) fun _ _ => rfl
  case andn => exact writesAB_of_binary (fun a b => a &&& ~~~b) fun _ _ => rfl
  case shl => exact writesAB_of_binary (shiftLeft false) (shiftLeft_eq false)
  case shr => exact writesAB_of_binary (shiftRight false) (shiftRight_eq false)
  case shra => exact writesAB_of_binary (shiftArith false) (shiftArith_eq false)
  case imin => exact writesAB_of_binary (minOf false) minOf_signed
  case imax => exact writesAB_of_binary (maxOf false) maxOf_signed
  case mov => exact writesA_of_unary (fun a => a) fun _ => rfl
  case popc => exact writesA_of_unary popCount popCount_eq

/-! ## The modifiers of the long forms -/

theorem iaddLong_writes {f : Fields} {op : Word → Word → Word} (hop : ∀ a b, addWith f.mod.toNat a b = op a b) :
    WritesAB (.iaddLong f) f op := writesAB_of_binary (addWith f.mod.toNat) hop

theorem isubLong_writes {f : Fields} {op : Word → Word → Word} (hop : ∀ a b, subWith f.mod.toNat a b = op a b) :
    WritesAB (.isubLong f) f op := writesAB_of_binary (subWith f.mod.toNat) hop

theorem addAndSubtractFormsWrap {f : Fields} (hm : f.mod = 0) :
    WritesAB (.iaddLong f) f (fun a b => BitVec.ofInt 32 (a.toInt + b.toInt)) ∧
      WritesAB (.isubLong f) f (fun a b => BitVec.ofInt 32 (a.toInt - b.toInt)) :=
  ⟨iaddLong_writes fun _ _ => by rw [hm]; rfl, isubLong_writes fun _ _ => by rw [hm]; rfl⟩

theorem addAndSubtractFormsSaturateSigned {f : Fields} (hm : f.mod = 1) :
    WritesAB (.iaddLong f) f (fun a b => toSignedRange (a.toInt + b.toInt)) ∧
      WritesAB (.isubLong f) f (fun a b => toSignedRange (a.toInt - b.toInt)) :=
  ⟨iaddLong_writes fun _ _ => by rw [hm]; exact clampSigned_eq _,
    isubLong_writes fun _ _ => by rw [hm]; exact clampSigned_eq _⟩

theorem addAndSubtractFormsSaturateUnsigned {f : Fields} (hm : f.mod = 2) :
    WritesAB (.iaddLong f) f (fun a b => toUnsignedRange ((a.toNat : Int) + b.toNat)) ∧
      WritesAB (.isubLong f) f (fun a b => toUnsignedRange ((a.toNat : Int) - b.toNat)) :=
  ⟨iaddLong_writes fun _ _ => by rw [hm]; exact clampUnsigned_eq _,
    isubLong_writes fun _ _ => by rw [hm]; exact clampUnsigned_eq _⟩

/-- Settles O2: the operations are those of the short forms under the modifier. -/
theorem longIntegerFormsWriteTheirResults : Obligations.LongIntegerFormsWriteTheirResults := by
  intro f
  refine ⟨addAndSubtractFormsWrap, addAndSubtractFormsSaturateSigned, addAndSubtractFormsSaturateUnsigned, ?imul, ?imulh,
    ?and, ?or, ?xor, ?andn, ?shl, ?shr, ?shra, ?imin, ?imax, ?mov, ?popc⟩
  case imul => exact writesAB_of_binary (fun a b => a * b) mul_eq_ofNat
  case imulh => exact writesAB_of_binary (mulHigh (modBit f 0)) fun _ _ => rfl
  case and => exact writesAB_of_binary (fun a b => invIf (modBit f 0) (a &&& b)) fun _ _ => rfl
  case or => exact writesAB_of_binary (fun a b => invIf (modBit f 0) (a ||| b)) fun _ _ => rfl
  case xor => exact writesAB_of_binary (fun a b => invIf (modBit f 0) (a ^^^ b)) fun _ _ => rfl
  case andn => exact writesAB_of_binary (fun a b => invIf (modBit f 0) (a &&& ~~~b)) fun _ _ => rfl
  case shl => exact writesAB_of_binary (shiftLeft (modBit f 0)) (shiftLeft_eq (modBit f 0))
  case shr => exact writesAB_of_binary (shiftRight (modBit f 0)) (shiftRight_eq (modBit f 0))
  case shra => exact writesAB_of_binary (shiftArith (modBit f 0)) (shiftArith_eq (modBit f 0))
  case imin => exact writesAB_of_binary (minOf (modBit f 0)) (minOf_eq (modBit f 0))
  case imax => exact writesAB_of_binary (maxOf (modBit f 0)) (maxOf_eq (modBit f 0))
  case mov => exact writesA_of_unary (fun a => a) fun _ => rfl
  case popc => exact writesA_of_unary popCount popCount_eq

/-! ## SEL and NOP -/

/-- Every acting lane is of the convergence set, so that a completion proved of such lanes is one of every issue. -/
theorem completes_of_inSet {i : Instr} {f : Fields} {effect : Env → List Nat → State → State}
    {change : Env → List Nat → Group → Group}
    (h : Completes i f (fun e ls => ∀ j ∈ ls, j ∈ lanesOf e.cs) effect change) :
    Completes i f (fun _ _ => True) effect change :=
  fun s iss g t hi _ => h s iss g t hi fun _ hj => actors_sub i f _ hj

theorem Env.mem_guarded (e : Env) (f : Fields) (j : Nat) : j ∈ e.guarded f ↔ j ∈ lanesOf e.cs ∧ e.passes f j = true :=
  List.mem_filter

theorem writes_of_selBody {i : Instr} {f : Fields} (hk : kindOf i ≠ .l := by exact Kind.noConfusion)
    (hx : ∀ s, exec i s = .next (runCore i f (selBody f) s) := by exact fun _ => rfl) :
    Writes i f fun e j => e.setReg j f.d (if j ∈ e.guarded f then e.reg j f.a else e.reg j f.b) := by
  refine completes_of_inSet (completes_wrote hk _ _ _ hx (fun e ls s hls => ⟨rfl, fun j hj => ?_⟩)
    fun e _ j k => setReg_any_isScalar_congr e j k f.d _ _)
  simp only [selBody, perLane, e.mem_guarded f j, hls j hj, true_and]

theorem selectAndNop : SelectAndNop :=
  ⟨fun _ => writes_of_selBody, fun _ => writes_of_selBody, writes_nothing, fun _ => writes_nothing⟩

/-! ## Immediates, multiply-add, addresses and carries -/

theorem multiplyAdd_eq (a b c : Word) : a * b + c = BitVec.ofNat 32 (a.toNat * b.toNat + c.toNat) := by
  rw [BitVec.ofNat_add, ← mul_eq_ofNat, BitVec.ofNat_toNat, BitVec.setWidth_eq]

theorem modBits_zero (f : Fields) (n : Nat) : modBits f 0 n = f.mod.toNat % 2 ^ n := by
  rw [modBits, Nat.pow_zero, Nat.div_one]

theorem leaAddress_eq (f : Fields) (base : DWord) (x : Word) :
    leaAddress f base x = BitVec.ofInt 64 (base.toNat +
      (if f.mod.getLsbD 3 then (x.toNat : Int) else x.toInt) * 2 ^ (f.mod.toNat % 8)) := by
  rw [leaAddress, modBits_zero]
  rfl

theorem immediatesMultiplyAddAndCarries : ImmediatesMultiplyAddAndCarries := by
  intro f
  refine ⟨?iaddi, ?movi, ?imad, ?imadw, ?lea, ?iaddc, ?isubb⟩
  case iaddi => exact writesA_of_unary (fun a => bits32 (a.toInt + f.imm.toInt)) fun _ => rfl
  case movi => exact writes_setReg (fun _ _ => f.imm) fun _ _ => rfl
  case imad =>
    exact writes_setReg (fun e j => e.reg j f.a * e.reg j f.b + e.reg j f.c) fun _ _ =>
      multiplyAdd_eq _ _ _
  case imadw =>
    exact writes_setPair (fun e j => mulAddWide (modBit f 0) (e.reg j f.a) (e.reg j f.b) (e.pair j f.c)) fun _ _ => rfl
  case lea =>
    exact writes_setPair (fun e j => leaAddress f (e.pair j f.a) (e.reg j f.b)) fun _ _ =>
      leaAddress_eq f _ _
  case iaddc =>
    exact writes_setPred_setReg f.c.toNat (fun e j => carryOut (e.reg j f.a) (e.reg j f.b) (carryIn e f j))
      (fun e j => BitVec.ofNat 32 (carrySum (e.reg j f.a) (e.reg j f.b) (carryIn e f j)))
  case isubb =>
    exact writes_setPred_setReg f.c.toNat (fun e j => borrowOut (e.reg j f.a) (e.reg j f.b) (carryIn e f j))
      (fun e j => bits32 (borrowDiff (e.reg j f.a) (e.reg j f.b) (carryIn e f j)))

/-- Settles O3: SEL and NOP, and the immediate, multiply-add, address and carry forms, each proved above. -/
theorem selectNopAndImmediates : Obligations.SelectNopAndImmediates := ⟨selectAndNop, immediatesMultiplyAddAndCarries⟩

/-! ## Unary forms, rotation and bit fields -/

theorem rotation_eq (right : Bool) (a : Word) {k : Nat} (hk : k < 32) :
    (if right then a.rotateRight k else a.rotateLeft k) =
      if right then (a >>> k) ||| (a <<< (32 - k)) else (a <<< k) ||| (a >>> (32 - k)) := by
  rw [rotateRight_eq a hk, rotateLeft_eq a hk]

/-- Settles O4: each form is one operation of its sources, and the operation is that of the rule. -/
theorem unaryAndBitFields : Obligations.UnaryAndBitFields := by
  intro f
  refine ⟨?ineg, ?iabs, ?rot, ?clz, ?brev, ?bfe, ?bfi⟩
  case ineg => exact writesA_of_unary (negate (modBit f 0)) (negate_eq (modBit f 0))
  case iabs => exact writesA_of_unary (absolute (modBit f 0)) (absolute_eq (modBit f 0))
  case rot =>
    exact writesAB_of_binary
      (fun a b => if modBit f 0 then a.rotateRight (b.toNat % 32) else a.rotateLeft (b.toNat % 32)) fun a b =>
      rotation_eq (modBit f 0) a (Nat.mod_lt b.toNat (by decide))
  case clz => exact writesA_of_unary leadingZeros leadingZeros_eq
  case brev => exact writesA_of_unary reverseBits reverseBits_eq
  case bfe => exact writesAB_of_binary (extractField (modBit f 0)) (extractField_eq (modBit f 0))
  case bfi =>
    exact writes_setReg (fun e j => insertField (e.reg j f.a) (e.reg j f.b) (e.reg j f.c)) fun _ _ =>
      insertField_eq _ _ _

/-! ## Comparisons and predicates -/

theorem combine_modBits (f : Fields) (t p : Bool) : combine (modBits f 4 2) t p = combined f t p := combine_eq f.mod t p

theorem getLsbD_relation (f : Fields) (x y : Word) : f.mod.getLsbD (relation (modBit f 3) x y) = compares f x y :=
  relation_eq (modBit f 3) x y f.mod

theorem tableBit_eq (m : BitVec 8) (p q c : Bool) :
    m.getLsbD (if c then 4 + (2 * natOf p + natOf q) else 2 * natOf p + natOf q) =
      if c then m.getLsbD (4 + ((if p then 2 else 0) + if q then 1 else 0))
      else m.getLsbD ((if p then 2 else 0) + if q then 1 else 0) := by
  have hk : 2 * natOf p + natOf q = (if p then 2 else 0) + if q then 1 else 0 := by cases p <;> rfl
  rw [hk]
  exact apply_ite m.getLsbD _ _ _

theorem isScalar_predWrites (a m : Word) : (predWrites a m).any (fun w => w.place.isScalar) = false := by
  simp only [predWrites, List.any_flatMap, isScalar_setPred, List.any_eq_false, Bool.false_eq_true, not_false_eq_true,
    implies_true]

theorem pmov_writes_predWord {f : Fields} (hm : f.mod = 0) : Writes (.pmov f) f fun e j => e.setReg j f.d (predWord e j) :=
  writes_of_perLane (fun e j => if f.mod = 0 then e.setReg j f.d (predWord e j) else predWrites (e.reg j f.a) (e.reg j f.b))
    (fun _ _ => if_pos hm) fun e j k => setReg_any_isScalar_congr e j k f.d _ _

theorem pmov_writes_predicates {f : Fields} (hm : f.mod = 1) :
    Writes (.pmov f) f fun e j => predWrites (e.reg j f.a) (e.reg j f.b) :=
  writes_of_perLane (fun e j => if f.mod = 0 then e.setReg j f.d (predWord e j) else predWrites (e.reg j f.a) (e.reg j f.b))
    (fun _ _ => if_neg (by rw [hm]; decide)) fun _ _ _ => by rw [isScalar_predWrites, isScalar_predWrites]

/-- Settles O5: the relation and its combination, the bit of the table, and the two moves are those of the rules. -/
theorem comparisonsAndPredicates : Obligations.ComparisonsAndPredicates := by
  intro f
  refine ⟨?icmp, ?icmpi, ?pfun, ?get, ?set⟩
  case icmp =>
    exact writes_setPred f.d.toNat
      (fun e j => combine (modBits f 4 2) (f.mod.getLsbD (relation (modBit f 3) (e.reg j f.a) (e.reg j f.b)))
        (e.pred j f.c.toNat)) fun _ _ => by rw [combine_modBits, getLsbD_relation]
  case icmpi =>
    exact writes_setPred f.d.toNat
      (fun e j => combine (modBits f 4 2) (f.mod.getLsbD (relation (modBit f 3) (e.reg j f.a) f.imm)) (e.pred j f.c.toNat))
      fun _ _ => by rw [combine_modBits, getLsbD_relation]
  case pfun =>
    exact writes_setPred f.d.toNat
      (fun e j => f.mod.getLsbD (if e.pred j f.c.toNat then 4 + (2 * natOf (e.pred j f.a.toNat) + natOf (e.pred j f.b.toNat))
        else 2 * natOf (e.pred j f.a.toNat) + natOf (e.pred j f.b.toNat))) fun _ _ => tableBit_eq _ _ _ _
  case get =>
    intro hm
    have h := pmov_writes_predWord hm
    simp only [predWord_eq] at h
    exact h
  case set =>
    intro hm
    have h := pmov_writes_predicates hm
    simp only [predWrites_eq] at h
    exact h

/-! ## VOTE -/

theorem voteBody_ballot {f : Fields} (hm : f.mod = 0) (e : Env) (ls : List Nat) (s : State) :
    voteBody f e ls s = (s, fun j => { writes := e.setReg j f.d (ballot e ls f.a.toNat) }) := by
  rw [voteBody, hm]
  rfl

theorem voteBody_all {f : Fields} (hm : f.mod = 1) (e : Env) (ls : List Nat) (s : State) :
    voteBody f e ls s = (s, fun _ => { writes := setPred f.d.toNat (ls.all fun j => e.pred j f.a.toNat) }) := by
  rw [voteBody, hm]
  rfl

theorem voteBody_any {f : Fields} (hm : f.mod = 2) (e : Env) (ls : List Nat) (s : State) :
    voteBody f e ls s = (s, fun _ => { writes := setPred f.d.toNat (ls.any fun j => e.pred j f.a.toNat) }) := by
  rw [voteBody, hm]
  rfl

theorem voteBody_equal {f : Fields} (hm : f.mod = 3) (e : Env) (ls : List Nat) (s : State) :
    voteBody f e ls s = (s, fun _ =>
      { writes := setPred f.d.toNat (ballot e ls f.a.toNat == 0 || ballot e ls f.a.toNat == maskOf ls) }) := by
  rw [voteBody, hm]
  rfl

theorem voteBody_setMask {f : Fields} (hm : f.mod = 4) (e : Env) {ls : List Nat} (hls : ls ≠ []) (s : State) :
    voteBody f e ls s =
      (s.mapGroup e.g.id fun g => (g.setMask f.d.toNat
        ((g.mask f.d.toNat &&& ~~~(maskOf ls)) ||| ballot e ls f.a.toNat)).releaseMask f.d.toNat s.clk.toNat,
        fun _ => {}) := by
  rw [voteBody, hm]
  cases ls with
  | nil => exact absurd rfl hls
  | cons j r => rfl

theorem voteBody_getMask {f : Fields} (hm : f.mod = 5) (e : Env) (ls : List Nat) (s : State) :
    voteBody f e ls s = (s, fun j => { writes := e.setReg j f.d (e.g.mask f.a.toNat) }) := by
  rw [voteBody, hm]
  rfl

theorem ballot_eq_ballotOf (e : Env) (ls : List Nat) (p : Nat) : ballot e ls p = ballotOf e ls p := ballot_eq e ls p

/-- The masks of the lanes of a list that pass two tests agree where the tests agree on the list. -/
theorem maskOf_filter_eq_iff {ls : List Nat} (hls : ∀ j ∈ ls, j < 32) (p q : Nat → Bool) :
    maskOf (ls.filter p) = maskOf (ls.filter q) ↔ ∀ j ∈ ls, p j = q j := by
  refine ⟨fun h j hj => ?_, fun h => by rw [List.filter_congr h]⟩
  have hbit : (maskOf (ls.filter p)).getLsbD j = (maskOf (ls.filter q)).getLsbD j := by rw [h]
  simp only [getLsbD_maskOf _ (hls j hj), List.mem_filter, hj, true_and, Bool.decide_eq_true] at hbit
  exact hbit

/-- R134, mode 3: the ballot is empty or full where the participants agree. -/
theorem ballot_uniform_iff {e : Env} {ls : List Nat} (hls : ∀ j ∈ ls, j < 32) (p : Nat) :
    (ballot e ls p == 0 || ballot e ls p == maskOf ls) = decide (∀ j ∈ ls, ∀ k ∈ ls, e.pred j p = e.pred k p) := by
  have hnone : ballot e ls p = 0 ↔ ∀ j ∈ ls, e.pred j p = false := by
    have h := maskOf_filter_eq_iff hls (fun j => e.pred j p) fun _ => false
    rwa [filter_none (fun _ => false) ls fun _ _ => rfl] at h
  have hfull : ballot e ls p = maskOf ls ↔ ∀ j ∈ ls, e.pred j p = true := by
    have h := maskOf_filter_eq_iff hls (fun j => e.pred j p) fun _ => true
    rwa [filter_all (fun _ => true) ls fun _ _ => rfl] at h
  rw [Bool.eq_iff_iff, Bool.or_eq_true, beq_iff_eq, beq_iff_eq, decide_eq_true_iff, hnone, hfull]
  constructor
  · rintro (h | h) j hj k hk <;> rw [h j hj, h k hk]
  · intro h
    by_cases hany : ∃ j ∈ ls, e.pred j p = true
    · obtain ⟨j, hj, ht⟩ := hany
      exact .inr fun k hk => (h k hk j hj).trans ht
    · exact .inl fun j hj => Bool.eq_false_iff.2 fun ht => hany ⟨j, hj, ht⟩

/-- An instruction whose body leaves the state alone and makes each acting lane write D. -/
theorem completes_setReg {i : Instr} {f : Fields} (holds : Env → List Nat → Prop) (v : Env → List Nat → Nat → Word)
    (body : Body) (hb : ∀ e ls s, holds e ls → (body e ls s).1 = s ∧
      ∀ j ∈ ls, (body e ls s).2 j = { writes := e.setReg j f.d (v e ls j) })
    (hk : kindOf i ≠ .l := by exact Kind.noConfusion)
    (hx : ∀ s, exec i s = .next (runCore i f body s) := by exact fun _ => rfl) :
    Completes i f holds (fun _ _ s => s) fun e ls => e.wrote ls fun j => e.setReg j f.d (v e ls j) :=
  completes_wrote hk holds (fun e ls j => e.setReg j f.d (v e ls j)) body hx hb fun e _ j k =>
    setReg_any_isScalar_congr e j k f.d _ _

/-- One that makes every acting lane write the same value to a predicate. -/
theorem completes_setPred {i : Instr} {f : Fields} (holds : Env → List Nat → Prop) (k : Nat)
    (b : Env → List Nat → Bool) (body : Body)
    (hb : ∀ e ls s, holds e ls → body e ls s = (s, fun _ => { writes := setPred k (b e ls) }))
    (hk : kindOf i ≠ .l := by exact Kind.noConfusion)
    (hx : ∀ s, exec i s = .next (runCore i f body s) := by exact fun _ => rfl) :
    Completes i f holds (fun _ _ s => s) fun e ls => e.wrote ls fun _ => setPred k (b e ls) :=
  completes_wrote hk holds (fun e ls _ => setPred k (b e ls)) body hx
    (fun e ls s h => by rw [hb e ls s h]; exact ⟨rfl, fun _ _ => rfl⟩) fun _ _ _ _ => rfl

theorem wrote_nothing (e : Env) (ls : List Nat) : (e.wrote ls fun _ => []) = e.changed ls fun _ l => l := by
  have hlead : leadOfWrites ls (fun _ => []) = [] := by cases ls <;> rfl
  funext g
  simp only [Env.wrote, Env.changed, hlead, sharedOf, ownOf, placesOf, List.map_nil, List.filter_nil, movedOver_none,
    takeOver_none, Lane.putAll, putScalars, List.foldl_nil]
  rfl

/-- R134, mode 4: the participants' own bits of the mask change outside the lanes, and the lanes go on. -/
theorem vote_setMask_completes {f : Fields} (hm : f.mod = 4) :
    Completes (.vote f) f (fun _ ls => ls ≠ [])
      (fun e ls s => s.mapGroup e.g.id fun g => (g.setMask f.d.toNat
        ((g.mask f.d.toNat &&& ~~~(maskOf ls)) ||| ballotOf e ls f.a.toNat)).releaseMask f.d.toNat s.clk.toNat)
      fun e ls => e.changed ls fun _ l => l := by
  intro s iss g t h hls
  refine ⟨_, rfl, ?_⟩
  have hl := issue_wrote h Kind.noConfusion (voteBody f) (fun _ => []) (voteBody_setMask hm _ hls s.taken) (fun _ _ => rfl)
    fun _ _ _ _ => rfl
  rwa [wrote_nothing, ballot_eq_ballotOf] at hl

theorem voteCombinesThePredicate : VoteCombinesThePredicate := by
  intro f
  refine ⟨fun hm => ?ballot, fun hm => ?all, fun hm => ?any, fun hm => ?equal, vote_setMask_completes, fun hm => ?getMask⟩
  case ballot =>
    refine completes_setReg _ (fun e ls _ => ballotOf e ls f.a.toNat) (voteBody f) fun e ls s _ => ?_
    rw [voteBody_ballot hm, ballot_eq_ballotOf]
    exact ⟨rfl, fun _ _ => rfl⟩
  case all =>
    refine completes_setPred _ f.d.toNat (fun e ls => decide (∀ j ∈ ls, e.pred j f.a.toNat = true)) (voteBody f)
      fun e ls s _ => ?_
    rw [voteBody_all hm, List.all_eq]
  case any =>
    refine completes_setPred _ f.d.toNat (fun e ls => decide (∃ j ∈ ls, e.pred j f.a.toNat = true)) (voteBody f)
      fun e ls s _ => ?_
    rw [voteBody_any hm, List.any_eq]
  case equal =>
    refine completes_of_inSet (completes_setPred _ f.d.toNat
      (fun e ls => decide (∀ j ∈ ls, ∀ k ∈ ls, e.pred j f.a.toNat = e.pred k f.a.toNat)) (voteBody f)
      fun e ls s hls => ?_)
    rw [voteBody_equal hm, ballot_uniform_iff fun j hj => ((mem_lanesOf e.cs j).1 (hls j hj)).1]
  case getMask =>
    refine completes_setReg _ (fun e _ _ => e.g.mask f.a.toNat) (voteBody f) fun e ls s _ => ?_
    rw [voteBody_getMask hm]
    exact ⟨rfl, fun _ _ => rfl⟩

/-! ## Exchange -/

theorem segment_offset (w j : Nat) : j - (j - j % w) = j % w := Nat.sub_sub_self (Nat.mod_le j w)

/-- R135, mode 2: the lane a signed distance away, where it lies in the segment. -/
theorem exchangeLane_offset (w j : Nat) (c : Word) :
    exchangeLane 2 w j c =
      if ((j - j % w : Nat) : Int) ≤ j + c.toInt ∧ (j + c.toInt : Int) < (j - j % w : Nat) + w then
        some (j + c.toInt).toNat
      else none := by
  have hlow : j - j % w ≤ j := Nat.sub_le _ _
  simp only [exchangeLane]
  generalize j - j % w = base at *
  split
  next h =>
    obtain ⟨hge, hlt⟩ := h
    rw [List.find?_map, Option.map_eq_some_iff]
    refine ⟨(j + c.toInt).toNat - base, ?_, by omega⟩
    rw [List.find?_range_eq_some]
    simp only [decide_eq_true_eq, List.mem_range, Function.comp_apply, Bool.not_eq_true', decide_eq_false_iff_not]
    exact ⟨by omega, by omega, fun i hi => by omega⟩
  next h =>
    rw [List.find?_eq_none]
    intro k hk
    obtain ⟨i, hi, rfl⟩ := List.mem_map.1 hk
    have := List.mem_range.1 hi
    rw [decide_eq_true_eq]
    omega

theorem exchangeSource_eq_exchangeLane (mode w j : Nat) (c : Word) : exchangeSource mode w j c = exchangeLane mode w j c := by
  match mode with
  | 0 => rfl
  | 1 => simp only [exchangeSource, exchangeLane, segment_offset]
  | 2 =>
    have hlow : j - j % w ≤ j := Nat.sub_le _ _
    have hoff := segment_offset w j
    have hmod : w = 0 ∨ j % w < w := (Nat.eq_zero_or_pos w).imp_right fun hw => Nat.mod_lt j hw
    rw [exchangeLane_offset, exchangeSource]
    congr 1
    apply propext
    rcases hmod with rfl | hmod <;> omega
  | n + 3 => simp only [exchangeSource, exchangeLane, segment_offset]

theorem segmentWidth_eq (f : Fields) : 32 / 2 ^ modBits f 2 3 = 32 >>> (f.mod.toNat / 4 % 8) := by
  rw [Nat.shiftRight_eq_div_pow]
  rfl

/-- The lane whose value lane j takes (R135): the one LXCH reads where it is a participant, else lane j itself. -/
def exchangedFrom (f : Fields) (e : Env) (ls : List Nat) (j : Nat) : Nat :=
  ((exchangeLane (f.mod.toNat % 4) (32 >>> (f.mod.toNat / 4 % 8)) j (e.reg j f.b)).filter fun k => decide (k ∈ ls)).getD j

theorem exchangeBody_lane (f : Fields) (e : Env) (ls : List Nat) (s : State) (j : Nat) :
    (exchangeBody f e ls s).2 j = { writes := e.setReg j f.d (e.reg (exchangedFrom f e ls j) f.a) } := by
  simp only [exchangeBody, exchangedFrom, exchangeSource_eq_exchangeLane, segmentWidth_eq, modBits_zero, Nat.reducePow]
  cases exchangeLane (f.mod.toNat % 4) (32 >>> (f.mod.toNat / 4 % 8)) j (e.reg j f.b) with
  | none => rfl
  | some k =>
    by_cases h : k ∈ ls
    · simp only [Option.filter, List.contains_iff_mem.2 h, h, decide_true, if_true, Option.getD_some]
    · have hc : ls.contains k = false := Bool.eq_false_iff.2 fun hc => h (List.contains_iff_mem.1 hc)
      simp only [Option.filter, hc, h, decide_false, Bool.false_eq_true, if_false, Option.getD_none]

theorem lxch_completes (f : Fields) : Completes (.lxch f) f (fun _ _ => True) (fun _ _ s => s) fun e ls =>
    e.wrote ls fun j => e.setReg j f.d (e.reg (exchangedFrom f e ls j) f.a) :=
  completes_setReg _ (fun e ls j => e.reg (exchangedFrom f e ls j) f.a) (exchangeBody f) fun e ls s _ =>
    ⟨rfl, fun j _ => exchangeBody_lane f e ls s j⟩

/-! ## Broadcast -/

theorem ite_contains (ls : List Nat) (k : Nat) (v w : Word) :
    (if ls.contains k then v else w) = if k ∈ ls then v else w := by
  by_cases h : k ∈ ls
  · rw [if_pos h, if_pos (List.contains_iff_mem.2 h)]
  · rw [if_neg h, if_neg fun hc => h (List.contains_iff_mem.1 hc)]

/-- R136: what each participant takes. -/
theorem broadcastBody_lane (f : Fields) (e : Env) {ls : List Nat} {j : Nat} (hj : j ∈ ls) (s : State) :
    broadcastBody f e ls s = (s, fun j =>
      { writes := e.setReg j f.d
          (let k := if modBit f 0 then ls.headD 0 else (e.reg (ls.headD 0) f.b).toNat % 32
           if k ∈ ls then e.reg k f.a else 0) }) := by
  cases ls with
  | nil => exact absurd hj List.not_mem_nil
  | cons low r =>
    exact congrArg (Prod.mk s) (funext fun j => congrArg (fun v => ({ writes := e.setReg j f.d v } : LaneOut))
      (ite_contains (low :: r) _ _ _))

theorem broadcastBody_keeps (f : Fields) (e : Env) (ls : List Nat) (s : State) : (broadcastBody f e ls s).1 = s := by
  cases ls <;> rfl

theorem bcast_indexed_completes {f : Fields} (hm : f.mod = 0) :
    Completes (.bcast f) f (fun _ _ => True) (fun _ _ s => s) fun e ls => e.wrote ls fun j =>
      let k := (e.reg (ls.headD 0) f.b).toNat % 32
      e.setReg j f.d (if k ∈ ls then e.reg k f.a else 0) := by
  refine completes_setReg _
    (fun e ls _ => let k := (e.reg (ls.headD 0) f.b).toNat % 32; if k ∈ ls then e.reg k f.a else 0) (broadcastBody f)
    fun e ls s _ => ⟨broadcastBody_keeps f e ls s, fun j hj => ?_⟩
  rw [broadcastBody_lane f e hj s, modBit, hm]
  rfl

theorem bcast_first_completes {f : Fields} (hm : f.mod = 1) :
    Completes (.bcast f) f (fun _ _ => True) (fun _ _ s => s) fun e ls => e.wrote ls fun j =>
      e.setReg j f.d (e.reg (ls.headD 0) f.a) := by
  refine completes_setReg _ (fun e ls _ => e.reg (ls.headD 0) f.a) (broadcastBody f) fun e ls s _ =>
    ⟨broadcastBody_keeps f e ls s, fun j hj => ?_⟩
  have hhead : ls.headD 0 ∈ ls := by
    cases ls with
    | nil => exact absurd hj List.not_mem_nil
    | cons low r => exact List.mem_cons_self
  rw [broadcastBody_lane f e hj s, modBit, hm]
  exact congrArg (fun v => ({ writes := e.setReg j f.d v } : LaneOut)) (if_pos hhead)

/-! ## Reduction -/

theorem scanLanes_eq (kind j : Nat) (ls : List Nat) :
    scanLanes kind j ls = if kind = 1 then ls.filter (fun k => decide (k ≤ j))
      else if kind = 2 then ls.filter (fun k => decide (k < j)) else ls := by
  match kind with
  | 0 => rfl
  | 1 => rfl
  | 2 => rfl
  | _ + 3 => rfl

theorem reduceOp_eq_reduces (op : Nat) (a b : Word) : reduceOp op a b = reduces op a b := by
  match op with
  | 0 => simp only [reduceOp, reduces, BitVec.ofNat_add, BitVec.ofNat_toNat, BitVec.setWidth_eq]
  | 1 => exact minOf_signed a b
  | 2 => exact maxOf_signed a b
  | 3 => exact minOf_unsigned a b
  | 4 => exact maxOf_unsigned a b
  | 5 => rfl
  | 6 => rfl
  | _ + 7 => rfl

theorem reduceUnit_eq_reduceIdentity {op : Nat} (h : op < 8) : reduceUnit op = reduceIdentity op := by
  decide +revert

/-- The lesser and the greater of two numbers of 32 bits are numbers of 32 bits. -/
theorem toInt_ofInt_min (a b : Word) : (BitVec.ofInt 32 (min a.toInt b.toInt)).toInt = min a.toInt b.toInt := by
  rcases Int.le_total a.toInt b.toInt with h | h
  · rw [Int.min_eq_left h, BitVec.ofInt_toInt]
  · rw [Int.min_eq_right h, BitVec.ofInt_toInt]

theorem toInt_ofInt_max (a b : Word) : (BitVec.ofInt 32 (max a.toInt b.toInt)).toInt = max a.toInt b.toInt := by
  rcases Int.le_total a.toInt b.toInt with h | h
  · rw [Int.max_eq_right h, BitVec.ofInt_toInt]
  · rw [Int.max_eq_left h, BitVec.ofInt_toInt]

theorem toNat_ofNat_min (a b : Word) : (BitVec.ofNat 32 (min a.toNat b.toNat)).toNat = min a.toNat b.toNat :=
  Nat.mod_eq_of_lt (Nat.lt_of_le_of_lt (Nat.min_le_left _ _) a.isLt)

theorem toNat_ofNat_max (a b : Word) : (BitVec.ofNat 32 (max a.toNat b.toNat)).toNat = max a.toNat b.toNat :=
  Nat.mod_eq_of_lt (Nat.max_lt.2 ⟨a.isLt, b.isLt⟩)

theorem reduces_comm (op : Nat) (a b : Word) : reduces op a b = reduces op b a := by
  match op with
  | 0 => simp only [reduces, Nat.add_comm]
  | 1 => simp only [reduces, Int.min_comm]
  | 2 => simp only [reduces, Int.max_comm]
  | 3 => simp only [reduces, Nat.min_comm]
  | 4 => simp only [reduces, Nat.max_comm]
  | 5 => exact BitVec.and_comm a b
  | 6 => exact BitVec.or_comm a b
  | _ + 7 => exact BitVec.xor_comm a b

theorem reduces_assoc (op : Nat) (a b c : Word) : reduces op (reduces op a b) c = reduces op a (reduces op b c) := by
  match op with
  | 0 => simp only [← reduceOp_eq_reduces]; exact BitVec.add_assoc a b c
  | 1 => simp only [reduces, toInt_ofInt_min, Int.min_assoc]
  | 2 => simp only [reduces, toInt_ofInt_max, Int.max_assoc]
  | 3 => simp only [reduces, toNat_ofNat_min, Nat.min_assoc]
  | 4 => simp only [reduces, toNat_ofNat_max, Nat.max_assoc]
  | 5 => exact BitVec.and_assoc a b c
  | 6 => exact BitVec.or_assoc a b c
  | _ + 7 => exact BitVec.xor_assoc a b c

theorem reduces_foldl_eq_foldr (op : Nat) (u : Word) : ∀ vs : List Word, vs.foldl (reduces op) u = vs.foldr (reduces op) u
  | [] => rfl
  | v :: r => by
    have : Std.Associative (reduces op) := ⟨reduces_assoc op⟩
    rw [List.foldl_cons, List.foldr_cons, reduces_comm op u v, List.foldl_assoc, reduces_foldl_eq_foldr op u r]

/-- R137: the operator is associative and commutative, so that the order of the lanes does not matter. -/
theorem foldl_reduceOp_eq_foldr {op : Nat} (h : op < 8) (v : Nat → Word) (ls : List Nat) :
    ls.foldl (fun r k => reduceOp op r (v k)) (reduceUnit op) = (ls.map v).foldr (reduces op) (reduceIdentity op) := by
  simp only [reduceOp_eq_reduces, reduceUnit_eq_reduceIdentity h]
  rw [← reduces_foldl_eq_foldr, List.foldl_map]

theorem redg_completes (f : Fields) : Completes (.redg f) f (fun _ _ => True) (fun _ _ s => s) fun e ls =>
    e.wrote ls fun j => e.setReg j f.d (((scanLanes (f.mod.toNat / 8 % 4) j ls).map fun k => e.reg k f.a).foldr
      (reduces (f.mod.toNat % 8)) (reduceIdentity (f.mod.toNat % 8))) := by
  refine completes_setReg _ (fun e ls j => ((scanLanes (f.mod.toNat / 8 % 4) j ls).map fun k => e.reg k f.a).foldr
    (reduces (f.mod.toNat % 8)) (reduceIdentity (f.mod.toNat % 8))) (reduceBody f) fun e ls s _ => ⟨rfl, fun j _ => ?_⟩
  simp only [← foldl_reduceOp_eq_foldr (Nat.mod_lt f.mod.toNat (by decide : 8 > 0)) fun k => e.reg k f.a, reduceBody,
    modBits_zero, Nat.reducePow]
  rfl

theorem laneOperations : LaneOperations := by
  intro f
  refine ⟨lxch_completes f, bcast_indexed_completes, bcast_first_completes, ?_⟩
  have h := redg_completes f
  simp only [scanLanes_eq] at h
  exact h

/-- Settles O6: VOTE by its modes, and the exchanges, broadcasts and reductions, each proved above. -/
theorem votesAndLaneOperations : Obligations.VotesAndLaneOperations := ⟨voteCombinesThePredicate, laneOperations⟩

end Sys2Proof.Machine
end
